-- ==== Sys2Proof/Word.lean ====
section
/-!
DEFINITION. Word.lean: the words of the machine and their plainest arithmetic (00 R2, R10), and the names of agents, masks and
partition entries that instructions and events carry as operands.
-/
namespace Sys2Proof

/-- A 32-bit word, as every x, f and v element holds it (00 R2, 06 R145). -/
abbrev Word := BitVec 32

/-- A byte of memory. -/
abbrev Byte := BitVec 8

/-- A 16-bit word of an instruction stream (04 R86). -/
abbrev HWord := BitVec 16

/-- The number of an x register. -/
abbrev XReg := BitVec 5
/-- The number of an f register. -/
abbrev FReg := BitVec 5
/-- The number of a v register. -/
abbrev VReg := BitVec 5
/-- The number of an endpoint register (04 R94: 0-15). -/
abbrev EReg := BitVec 4
/-- The number of a stream register (04 R94: 0-3). -/
abbrev SReg := BitVec 2
/-- The number of a delay register (04 R94: 0-7). -/
abbrev DReg := BitVec 3
/-- The immediate of a group before its scale is applied (04 R97). -/
abbrev Imm := BitVec 32

/-- Bits `hi` down to `lo` of a natural number. -/
def bitsOf (n hi lo : Nat) : Nat := n / 2 ^ lo % 2 ^ (hi + 1 - lo)

/-- The word that holds an integer, of which the low 32 bits are kept (00 R10). -/
def wordOf (n : Int) : Word := BitVec.ofInt 32 n

/-- 0 or 1. -/
def bit (b : Bool) : Nat := if b then 1 else 0

/-- Who acts: a core context, or one of the harts of 01 R23. A core context is named by stack, cluster
index, core and context (01 R11-R13); a copy unit by the cluster it serves; a memory core, a service core and a
link engine by stack and channel, quadrant or local port (01 R15). -/
inductive AgentId where
  | core (stack cluster core ctx : Nat)
  | copyUnit (stack cluster : Nat)
  | saveEngine (stack : Nat)
  | secureCore
  | memoryCore (stack chan : Nat)
  | serviceCore (stack quad : Nat)
  | linkEngine (stack port : Nat)
  deriving DecidableEq, Repr

/-- The mask fields of a PFR (04 R92): the mask register (0 none, 1-3 the v register), and whether masked-off
and tail elements are agnostic. -/
structure VMask where
  msel : BitVec 2
  mpol : Bool
  tpol : Bool
  deriving DecidableEq, Repr

/-- A group without PFR: no mask, undisturbed elements (04 R92). -/
def VMask.plain : VMask := ⟨0, false, false⟩

/-- The partition entry the trusted monitor keeps for a tenant (22 R531). Clusters are given as rows (stack, y) of
40 clusters; shared SRAM as (stack, slice, first, last) in units of 64 KiB of slice offset; DRAM as (module channel,
row of 2 MiB); the page-table root as a physical address; the save pool as a physical address and a size. -/
structure Partition where
  rows : List (Nat × Nat)
  shared : List (Nat × Nat × Nat × Nat)
  dramRows : List (Nat × Nat)
  root : Nat
  queues : List Nat
  ports : List Nat
  agents : List AgentId
  routes : List (Nat × Nat)
  domBase : Nat
  domCount : Nat
  poolBase : Nat
  poolSize : Nat
  debug : Bool
  deriving DecidableEq, Repr

end Sys2Proof
end

