-- ==== Sys2Proof/Config.lean ====
section
/-!
DEFINITION. Config.lean: the free values, of which the spec fixes no more than stated here. None has a body; a statement that
mentions one holds for every value of it.
-/
namespace Sys2Proof.Config

/-- Core cycles that pass at the n-th step of the machine beyond the first (00 R4: no time but a bound is fixed; log 1). -/
opaque stall : Nat → Nat

/-- By how much the copy of TIME that a unit holds is ahead at a time: unit, time; taken modulo 5 (01 R21; log 1). -/
opaque skew : Nat → Nat → Nat

/-- The stepping code of stepping A1 (00 R1, 22 R534, R541): the spec gives no value (log 8). -/
opaque steppingCode : Word

/-- The manufacturer identity of IDCODE (22 R541): the spec gives no value (log 8). -/
opaque manufacturer : BitVec 11

/-- The 384-byte signature over bytes 0x000 to 0x0FF of a report, made with the device key (22 R534; log 8). -/
opaque signature : List Byte → List Byte

/-- The bytes of a partition entry that its SHA-256 is taken over (22 R534): the spec gives no layout (log 8). -/
opaque partitionBytes : Partition → List Byte

/-- Bytes of save area sections whose interior is defined by firmware (18 R483, R484): section kind, owner, offset (log 15). -/
opaque saveInterior : Nat → Nat → Nat → Byte

/-- The virtual channel of a Rellor link by which channel traffic travels; how many mesh flits a message takes beside its first; and their
bytes, by message, flit and byte (22 R528; log 42). -/
opaque linkChannel : Nat
opaque meshFlits : Nat → Nat
opaque meshFlit : Nat → Nat → Nat → Byte

/-- The n-th draw of a choice the spec leaves to the Q16 (00 R8; log 1). -/
opaque choice : Nat → Nat

/-- A word whose value the spec does not state, the n-th such word (log 8). -/
opaque freeWord : Nat → Word

/-- The source unit kind of the n-th machine report (22 R539): the spec gives no codes (log 8). -/
opaque unitKind : Nat → Byte

/-- The trusted monitor lets a service core (stack × 4 + quadrant) trace the slice ranges of a tenant (22 R543; log 8). -/
opaque mayTrace : Nat → Nat → Bool

/-- The size of a save-area section whose interior firmware defines, by section kind (18 R483; log 15). -/
opaque sectionSize : Nat → Nat

/-- Pins in the boundary register (22 R541): the spec gives no number (log 8). -/
opaque boundaryLength : Nat

end Sys2Proof.Config
end

