-- ==== Sys2Proof/Syntax.lean ====
section
/-!
DEFINITION. Syntax.lean: the instructions of Nasen (04 R102-R111) and the whole steps of the fixed-function
units, the host, the trusted monitor and the debug port, one constructor for each row of the opcode table.
-/
namespace Sys2Proof

/-- One constructor for each row of the opcode table. The constructors up to `scrub` are the instructions of
pages 0 to 8; register operands are the fields a, b and c (a `c` that is absent means a group without PFR, 04 R93), and
`imm` is the immediate before its scale is applied (04 R97). The constructors after them are the events: one whole
step of a unit that executes no instructions, with the unit or the agent it concerns as operand. -/
inductive Instr where
  /-- ADD (R155): Integer add. -/
  | add (a : XReg) (b : XReg) (c : Option XReg)
  /-- SUB (R155): Integer subtract. -/
  | sub (a : XReg) (b : XReg) (c : Option XReg)
  /-- AND (R155): Bitwise AND. -/
  | andX (a : XReg) (b : XReg) (c : Option XReg)
  /-- OR (R155): Bitwise OR. -/
  | orX (a : XReg) (b : XReg) (c : Option XReg)
  /-- XOR (R155): Bitwise XOR. -/
  | xorX (a : XReg) (b : XReg) (c : Option XReg)
  /-- SLL (R155): Shift left logical. -/
  | sll (a : XReg) (b : XReg) (c : Option XReg)
  /-- SRL (R155): Shift right logical. -/
  | srl (a : XReg) (b : XReg) (c : Option XReg)
  /-- SRA (R155): Shift right arithmetic. -/
  | sra (a : XReg) (b : XReg) (c : Option XReg)
  /-- MUL (R156): Low 32 bits of the product. -/
  | mul (a : XReg) (b : XReg) (c : Option XReg)
  /-- MULH (R156): High 32 bits of the signed product. -/
  | mulh (a : XReg) (b : XReg) (c : Option XReg)
  /-- MULHN (R156): High 32 bits of the unsigned product. -/
  | mulhn (a : XReg) (b : XReg) (c : Option XReg)
  /-- DIV (R157): Signed division setting T. -/
  | div (a : XReg) (b : XReg) (c : Option XReg)
  /-- DIVN (R157): Unsigned division setting T. -/
  | divn (a : XReg) (b : XReg) (c : Option XReg)
  /-- REM (R157): Signed remainder setting T. -/
  | rem (a : XReg) (b : XReg) (c : Option XReg)
  /-- REMN (R157): Unsigned remainder setting T. -/
  | remn (a : XReg) (b : XReg) (c : Option XReg)
  /-- GCD (R158): Greatest common divisor setting T. -/
  | gcd (a : XReg) (b : XReg) (c : Option XReg)
  /-- MIN (R155): Signed minimum. -/
  | minX (a : XReg) (b : XReg) (c : Option XReg)
  /-- MAX (R155): Signed maximum. -/
  | maxX (a : XReg) (b : XReg) (c : Option XReg)
  /-- MINN (R155): Unsigned minimum. -/
  | minn (a : XReg) (b : XReg) (c : Option XReg)
  /-- MAXN (R155): Unsigned maximum. -/
  | maxn (a : XReg) (b : XReg) (c : Option XReg)
  /-- ANDN (R155): AND with complement. -/
  | andn (a : XReg) (b : XReg) (c : Option XReg)
  /-- ORN (R155): OR with complement. -/
  | orn (a : XReg) (b : XReg) (c : Option XReg)
  /-- ROL (R155): Rotate left. -/
  | rol (a : XReg) (b : XReg) (c : Option XReg)
  /-- ROR (R155): Rotate right. -/
  | ror (a : XReg) (b : XReg) (c : Option XReg)
  /-- MOV (R155): Register copy. -/
  | mov (a : XReg) (b : XReg)
  /-- NEG (R155): Two's-complement negate. -/
  | neg (a : XReg) (b : XReg)
  /-- NOT (R155): Bitwise complement. -/
  | notX (a : XReg) (b : XReg)
  /-- CLZ (R155): Count leading zeros. -/
  | clz (a : XReg) (b : XReg)
  /-- CTZ (R155): Count trailing zeros. -/
  | ctz (a : XReg) (b : XReg)
  /-- POPC (R155): Population count. -/
  | popc (a : XReg) (b : XReg)
  /-- SEXTB (R155): Sign-extend byte. -/
  | sextb (a : XReg) (b : XReg)
  /-- SEXTH (R155): Sign-extend halfword. -/
  | sexth (a : XReg) (b : XReg)
  /-- CEQ (R159): T := equal. -/
  | ceq (a : XReg) (b : XReg)
  /-- CNE (R159): T := not equal. -/
  | cne (a : XReg) (b : XReg)
  /-- CLT (R159): T := signed less than. -/
  | clt (a : XReg) (b : XReg)
  /-- CGE (R159): T := signed greater or equal. -/
  | cge (a : XReg) (b : XReg)
  /-- CLTN (R159): T := unsigned less than. -/
  | cltn (a : XReg) (b : XReg)
  /-- CGEN (R159): T := unsigned greater or equal. -/
  | cgen (a : XReg) (b : XReg)
  /-- TST (R159): T := (x[a] AND x[b]) != 0. -/
  | tst (a : XReg) (b : XReg)
  /-- MOVT (R159): x[a] := T. -/
  | movt (a : XReg)
  /-- ADDI (R160): Add immediate. -/
  | addi (a : XReg) (imm : Imm)
  /-- LI (R160): Load immediate. -/
  | li (a : XReg) (imm : Imm)
  /-- ANDI (R160): AND immediate. -/
  | andi (a : XReg) (imm : Imm)
  /-- ORI (R160): OR immediate. -/
  | ori (a : XReg) (imm : Imm)
  /-- XORI (R160): XOR immediate. -/
  | xori (a : XReg) (imm : Imm)
  /-- CEQI (R160): T := x[a] equals immediate. -/
  | ceqi (a : XReg) (imm : Imm)
  /-- CLTI (R160): T := x[a] signed less than immediate. -/
  | clti (a : XReg) (imm : Imm)
  /-- SHI (R161): Shift or rotate x[a] in place by an immediate amount. -/
  | shi (a : XReg) (kind : BitVec 2) (amount : BitVec 5)
  /-- LDW (R163): Load word. -/
  | ldw (a : XReg) (b : XReg) (imm : Imm)
  /-- STW (R164): Store word. -/
  | stw (a : XReg) (b : XReg) (imm : Imm)
  /-- LDB (R163): Load signed byte. -/
  | ldb (a : XReg) (b : XReg) (imm : Imm)
  /-- LDBN (R163): Load unsigned byte. -/
  | ldbn (a : XReg) (b : XReg) (imm : Imm)
  /-- LDH (R163): Load signed halfword. -/
  | ldh (a : XReg) (b : XReg) (imm : Imm)
  /-- LDHN (R163): Load unsigned halfword. -/
  | ldhn (a : XReg) (b : XReg) (imm : Imm)
  /-- LDF (R163): Load word into an f register. -/
  | ldf (a : FReg) (b : XReg) (imm : Imm)
  /-- LDD (R163): Load doubleword into a register pair. -/
  | ldd (a : XReg) (b : XReg) (imm : Imm)
  /-- STB (R164): Store byte. -/
  | stb (a : XReg) (b : XReg) (imm : Imm)
  /-- STH (R164): Store halfword. -/
  | sth (a : XReg) (b : XReg) (imm : Imm)
  /-- STF (R164): Store an f register. -/
  | stf (a : FReg) (b : XReg) (imm : Imm)
  /-- STD (R164): Store a register pair. -/
  | std (a : XReg) (b : XReg) (imm : Imm)
  /-- BF (R166): Branch when T is 0. -/
  | bf (imm : Imm)
  /-- BT (R166): Branch when T is 1. -/
  | bt (imm : Imm)
  /-- JMP (R167): PC-relative jump. -/
  | jmp (imm : Imm)
  /-- JAL (R167): PC-relative jump writing the link to x1. -/
  | jal (imm : Imm)
  /-- JR (R168): Register jump. -/
  | jr (b : XReg) (imm : Imm)
  /-- JALR (R168): Register jump with link. -/
  | jalr (a : XReg) (b : XReg) (imm : Imm)
  /-- LOOP (R170): Run the next k groups x[a] times through the loop buffer. -/
  | loop (a : XReg) (k : BitVec 4)
  /-- SRD (R174): Read one element of a stream into x[a]. -/
  | srd (a : XReg) (b : SReg)
  /-- SWR (R174): Write x[a] to a stream. -/
  | swr (a : XReg) (b : SReg)
  /-- SRDF (R174): Read one element of a stream into f[a]. -/
  | srdf (a : FReg) (b : SReg)
  /-- SWRF (R174): Write f[a] to a stream. -/
  | swrf (a : FReg) (b : SReg)
  /-- END (R175): Wait for outstanding work, then retire the context. -/
  | endCtx
  /-- END.FAIL (R176): Retire as END does and record a failure. -/
  | endFail
  /-- YIELD (R177): Give way to other contexts for 3 cycles. -/
  | yield
  /-- SPAWN (R178): Start a new context on the same core. -/
  | spawn (a : XReg) (b : XReg)
  /-- TRAP (R181): Raise SYSCALL with a code. -/
  | trap (code : BitVec 4)
  /-- ERET (R183): Return from a trap. -/
  | eret
  /-- NOP (R177): No operation. -/
  | nop
  /-- SRR (R147): Read a system register. -/
  | srr (a : XReg) (reg : BitVec 12)
  /-- SRW (R147): Write a system register. -/
  | srw (a : XReg) (reg : BitVec 12)
  /-- PCA (R169): Form a PC-relative address. -/
  | pca (a : XReg) (imm : Imm)
  /-- IPREF (R118): Request the instruction-cache line of a target. -/
  | ipref (imm : Imm)
  /-- FADD (R209): Floating add, or slash add in rational mode. -/
  | fadd (a : FReg) (b : FReg) (c : Option FReg)
  /-- FSUB (R209): Floating subtract. -/
  | fsub (a : FReg) (b : FReg) (c : Option FReg)
  /-- FMUL (R209): Floating multiply. -/
  | fmul (a : FReg) (b : FReg) (c : Option FReg)
  /-- FDIV (R209): Floating divide. -/
  | fdiv (a : FReg) (b : FReg) (c : Option FReg)
  /-- FMIN (R211): Floating minimum. -/
  | fmin (a : FReg) (b : FReg) (c : Option FReg)
  /-- FMAX (R211): Floating maximum. -/
  | fmax (a : FReg) (b : FReg) (c : Option FReg)
  /-- FMA (R210): Fused multiply-add. -/
  | fma (a : FReg) (b : FReg) (c : FReg)
  /-- FMS (R210): Fused multiply-subtract. -/
  | fms (a : FReg) (b : FReg) (c : FReg)
  /-- FNMA (R210): Negated fused multiply-add. -/
  | fnma (a : FReg) (b : FReg) (c : FReg)
  /-- FNMS (R210): Negated fused multiply-subtract. -/
  | fnms (a : FReg) (b : FReg) (c : FReg)
  /-- FSQRT (R212): Square root. -/
  | fsqrt (a : FReg) (b : FReg)
  /-- FNEG (R212): Invert the sign bit. -/
  | fneg (a : FReg) (b : FReg)
  /-- FABS (R212): Clear the sign bit. -/
  | fabs (a : FReg) (b : FReg)
  /-- FMOV (R212): Copy an f register. -/
  | fmov (a : FReg) (b : FReg)
  /-- FEQ (R213): T := floating equal. -/
  | feq (a : FReg) (b : FReg)
  /-- FLT (R213): T := floating less than. -/
  | flt (a : FReg) (b : FReg)
  /-- FLE (R213): T := floating less or equal. -/
  | fle (a : FReg) (b : FReg)
  /-- FUNORD (R213): T := either operand is NaN. -/
  | funord (a : FReg) (b : FReg)
  /-- FCLASS (R214): Write the class code of f[b]. -/
  | fclass (a : XReg) (b : FReg)
  /-- FCVT.I32 (R198): Convert FP32 to signed integer. -/
  | fcvtI32 (a : XReg) (b : FReg)
  /-- FCVT.N32 (R198): Convert FP32 to unsigned integer. -/
  | fcvtN32 (a : XReg) (b : FReg)
  /-- FMV.X (R215): Move f bits to x. -/
  | fmvX (a : XReg) (b : FReg)
  /-- FCVT.BF16 (R196): Convert FP32 to BF16. -/
  | fcvtBf16 (a : XReg) (b : FReg)
  /-- FCVT.E4M3 (R199): Convert FP32 to E4M3. -/
  | fcvtE4m3 (a : XReg) (b : FReg)
  /-- FCVT.E5M2 (R196): Convert FP32 to E5M2. -/
  | fcvtE5m2 (a : XReg) (b : FReg)
  /-- FCVT.BF16.SAT (R196): Saturating conversion to BF16. -/
  | fcvtBf16Sat (a : XReg) (b : FReg)
  /-- FCVT.E4M3.SAT (R196): Saturating conversion to E4M3. -/
  | fcvtE4m3Sat (a : XReg) (b : FReg)
  /-- FCVT.E5M2.SAT (R196): Saturating conversion to E5M2. -/
  | fcvtE5m2Sat (a : XReg) (b : FReg)
  /-- FCVTF.I32 (R216): Convert signed integer to FP32. -/
  | fcvtfI32 (a : FReg) (b : XReg)
  /-- FCVTF.N32 (R216): Convert unsigned integer to FP32. -/
  | fcvtfN32 (a : FReg) (b : XReg)
  /-- FMV.F (R216): Move x bits to f. -/
  | fmvF (a : FReg) (b : XReg)
  /-- FCVTF.BF16 (R216): Convert BF16 to FP32. -/
  | fcvtfBf16 (a : FReg) (b : XReg)
  /-- FCVTF.E4M3 (R216): Convert E4M3 to FP32. -/
  | fcvtfE4m3 (a : FReg) (b : XReg)
  /-- FCVTF.E5M2 (R216): Convert E5M2 to FP32. -/
  | fcvtfE5m2 (a : FReg) (b : XReg)
  /-- FLD (R217): Load a word into f[a]. -/
  | fld (a : FReg) (b : XReg) (imm : Imm)
  /-- FST (R217): Store f[a]. -/
  | fst (a : FReg) (b : XReg) (imm : Imm)
  /-- SMK (R238): Make a slash value from two integers. -/
  | smk (a : FReg) (b : XReg) (c : XReg)
  /-- SNUM (R239): Read the numerator field of a slash word. -/
  | snum (a : XReg) (b : FReg)
  /-- SDEN (R239): Read the denominator of a slash word. -/
  | sden (a : XReg) (b : FReg)
  /-- SBND (R239): Read the boundary of a slash word. -/
  | sbnd (a : XReg) (b : FReg)
  /-- SMED (R240): Form the mediant of two slash values. -/
  | smed (a : FReg) (b : FReg) (c : Option FReg)
  /-- SREC (R241): Exact reciprocal of a slash value. -/
  | srec (a : FReg) (b : FReg)
  /-- SCVTF (R242): Convert FP32 bits to slash. -/
  | scvtf (a : FReg) (b : XReg)
  /-- FCVTS (R243): Convert slash to FP32 bits. -/
  | fcvts (a : XReg) (b : FReg)
  /-- VADD.I (R272): Vector integer add. -/
  | vaddI (a : VReg) (b : VReg) (c : Option VReg) (m : VMask)
  /-- VSUB.I (R272): Vector integer subtract. -/
  | vsubI (a : VReg) (b : VReg) (c : Option VReg) (m : VMask)
  /-- VMUL.I (R272): Vector integer multiply. -/
  | vmulI (a : VReg) (b : VReg) (c : Option VReg) (m : VMask)
  /-- VMIN.I (R272): Vector signed minimum. -/
  | vminI (a : VReg) (b : VReg) (c : Option VReg) (m : VMask)
  /-- VMAX.I (R272): Vector signed maximum. -/
  | vmaxI (a : VReg) (b : VReg) (c : Option VReg) (m : VMask)
  /-- VAND (R272): Vector AND. -/
  | vand (a : VReg) (b : VReg) (c : Option VReg) (m : VMask)
  /-- VOR (R272): Vector OR. -/
  | vor (a : VReg) (b : VReg) (c : Option VReg) (m : VMask)
  /-- VXOR (R272): Vector XOR. -/
  | vxor (a : VReg) (b : VReg) (c : Option VReg) (m : VMask)
  /-- VSLL (R272): Vector shift left. -/
  | vsll (a : VReg) (b : VReg) (c : Option VReg) (m : VMask)
  /-- VSRL (R272): Vector logical shift right. -/
  | vsrl (a : VReg) (b : VReg) (c : Option VReg) (m : VMask)
  /-- VSRA (R272): Vector arithmetic shift right. -/
  | vsra (a : VReg) (b : VReg) (c : Option VReg) (m : VMask)
  /-- VADDS.I (R272): Vector saturating add. -/
  | vaddsI (a : VReg) (b : VReg) (c : Option VReg) (m : VMask)
  /-- VSUBS.I (R272): Vector saturating subtract. -/
  | vsubsI (a : VReg) (b : VReg) (c : Option VReg) (m : VMask)
  /-- VADD.F (R273): Vector floating add. -/
  | vaddF (a : VReg) (b : VReg) (c : Option VReg) (m : VMask)
  /-- VSUB.F (R273): Vector floating subtract. -/
  | vsubF (a : VReg) (b : VReg) (c : Option VReg) (m : VMask)
  /-- VMUL.F (R273): Vector floating multiply. -/
  | vmulF (a : VReg) (b : VReg) (c : Option VReg) (m : VMask)
  /-- VDIV.F (R273): Vector floating divide. -/
  | vdivF (a : VReg) (b : VReg) (c : Option VReg) (m : VMask)
  /-- VMIN.F (R273): Vector floating minimum. -/
  | vminF (a : VReg) (b : VReg) (c : Option VReg) (m : VMask)
  /-- VMAX.F (R273): Vector floating maximum. -/
  | vmaxF (a : VReg) (b : VReg) (c : Option VReg) (m : VMask)
  /-- VFMA (R274): Vector fused multiply-add. -/
  | vfma (a : VReg) (b : VReg) (c : VReg) (m : VMask)
  /-- VFMS (R274): Vector fused multiply-subtract. -/
  | vfms (a : VReg) (b : VReg) (c : VReg) (m : VMask)
  /-- VSEL (R274): Select elements by mask. -/
  | vsel (a : VReg) (b : VReg) (c : VReg) (m : VMask)
  /-- VCEQ.I (R275): Vector integer equal compare. -/
  | vceqI (a : VReg) (b : VReg) (c : Option VReg) (m : VMask)
  /-- VCLT.I (R275): Vector signed less-than compare. -/
  | vcltI (a : VReg) (b : VReg) (c : Option VReg) (m : VMask)
  /-- VCLTN.I (R275): Vector unsigned less-than compare. -/
  | vcltnI (a : VReg) (b : VReg) (c : Option VReg) (m : VMask)
  /-- VCEQ.F (R275): Vector floating equal compare. -/
  | vceqF (a : VReg) (b : VReg) (c : Option VReg) (m : VMask)
  /-- VCLT.F (R275): Vector floating less-than compare. -/
  | vcltF (a : VReg) (b : VReg) (c : Option VReg) (m : VMask)
  /-- VCLE.F (R275): Vector floating less-or-equal compare. -/
  | vcleF (a : VReg) (b : VReg) (c : Option VReg) (m : VMask)
  /-- VCUN.F (R275): Vector unordered compare. -/
  | vcunF (a : VReg) (b : VReg) (c : Option VReg) (m : VMask)
  /-- VCVT.F.I (R276): Convert i32 elements to FP32. -/
  | vcvtFI (a : VReg) (b : VReg) (m : VMask)
  /-- VCVT.I.F (R276): Convert FP32 elements to i32. -/
  | vcvtIF (a : VReg) (b : VReg) (m : VMask)
  /-- VCVT.BF16.F (R276): Convert FP32 elements to BF16. -/
  | vcvtBf16F (a : VReg) (b : VReg) (m : VMask)
  /-- VCVT.F.BF16 (R276): Convert BF16 elements to FP32. -/
  | vcvtFBf16 (a : VReg) (b : VReg) (m : VMask)
  /-- VCVT.E4M3.F (R276): Convert FP32 elements to E4M3. -/
  | vcvtE4m3F (a : VReg) (b : VReg) (m : VMask)
  /-- VCVT.E5M2.F (R276): Convert FP32 elements to E5M2. -/
  | vcvtE5m2F (a : VReg) (b : VReg) (m : VMask)
  /-- VCVT.F.E4M3 (R276): Convert E4M3 elements to FP32. -/
  | vcvtFE4m3 (a : VReg) (b : VReg) (m : VMask)
  /-- VCVT.F.E5M2 (R276): Convert E5M2 elements to FP32. -/
  | vcvtFE5m2 (a : VReg) (b : VReg) (m : VMask)
  /-- VCVT.BF16.F.SAT (R276): Saturating conversion of elements to BF16. -/
  | vcvtBf16FSat (a : VReg) (b : VReg) (m : VMask)
  /-- VCVT.E4M3.F.SAT (R276): Saturating conversion of elements to E4M3. -/
  | vcvtE4m3FSat (a : VReg) (b : VReg) (m : VMask)
  /-- VCVT.E5M2.F.SAT (R276): Saturating conversion of elements to E5M2. -/
  | vcvtE5m2FSat (a : VReg) (b : VReg) (m : VMask)
  /-- VADD.FS (R277): Add an FP32 scalar to each element. -/
  | vaddFs (a : VReg) (b : VReg) (c : FReg) (m : VMask)
  /-- VMUL.FS (R277): Multiply each element by an FP32 scalar. -/
  | vmulFs (a : VReg) (b : VReg) (c : FReg) (m : VMask)
  /-- VFMA.FS (R277): Fused multiply-add with an FP32 scalar. -/
  | vfmaFs (a : VReg) (b : VReg) (c : FReg) (m : VMask)
  /-- VBCAST.X (R278): Broadcast x[b] to every element. -/
  | vbcastX (a : VReg) (b : XReg) (m : VMask)
  /-- VBCAST.F (R278): Broadcast f[b] bits to every element. -/
  | vbcastF (a : VReg) (b : FReg) (m : VMask)
  /-- VIOTA (R278): Write each element's index. -/
  | viota (a : VReg) (m : VMask)
  /-- VEXT.X (R278): Extract one element to x[a]. -/
  | vextX (a : XReg) (b : VReg) (c : XReg)
  /-- VINS.X (R278): Insert x[b] into one element. -/
  | vinsX (a : VReg) (b : XReg) (c : XReg)
  /-- VLD (R281): Vector unit-stride load. -/
  | vld (a : VReg) (b : XReg) (imm : Imm) (m : VMask)
  /-- VST (R281): Vector unit-stride store. -/
  | vst (a : VReg) (b : XReg) (imm : Imm) (m : VMask)
  /-- VLDS (R281): Vector strided load. -/
  | vlds (a : VReg) (b : XReg) (c : XReg) (imm : Imm) (m : VMask)
  /-- VSTS (R281): Vector strided store. -/
  | vsts (a : VReg) (b : XReg) (c : XReg) (imm : Imm) (m : VMask)
  /-- VLDB (R281): Vector broadcast load. -/
  | vldb (a : VReg) (b : XReg) (imm : Imm) (m : VMask)
  /-- VLDX (R281): Vector indexed load with wrap. -/
  | vldx (a : VReg) (b : XReg) (c : VReg) (imm : Imm) (m : VMask)
  /-- VSTX (R281): Vector indexed store with wrap. -/
  | vstx (a : VReg) (b : XReg) (c : VReg) (imm : Imm) (m : VMask)
  /-- VPERM (R282): Permute elements by index. -/
  | vperm (a : VReg) (b : VReg) (c : Option VReg) (m : VMask)
  /-- VZIP (R282): Interleave two vectors. -/
  | vzip (a : VReg) (b : VReg) (c : Option VReg) (m : VMask)
  /-- VUNZIP (R282): De-interleave two vectors. -/
  | vunzip (a : VReg) (b : VReg) (c : Option VReg) (m : VMask)
  /-- VREV (R282): Reverse the active elements. -/
  | vrev (a : VReg) (b : VReg) (m : VMask)
  /-- VSLIDEUP (R282): Slide elements up by x[c]. -/
  | vslideup (a : VReg) (b : VReg) (c : XReg) (m : VMask)
  /-- VSLIDEDN (R282): Slide elements down by x[c]. -/
  | vslidedn (a : VReg) (b : VReg) (c : XReg) (m : VMask)
  /-- VCOMPRESS (R283): Pack the active elements. -/
  | vcompress (a : VReg) (b : VReg) (m : VMask)
  /-- VEXPAND (R283): Spread elements into the active positions. -/
  | vexpand (a : VReg) (b : VReg) (m : VMask)
  /-- VREDADD.F (R284): Tree sum of FP32 elements. -/
  | vredaddF (a : FReg) (b : VReg) (m : VMask)
  /-- VREDMAX.F (R285): Tree maximum of FP32 elements. -/
  | vredmaxF (a : FReg) (b : VReg) (m : VMask)
  /-- VREDMIN.F (R285): Tree minimum of FP32 elements. -/
  | vredminF (a : FReg) (b : VReg) (m : VMask)
  /-- VREDADD.I (R285): Integer sum of elements. -/
  | vredaddI (a : XReg) (b : VReg) (m : VMask)
  /-- VREDMAX.I (R285): Signed maximum of elements. -/
  | vredmaxI (a : XReg) (b : VReg) (m : VMask)
  /-- VREDMIN.I (R285): Signed minimum of elements. -/
  | vredminI (a : XReg) (b : VReg) (m : VMask)
  /-- VPOPC (R285): Count set mask elements. -/
  | vpopc (a : XReg) (b : VReg) (m : VMask)
  /-- VFIRST (R285): Index of the first set mask element, setting T. -/
  | vfirst (a : XReg) (b : VReg) (m : VMask)
  /-- VCLAIM (R292): Claim vector lanes, waiting in the claim queue. -/
  | vclaim (a : XReg) (b : XReg)
  /-- VYIELD (R293): Release the whole lane grant. -/
  | vyield
  /-- VLOOP (R263): Replay the next n vector groups count times. -/
  | vloop (a : XReg) (b : XReg)
  /-- VSETVL (R294): Set the active length for one strip. -/
  | vsetvl (a : XReg) (b : XReg)
  /-- VSYNC (R295): Wait until the sequencer is empty and no VLOOP is active. -/
  | vsync
  /-- VEXP (R286): Correctly rounded e^x per element. -/
  | vexp (a : VReg) (b : VReg) (m : VMask)
  /-- VLOG (R286): Correctly rounded natural logarithm. -/
  | vlog (a : VReg) (b : VReg) (m : VMask)
  /-- VRCP (R286): Reciprocal per element. -/
  | vrcp (a : VReg) (b : VReg) (m : VMask)
  /-- VRSQRT (R286): Reciprocal square root per element. -/
  | vrsqrt (a : VReg) (b : VReg) (m : VMask)
  /-- VTANH (R286): Hyperbolic tangent per element. -/
  | vtanh (a : VReg) (b : VReg) (m : VMask)
  /-- VSIGM (R286): Logistic sigmoid per element. -/
  | vsigm (a : VReg) (b : VReg) (m : VMask)
  /-- VTOPK (R288): Indices of the k largest active elements. -/
  | vtopk (a : VReg) (b : VReg) (c : XReg) (m : VMask)
  /-- VTNORM (R289): Softmax weights for selected indices. -/
  | vtnorm (a : VReg) (b : VReg) (c : XReg)
  /-- VQUANT (R290): Quantise blocks of 32 elements to BFP. -/
  | vquant (a : VReg) (b : VReg) (c : XReg)
  /-- VDEQUANT (R291): Dequantise BFP elements to FP32. -/
  | vdequant (a : VReg) (b : VReg) (c : XReg)
  /-- MMA (R328): Queue one tile operation. -/
  | mma (a : XReg) (b : XReg)
  /-- MMAR (R329): Queue a chain of k tile operations with ring steps. -/
  | mmar (a : XReg) (b : XReg) (imm : Imm)
  /-- MLATB (R330): Queue a load of a B tile into the core's latch. -/
  | mlatb (a : XReg)
  /-- MRING (R331): Queue one ring point. -/
  | mring
  /-- MWAIT (R332): Wait for the context's matrix commands. -/
  | mwait
  /-- MSYNC (R332): Wait for the core's matrix commands and release at cluster scope. -/
  | msync
  /-- MZERO (R333): Queue zeroing of a C tile. -/
  | mzero (a : XReg)
  /-- MCSWAP (R334): Invert MFMT.CB. -/
  | mcswap
  /-- MCRD (R335): Queue a read of one C element. -/
  | mcrd (a : XReg) (b : XReg)
  /-- MCWR (R335): Queue a write of one C element. -/
  | mcwr (a : XReg) (b : XReg)
  /-- MQUANT (R336): Queue quantisation of a C tile to BFP. -/
  | mquant (a : XReg) (b : XReg)
  /-- MSATRD (R337): Queue a read, and optional clear, of a tile's saturation counter. -/
  | msatrd (a : XReg) (b : XReg)
  /-- LDA (R369): Load-acquire at system scope. -/
  | lda (a : XReg) (b : XReg) (imm : Imm)
  /-- STL (R369): Store-release at system scope. -/
  | stl (a : XReg) (b : XReg) (imm : Imm)
  /-- FENCE (R370): Order the named kinds of access at a scope. -/
  | fence (scope : BitVec 4) (kinds : BitVec 4)
  /-- JDRAIN (R368): Wait until every job of the context has written its mailbox. -/
  | jdrain
  /-- AADD (R462): Returning atomic add. -/
  | aadd (a : XReg) (b : XReg) (c : XReg)
  /-- FADDB (R462): Returning bounded add. -/
  | faddb (a : XReg) (b : XReg) (c : XReg)
  /-- INCW (R462): Returning wrapping increment. -/
  | incw (a : XReg) (b : XReg) (c : XReg)
  /-- ASWAP (R462): Returning swap. -/
  | aswap (a : XReg) (b : XReg) (c : XReg)
  /-- ACAS (R462): Returning compare-and-swap. -/
  | acas (a : XReg) (b : XReg) (c : XReg)
  /-- AAND (R462): Returning atomic AND. -/
  | aand (a : XReg) (b : XReg) (c : XReg)
  /-- AOR (R462): Returning atomic OR. -/
  | aor (a : XReg) (b : XReg) (c : XReg)
  /-- AMAX (R462): Returning signed maximum. -/
  | amax (a : XReg) (b : XReg) (c : XReg)
  /-- ACC.I (R458): Send an INT32 accumulate. -/
  | accI (a : XReg) (b : XReg)
  /-- ACC.F (R458): Send an FP32 accumulate. -/
  | accF (a : FReg) (b : XReg)
  /-- ACCSQ (R459): Accumulate a value and its square. -/
  | accsq (a : FReg) (b : XReg)
  /-- FLUSHR (R460): Flush the residual tile and wait for every accumulate. -/
  | flushr
  /-- JOB (R364): Submit a copy job. -/
  | job (a : XReg) (b : XReg)
  /-- POLLJ (R367): Acquire-read a job mailbox into T. -/
  | pollj (b : XReg)
  /-- WAITJ (R367): Wait for a job's mailbox. -/
  | waitj (b : XReg)
  /-- ALOAD (R383): Load and check an automaton image into a slot. -/
  | aload (a : XReg) (b : XReg)
  /-- AFREE (R384): Free an automaton slot. -/
  | afree (b : XReg)
  /-- ALAHEAD (R384): Read an automaton's look-aheads and reservation. -/
  | alahead (a : XReg) (b : XReg)
  /-- CONNECT (R385): Request a channel to a named endpoint. -/
  | connect (a : EReg) (b : XReg) (c : XReg)
  /-- ACCEPT (R385): Wait for a connection request. -/
  | accept (a : EReg) (b : XReg) (c : XReg)
  /-- EPNAME (R377): Read an endpoint's name. -/
  | epname (a : XReg) (b : EReg)
  /-- ESTAT (R376): Read an endpoint's status. -/
  | estat (a : XReg) (b : EReg)
  /-- EPSET (R377): Configure an endpoint register. -/
  | epset (a : EReg) (b : XReg)
  /-- EPMOD (R377): Set an endpoint's peer module number. -/
  | epmod (a : EReg) (b : XReg)
  /-- CLOSE (R400): Close or release an endpoint register. -/
  | close (a : EReg)
  /-- SEND (R392): Send a message from memory. -/
  | send (a : EReg) (b : XReg) (imm : Imm)
  /-- RECV (R392): Receive a message into memory. -/
  | recv (a : EReg) (b : XReg) (imm : Imm)
  /-- SENDV (R392): Send a message from a vector register. -/
  | sendv (a : EReg) (b : VReg)
  /-- RECVV (R392): Receive a message into a vector register. -/
  | recvv (a : EReg) (b : VReg)
  /-- SENDX (R392): Send the low bytes of x[b]. -/
  | sendx (a : EReg) (b : XReg)
  /-- RECVX (R392): Receive a small message into x[b]. -/
  | recvx (a : EReg) (b : XReg)
  /-- SELECT (R392): Send a label and take its edge. -/
  | select (a : EReg) (label : BitVec 6)
  /-- OFFER (R392): Receive a label and take its edge. -/
  | offer (a : XReg) (b : EReg)
  /-- DSEND (R394): Delegate an endpoint over a channel. -/
  | dsend (a : EReg) (b : EReg)
  /-- DRECV (R395): Receive and install a delegated endpoint. -/
  | drecv (a : EReg) (b : EReg)
  /-- SBIND (R393): Bind a stream to a receive endpoint. -/
  | sbind (a : SReg) (b : EReg)
  /-- SBINDA (R360): Bind a stream to an affine descriptor. -/
  | sbinda (a : SReg) (b : XReg)
  /-- SUNBIND (R393): Unbind a stream. -/
  | sunbind (a : SReg)
  /-- VKSEND (R405): Send key-value pairs to destinations by key hash. -/
  | vksend (a : EReg) (b : VReg) (c : VReg)
  /-- RAUCFG (R406): Read the RAU status and set its configuration. -/
  | raucfg (a : XReg) (b : XReg)
  /-- EMIT (R420): Emit a signal with a value. -/
  | emit (a : XReg) (sig : BitVec 6)
  /-- NOEMIT (R421): Clear a live bit of a signal. -/
  | noemit (sig : BitVec 6)
  /-- ABSB (R422): Branch when a signal is absent. -/
  | absb (sig : BitVec 6) (imm : Imm)
  /-- PRES (R422): Branch when a signal is present. -/
  | pres (sig : BitVec 6) (imm : Imm)
  /-- SVAL (R423): Wait until a signal settles and read its value. -/
  | sval (a : XReg) (sig : BitVec 6)
  /-- PAUSE (R425): End the member's part in the instant. -/
  | pause
  /-- PAUSE.UP (R426): Pause and mark the member as paused up. -/
  | pauseUp
  /-- DOMNEW (R413): Create a domain from a descriptor. -/
  | domnew (a : XReg) (b : XReg)
  /-- DOMFREE (R414): Free an empty domain. -/
  | domfree (b : XReg)
  /-- DLYW (R429): Write NXT of a delay register. -/
  | dlyw (a : DReg) (b : XReg)
  /-- DLYR (R429): Read CUR of a delay register. -/
  | dlyr (a : XReg) (b : DReg)
  /-- WAITEQ (R438): Wait until a scratchpad word equals a value. -/
  | waiteq (b : XReg) (c : XReg)
  /-- WAITNE (R438): Wait until a scratchpad word differs from a value. -/
  | waitne (b : XReg) (c : XReg)
  /-- BELL (R435): Ring a named bell. -/
  | bell (b : XReg)
  /-- BRK (R497): Raise BREAK with a code. -/
  | brk (code : BitVec 4)
  /-- TRACEM (R498): Record a trace entry holding x[b]. -/
  | tracem (b : XReg)
  /-- TRIG (R498): Make a trace trigger. -/
  | trig
  /-- ICINV (R499): Invalidate one instruction-cache line. -/
  | icinv (b : XReg)
  /-- ICINVA (R499): Invalidate the whole instruction cache. -/
  | icinva
  /-- WINSET (R500): Write a shared SRAM window. -/
  | winset (a : XReg) (b : XReg)
  /-- WINGET (R500): Read one word of a window. -/
  | winget (a : XReg) (b : XReg)
  /-- HALT (R501): Clock-gate the context until a trap, debug resume or switch. -/
  | halt
  /-- SCRUB (R502): Scrub a 64-byte block of local memory. -/
  | scrub (b : XReg)
  /-- SQ_TAIL_DOORBELL (R51): A host write to SQ_TAIL records new submission entries of a host queue for its service core. -/
  | sqTailDoorbell (q : Nat) (tail : BitVec 16)
  /-- AM_BELL (R55): A host write to AM_BELL copies a message slot to the service core and sets its status to PENDING. -/
  | amBell (q : Nat) (slot : BitVec 3)
  /-- ACTIVE_MESSAGE (R56): The service core handles a rung message: it starts the idle target context or sets a refusal status. -/
  | activeMessage (svc : Nat)
  /-- LAUNCH (R52): The service core takes a LAUNCH entry, reads and checks the launch record and forwards it to the global dispatcher or refuses it. -/
  | launch (q : Nat)
  /-- TEMPLATE (R75): The service core takes a TEMPLATE entry that submits a template launch bound to a device queue. -/
  | template (q : Nat)
  /-- LOADER (R84): The service core takes a LOADER entry with STOP = 0 and starts a tenant loader program on a memory core. -/
  | loader (q : Nat)
  /-- LOADER_STOP (R85): The service core takes a LOADER entry with STOP = 1 and stops the queue's loader program on that memory core. -/
  | loaderStop (q : Nat)
  /-- LAUNCH_ELIGIBLE (R63): A launch becomes eligible once every dependence has completed with DONE, or completes DEP_CANCELLED when one fails. -/
  | launchEligible (q : Nat) (lid : BitVec 32)
  /-- ADVERTISEMENT (R64): A stack dispatcher sends FREE and LARGEST for a tenant after a change, at most once every 64 cycles. -/
  | advertisement (stack tenant : Nat)
  /-- BATCH (R65): The global dispatcher forms at most one batch every 32 cycles and sends teams of the chosen launch to a stack. -/
  | batch
  /-- TEAM_PLACEMENT (R67): A stack dispatcher places the head team of its stack queue in the fitting cluster with the fewest free contexts. -/
  | teamPlacement (stack : Nat)
  /-- TEAM_LOAD_COMPLETE (R73): When the copy unit has loaded a team's sections, the members start within 8 cycles, or the launch fails with IMAGE. -/
  | teamLoadComplete (q : Nat) (lid : BitVec 32) (team : Nat)
  /-- COMPLETION_RECORD (R47): The dispatcher writes a launch's completion record once, word 0 last as a release. -/
  | completionRecord (q : Nat) (lid : BitVec 32)
  /-- MSIX_UNMASK (R47): Unmasking a vector with its pending bit set sends the MSI-X message. -/
  | msixUnmask (func vector : Nat)
  /-- RECORD_CONSUME (R78): The dispatcher consumes the ragged tile record at HEAD of a device queue once word 0 is non-zero and queues one team. -/
  | recordConsume (q : Nat) (lid : BitVec 32)
  /-- PRODUCER_COMPLETE (R79): When the producer launch completes, the dispatcher reads TAIL and drains the queue, or cancels the template launch. -/
  | producerComplete (q : Nat) (lid : BitVec 32)
  /-- SWAP_START (R80): At the end of a launch's first quantum with unplaced teams that fit nowhere, its resident teams become sites. -/
  | swapStart (q : Nat) (lid : BitVec 32)
  /-- QUANTUM_BOUNDARY (R81): At each quantum boundary every site with several unretired teams saves its resident team and restores or starts the next. -/
  | quantumBoundary (q : Nat) (lid : BitVec 32)
  /-- LINE_FILL (R113): A context needing an absent instruction-cache line starts a fill from the memory core of the line's channel. -/
  | lineFill (ag : AgentId)
  /-- FILL_ARRIVAL (R114): A returning line fill fills the cache line and the fetch buffers of its waiting contexts. -/
  | fillArrival (u : AgentId) (tenant : Nat) (line : BitVec 48)
  /-- SCHEDULE_SLIP (R116): A chosen context whose group extends into the next block spends its turn loading that block. -/
  | scheduleSlip (ag : AgentId)
  /-- LOAD_RETURN (R142): Data of a waiting load arrive and are written to the destination, or the load takes its returned fault. -/
  | loadReturn (ag : AgentId)
  /-- TRAP_DELIVERY (R474): At a group boundary the first deliverable pending trap is taken. -/
  | trapDelivery (ag : AgentId)
  /-- TVEC_WRITE (R152): A program-privilege write to TVEC takes effect only while TVEC is zero and otherwise raises PRIV. -/
  | tvecWrite (value : BitVec 32)
  /-- REGISTER_WRITE (R5): A write to a register without behaviour of its own sets its writable fields under R5 and R6. -/
  | registerWrite (reg : BitVec 12) (value : BitVec 32)
  /-- SEQUENCER_START (R256): The vector sequencer starts the oldest ready entry, replaying VLOOP bodies. -/
  | sequencerStart (core : AgentId)
  /-- CLAIM_GRANT (R252): The head claim of the cluster's claim queue is granted min(WANT, free lanes) once its minimum is free. -/
  | claimGrant (u : AgentId)
  /-- ARRAY_SERVICE (R311): When the array is free the arbiter serves the next core whose head command is ready. -/
  | arrayService (u : AgentId)
  /-- TILE_OPERATION (R314): A tile operation completes and writes C := C + A × B for its selected rows, ORing its flags into FPCSR. -/
  | tileOperation (u : AgentId)
  /-- MATRIX_COMMAND_START (R310): A matrix command that does not use the array starts when it reaches the head of its core's queue. -/
  | matrixCommandStart (core : AgentId)
  /-- RING_STEP (R300): When every ring member's queue is at a ring point, all latches move one position round the ring. -/
  | ringStep (u : AgentId)
  /-- SUBARRAY_GATE (R313): A sub-array idle for MGATE.IDLE cycles is power-gated. -/
  | subarrayGate (u : AgentId) (sub : BitVec 2)
  /-- MCHAIN_CANCEL (R325): A kernel write of MCHAIN.CANCEL = 1 while SUSP is 1 cancels the suspended matrix command. -/
  | mchainCancel
  /-- STORE_PERFORMED (R350): A home slice or memory core performs a posted store and sends its acknowledgment. -/
  | storePerformed (core : AgentId) (entry : BitVec 4)
  /-- STORE_ACK (R350): A slice's reply frees the store's journal entry. -/
  | storeAck (core : AgentId) (entry : BitVec 4)
  /-- STORE_REFUSAL (R351): A refused store's entry holds a refusal record and POSTED_REFUSED becomes pending. -/
  | storeRefusal (core : AgentId) (entry : BitVec 4)
  /-- JOURNAL_CLEAR (R352): A kernel write of JOURNAL with CLR = 1 clears a refusal record of the context and frees the entry. -/
  | journalClear (entry : BitVec 4)
  /-- TRANSLATION_REQUEST (R358): An STD to the translation port starts a translation with read or write intent. -/
  | translationRequest (write : Bool) (va : BitVec 48)
  /-- TRANSLATION_DONE (R358): A translation completes and the port holds the aperture address or a failure reason. -/
  | translationDone (ag : AgentId)
  /-- JOB_START (R365): The copy unit starts a submitted job in submission order, up to four at once. -/
  | jobStart (u : AgentId)
  /-- JOB_END (R363): A copy job ends and the copy unit writes its mailbox word as a release, waking WAITJ. -/
  | jobEnd (u : AgentId) (id : BitVec 16)
  /-- CONNECT_REQUEST (R386): A connection request arrives at the target endpoint and is refused, held, or matched with duality and reservation checks. -/
  | connectRequest (n : Nat)
  /-- CONNECT_OUTCOME (R385): The outcome of a connection arrives at the requesting register, completing its wait or recording PEND. -/
  | connectOutcome (n : Nat)
  /-- MESSAGE_ARRIVAL (R389): A channel message arrives at its destination endpoint, stub or waiting receive. -/
  | messageArrival (n : Nat)
  /-- CREDIT_FLIT (R387): A freed slot that no message follows within 64 cycles is returned by a credit flit. -/
  | creditFlit (ag : AgentId) (e : EReg)
  /-- CREDIT_ARRIVAL (R387): Returned credit reaches the sender and releases sends that wait for it. -/
  | creditArrival (n : Nat)
  /-- CLOSE_NOTICE (R397): A close notice arrives and the peer's register becomes CLOSED with the closing end's state and cause. -/
  | closeNotice (n : Nat)
  /-- MOVED (R396): The peer takes MOVED, addresses later messages to the new holder and sends RELEASE to the old location. -/
  | moved (n : Nat)
  /-- MOVED_AT_STUB (R395): A forwarding stub receives MOVED and learns the new holder's name. -/
  | movedAtStub (n : Nat)
  /-- RELEASE_NOTICE (R396): The forwarded RELEASE reaches the new holder, which then delivers the peer's direct messages. -/
  | releaseNotice (n : Nat)
  /-- TEAM_RESIDENT (R402): When a switched-out team is resident again, senders resend deferred messages in order. -/
  | teamResident (ag : AgentId)
  /-- CONTRIBUTION_APPLY (R406): The receive-accumulate unit applies a key-routed contribution's elements to the destination's bins. -/
  | contributionApply (n : Nat)
  /-- SIGNAL_DECIDED (R418): A signal's status becomes present or absent in the event tree and waiting tests decide. -/
  | signalDecided (dom : BitVec 10) (sig : BitVec 6)
  /-- CAUSALITY_CYCLE (R424): When no direct member runs and some wait on a signal, every waiter takes CAUSALITY_CYCLE. -/
  | causalityCycle (dom : BitVec 10)
  /-- INSTANT_END (R428): When every condition of R427 holds, the instant ends: flags merge, delay registers shift, signals reset and members resume. -/
  | instantEnd (dom : BitVec 10)
  /-- WATCHDOG_EXPIRY (R431): A domain watchdog reaching WDOG × 1,024 makes every running direct member take WATCHDOG. -/
  | watchdogExpiry (dom : BitVec 10)
  /-- DOM_WRITE (R415): A kernel write of a DOM register changes the context's domain membership. -/
  | domWrite (k : BitVec 2) (value : BitVec 32)
  /-- BELL_RING_ARRIVAL (R435): A ring arrives at its bell and increments COUNT, waking a waiter. -/
  | bellRingArrival (n : Nat)
  /-- BELLWAIT_LOAD (R435): A load of BELLWAIT takes one ring or clock-gates the context until one arrives. -/
  | bellwaitLoad (a : XReg) (bell : BitVec 5)
  /-- BELLCNT_STORE (R434): A store to BELLCNT sets the bell's COUNT. -/
  | bellcntStore (bell : BitVec 5) (value : BitVec 32)
  /-- BARCFG_STORE (R436): A store to BARCFG configures a barrier's word and participant count. -/
  | barcfgStore (bar : BitVec 4) (value : BitVec 32)
  /-- BARARR_LOAD (R436): A load of BARARR arrives at the barrier and waits until its generation changes. -/
  | bararrLoad (a : XReg) (bar : BitVec 4)
  /-- BARRIER_RELEASE (R436): A change of GEN in the barrier word releases the waiting participants. -/
  | barrierRelease (u : AgentId) (bar : BitVec 4)
  /-- MUTEX_LOAD (R437): A load of MUTEX acquires the mutex, reports ownership, or queues the context. -/
  | mutexLoad (a : XReg) (mutex : BitVec 4)
  /-- MUTEX_STORE (R437): A store to MUTEX by its owner releases it to the head waiter. -/
  | mutexStore (mutex : BitVec 4)
  /-- MONITOR_WAKE (R438): A write to a monitored scratchpad word wakes WAITEQ or WAITNE to retest. -/
  | monitorWake (ag : AgentId)
  /-- ACC_MERGE (R445): A router merges two matching accumulate messages and acknowledges the later one's owner. -/
  | accMerge (i j : Nat)
  /-- ACCUMULATE_ARRIVAL (R442): An accumulate arrives at its home slice and is applied, refused or dropped. -/
  | accumulateArrival (n : Nat)
  /-- QUOTA_WINDOW (R447): At each multiple of 2^QWX the slices start a new quota window. -/
  | quotaWindow (stack slice : Nat)
  /-- REFUSAL_RETURN (R449): A refused addend returns to its owner and enters, combines into or evicts its residual entry. -/
  | refusalReturn (n : Nat)
  /-- ACC_ACK (R443): An acknowledgment reaches the owner, lowers OUT and ORs the application's flags into FPCSR. -/
  | accAck (n : Nat)
  /-- RESIDUAL_AGEING (R452): A residual entry reaching AGE is sent as a must-accept message and cleared. -/
  | residualAgeing (ag : AgentId) (entry : BitVec 6)
  /-- REMOTE_ATOMIC (R461): A returning atomic executes at its home slice and sends the old value back. -/
  | remoteAtomic (ag : AgentId)
  /-- SWITCH_STOP (R477): At the stop time each context of a switch set stops at its next permitted boundary and work in progress settles. -/
  | switchStop (set : Nat)
  /-- SAVE (R481): The context save engine saves the switch set's state in order to the save area. -/
  | save (set : Nat)
  /-- RESTORE (R487): The save engine restores a switch set, re-injects spilled messages and reinstates lane grants. -/
  | restore (set : Nat)
  /-- SWITCH_RESUME (R487): At the resume time every context of the restored set restarts within 8 cycles. -/
  | switchResume (set : Nat)
  /-- QUEUE_TEARDOWN (R489): A write of GO tears down a host queue: entries are discarded and statuses assigned. -/
  | queueTeardown (q : Nat)
  /-- TEARDOWN_STOP (R491): At teardown time + 4,096 the queue's contexts stop without saving and their launches' records are written. -/
  | teardownStop (q : Nat)
  /-- FUNCTION_LEVEL_RESET (R527): An FLR of a function tears down its 16 queues and clears its function page and slot statuses. -/
  | functionLevelReset (func : Nat)
  /-- TRACE_UNFREEZE (R494): Clearing TRACESTAT.FROZEN clears TRIG'D and resumes trace recording. -/
  | traceUnfreeze
  /-- TRACEDAT3_READ (R494): A read of TRACEDAT3 returns word 3 and advances IDX. -/
  | tracedat3Read (a : XReg)
  /-- SLICE_TRACE_ENABLE (R543): Setting SLCCTL.EN from 0 to 1 clears the slice trace ring, HEAD and WRAP. -/
  | sliceTraceEnable (value : BitVec 32)
  /-- SLCDAT3_READ (R543): A read of SLCDAT3 returns word 3 of the slice trace entry and advances IDX. -/
  | slcdat3Read (a : XReg)
  /-- TLB_INVALIDATE (R544): A write of TLBINV.GO starts an invalidation of a page or all translations of a tenant. -/
  | tlbInvalidate (value : BitVec 32)
  /-- TLB_INVALIDATE_DONE (R544): When every memory core has reported and the tenant's accumulates are settled, BUSY clears. -/
  | tlbInvalidateDone (ag : AgentId)
  /-- ATTEST_REQUEST (R526): Writing REQ = 1 requests an attestation report over NONCE. -/
  | attestRequest (func : Nat)
  /-- ATTEST_REPORT_READY (R534): The trusted monitor writes the signed report, sets READY and raises vector 16. -/
  | attestReportReady (func : Nat)
  /-- HOST_BAR_READ (R525): A host read through BAR 2 or BAR 4 is performed, or completes with Unsupported Request. -/
  | hostBarRead (func bar off size : Nat)
  /-- HOST_BAR_WRITE (R525): A host write through BAR 2 or BAR 4 is performed or dropped and counted in ACCERR. `bar` is the BAR number, 8 more
  where the request has the Relaxed Ordering attribute (R473). -/
  | hostBarWrite (func bar off size : Nat) (value : BitVec 64)
  /-- LINK_FLIT_RECEIVE (R528): A port receives a link flit, checks its CRC and delivers its valid slots. -/
  | linkFlitReceive (port : Nat) (flit : List (BitVec 8))
  /-- LINK_REPLAY (R529): A sender receiving a NAK replays from the named flit. -/
  | linkReplay (port : Nat) (seq : BitVec 12)
  /-- ACK_TIMEOUT (R529): No acknowledgment for 10 µs makes the port retrain. -/
  | ackTimeout (port : Nat)
  /-- LINK_RETRAIN (R529): A port retrains after lane lock loss or four replays; traffic waits and the replay buffer is resent. -/
  | linkRetrain (port : Nat)
  /-- LINK_DOWN (R401): A port not retrained within 1 ms goes down and every channel crossing it closes with cause LINK. -/
  | linkDown (port : Nat)
  /-- LINK_UP (R529): Service firmware brings a down port up again. -/
  | linkUp (port : Nat)
  /-- POWER_ON_RESET (R535): Power and reset start the bring-up sequence. -/
  | powerOnReset
  /-- BOOT_STAGE (R535): Bring-up advances to its next stage, updating BOOTSTAT or stopping with ERR. -/
  | bootStage (err : BitVec 8)
  /-- POWER_THROTTLE (R536): Power above the limit over 1 ms inserts idle cycles between tile operations and vector entries. -/
  | powerThrottle (cycles : Nat)
  /-- THERMAL_THROTTLE (R537): A stack above 95 °C is throttled. -/
  | thermalThrottle (stack cycles : Nat)
  /-- THERMAL_SHUTDOWN (R537): At 110 °C the module reports, stops every context and holds in reset. -/
  | thermalShutdown (stack : Nat)
  /-- TELEMETRY_UPDATE (R538): Service firmware updates the telemetry views every 1 ms. -/
  | telemetryUpdate
  /-- MACHINE_REPORT (R539): A machine report is written to the service core's ring and vector 17 raised, or dropped with LOST. -/
  | machineReport
  /-- TAP_RESET (R541): TRST resets the test access port. -/
  | tapReset
  /-- BYPASS (R541): The BYPASS instruction selects the one-bit bypass register. -/
  | bypass
  /-- IDCODE (R541): The IDCODE instruction selects the 32-bit identification register. -/
  | idcode
  /-- SAMPLE (R541): SAMPLE captures the boundary register. -/
  | sample
  /-- EXTEST (R541): EXTEST drives the boundary register onto its pins. -/
  | extest
  /-- DBG_READ (R542): A DBGCMD read reads a register of a halted context as SRR at kernel privilege. -/
  | dbgRead (ctx : Nat) (space : BitVec 2) (num : BitVec 12)
  /-- DBG_WRITE (R542): A DBGCMD write writes a register of a halted context as SRW at kernel privilege. -/
  | dbgWrite (ctx : Nat) (space : BitVec 2) (num : BitVec 12) (data : BitVec 32)
  /-- HALTREQ (R542): Control 0 halts the target context at its next group boundary. -/
  | haltreq (ctx : Nat)
  /-- DBG_RESUME (R542): Control 1 resumes a context halted by HALT or HALTREQ. -/
  | dbgResume (ctx : Nat)
  /-- DBG_STATUS (R542): Control 2 returns the halted, INTRAP and not-started bits of the context. -/
  | dbgStatus (ctx : Nat)
  /-- HOST_QUEUE_CREATE (R48): The trusted monitor creates a host queue and binds it to a service core for its tenant. -/
  | hostQueueCreate (q svc : Nat)
  /-- PARTITION_CHANGE (R532): The trusted monitor changes a tenant's partition entry, zeroing and reassigning clusters, slice ranges, DRAM rows, bindings and domain-ID ranges. -/
  | partitionChange (tenant : Nat) (p : Partition)
  /-- SWITCH_SCHEDULE (R476): The trusted monitor sets the stop time and resume time of a partition switch, which contexts then read in SWITCHAT. -/
  | switchSchedule (tenant : Nat) (stop resume : BitVec 64)
  /-- RETRAIN_COMPLETE (R529): A retraining port restores all four lanes, held traffic resumes and the replay buffer is resent with duplicates discarded by SEQ. -/
  | retrainComplete (port : Nat)
  /-- SOFT_ERROR (R371): A word of a memory gains a single-bit or an uncorrectable error, which it keeps until it is corrected or written whole. -/
  | softError (addr : Nat) (double : Bool)
  deriving DecidableEq, Repr

end Sys2Proof
end

