-- ==== Sys2Proof/WellFormed.lean ====
section
/-!
DEFINITION. WellFormed.lean: which instructions have an encoding (04 R89, R93-R97, R108; 10 R270), and which events
name agents and units that the module has (01 R11-R17).
-/
namespace Sys2Proof

/-- The numbers of an agent lie within the module (01 R11-R17, R23). -/
def AgentId.wf : AgentId → Bool
  | .core s c k x => s < 16 && c < 1280 && k < 8 && x < 4
  | .copyUnit s c => s < 16 && c < 1280
  | .saveEngine s => s < 16
  | .secureCore => true
  | .memoryCore s c => s < 16 && c < 64
  | .serviceCore s q => s < 16 && q < 4
  | .linkEngine s p => s < 16 && p < 4

namespace Wf

/-- A register number that needs no AH or BH bit (04 R92). -/
def low (r : BitVec 5) : Bool := r.toNat < 16

/-- Not both low register fields are zero: the base word of function 0 of primary 0 is then not 0x0000, which is
ILLEGAL on every page (04 R89). -/
def base (a b : Nat) : Bool := !(a % 16 == 0 && b % 16 == 0)

/-- A value that `n` PFI words before a base immediate of `bw` bits can represent (04 R97). -/
def fits (signed : Bool) (bw n : Nat) (v : BitVec 32) : Bool :=
  let w := bw + 11 * n
  w ≥ 32 ||
    (if signed then (w == 0 && v == 0) || (w != 0 && (v.toNat < 2 ^ (w - 1) || v.toNat + 2 ^ (w - 1) ≥ 2 ^ 32))
     else v.toNat < 2 ^ w)

/-- The number of PFI words left to a group of at most four prefixes (04 R91). -/
def room (pfp pfr : Bool) : Nat := 4 - (bit pfp + bit pfr)

/-- Class S of 10 R270: masked-off elements stay undisturbed. -/
def classS (m : VMask) : Bool := !m.mpol

/-- Class X of 10 R270: only the mask selects. -/
def classX (m : VMask) : Bool := !m.mpol && !m.tpol

/-- A mask is required (10 R274, R283). -/
def masked (m : VMask) : Bool := m.msel != 0

/-- A group of a row with an optional c holds no PFR when c is absent (04 R93). -/
def noPfr (c : Option (BitVec 5)) (a b : BitVec 5) (m : VMask) : Bool :=
  c.isSome || (low a && low b && m == .plain)

end Wf

open Wf in
/-- An instruction some group of words encodes, or an event of an agent and unit of the module. -/
def Instr.wf : Instr → Bool
  | .add a b c => base a.toNat b.toNat && noPfr c a b .plain
  | .sub a b c => noPfr c a b .plain
  | .andX a b c => noPfr c a b .plain
  | .orX a b c => noPfr c a b .plain
  | .xorX a b c => noPfr c a b .plain
  | .sll a b c => noPfr c a b .plain
  | .srl a b c => noPfr c a b .plain
  | .sra a b c => noPfr c a b .plain
  | .mul a b c => noPfr c a b .plain
  | .mulh a b c => noPfr c a b .plain
  | .mulhn a b c => noPfr c a b .plain
  | .div a b c => noPfr c a b .plain
  | .divn a b c => noPfr c a b .plain
  | .rem a b c => noPfr c a b .plain
  | .remn a b c => noPfr c a b .plain
  | .gcd a b c => noPfr c a b .plain
  | .minX a b c => noPfr c a b .plain
  | .maxX a b c => noPfr c a b .plain
  | .minn a b c => noPfr c a b .plain
  | .maxn a b c => noPfr c a b .plain
  | .andn a b c => noPfr c a b .plain
  | .orn a b c => noPfr c a b .plain
  | .rol a b c => noPfr c a b .plain
  | .ror a b c => noPfr c a b .plain
  | .mov _ _ => true
  | .neg _ _ => true
  | .notX _ _ => true
  | .clz _ _ => true
  | .ctz _ _ => true
  | .popc _ _ => true
  | .sextb _ _ => true
  | .sexth _ _ => true
  | .ceq _ _ => true
  | .cne _ _ => true
  | .clt _ _ => true
  | .cge _ _ => true
  | .cltn _ _ => true
  | .cgen _ _ => true
  | .tst _ _ => true
  | .movt _ => true
  | .addi a imm => fits true 7 (room false (!low a)) imm
  | .li a imm => fits true 7 (room false (!low a)) imm
  | .andi a imm => fits true 7 (room false (!low a)) imm
  | .ori a imm => fits false 7 (room false (!low a)) imm
  | .xori a imm => fits false 7 (room false (!low a)) imm
  | .ceqi a imm => fits true 7 (room false (!low a)) imm
  | .clti a imm => fits true 7 (room false (!low a)) imm
  | .shi _ _ _ => true
  | .ldw a b imm => fits true 3 (room false (!low a || !low b)) imm
  | .stw a b imm => fits true 3 (room false (!low a || !low b)) imm
  | .ldb a b imm => fits true 0 (room false (!low a || !low b)) imm
  | .ldbn a b imm => fits true 0 (room false (!low a || !low b)) imm
  | .ldh a b imm => fits true 0 (room false (!low a || !low b)) imm
  | .ldhn a b imm => fits true 0 (room false (!low a || !low b)) imm
  | .ldf a b imm => fits true 0 (room false (!low a || !low b)) imm
  | .ldd a b imm => fits true 0 (room false (!low a || !low b)) imm && a.toNat % 2 == 0
  | .stb a b imm => fits true 0 (room false (!low a || !low b)) imm
  | .sth a b imm => fits true 0 (room false (!low a || !low b)) imm
  | .stf a b imm => fits true 0 (room false (!low a || !low b)) imm
  | .std a b imm => fits true 0 (room false (!low a || !low b)) imm && a.toNat % 2 == 0
  | .bf imm => fits true 10 (room false false) imm
  | .bt imm => fits true 10 (room false false) imm
  | .jmp imm => fits true 11 (room false false) imm
  | .jal imm => fits true 11 (room false false) imm
  | .jr b imm => fits true 0 (room false (!low b)) imm
  | .jalr a b imm => fits true 0 (room false (!low a || !low b)) imm
  | .loop _ _ => true
  | .srd _ _ => true
  | .swr _ _ => true
  | .srdf _ _ => true
  | .swrf _ _ => true
  | .endCtx => true
  | .endFail => true
  | .yield => true
  | .spawn _ _ => true
  | .trap _ => true
  | .eret => true
  | .nop => true
  | .srr _ _ => true
  | .srw _ _ => true
  | .pca a imm => fits true 7 (room false (!low a)) imm
  | .ipref imm => fits true 11 (room false false) imm
  | .fadd a b c => base a.toNat b.toNat && noPfr c a b .plain
  | .fsub a b c => noPfr c a b .plain
  | .fmul a b c => noPfr c a b .plain
  | .fdiv a b c => noPfr c a b .plain
  | .fmin a b c => noPfr c a b .plain
  | .fmax a b c => noPfr c a b .plain
  | .fma _ _ _ => true
  | .fms _ _ _ => true
  | .fnma _ _ _ => true
  | .fnms _ _ _ => true
  | .fsqrt _ _ => true
  | .fneg _ _ => true
  | .fabs _ _ => true
  | .fmov _ _ => true
  | .feq _ _ => true
  | .flt _ _ => true
  | .fle _ _ => true
  | .funord _ _ => true
  | .fclass _ _ => true
  | .fcvtI32 _ _ => true
  | .fcvtN32 _ _ => true
  | .fmvX _ _ => true
  | .fcvtBf16 _ _ => true
  | .fcvtE4m3 _ _ => true
  | .fcvtE5m2 _ _ => true
  | .fcvtBf16Sat _ _ => true
  | .fcvtE4m3Sat _ _ => true
  | .fcvtE5m2Sat _ _ => true
  | .fcvtfI32 _ _ => true
  | .fcvtfN32 _ _ => true
  | .fmvF _ _ => true
  | .fcvtfBf16 _ _ => true
  | .fcvtfE4m3 _ _ => true
  | .fcvtfE5m2 _ _ => true
  | .fld a b imm => fits true 3 (room true (!low a || !low b)) imm
  | .fst a b imm => fits true 3 (room true (!low a || !low b)) imm
  | .smk _ _ _ => true
  | .snum _ _ => true
  | .sden _ _ => true
  | .sbnd _ _ => true
  | .smed a b c => noPfr c a b .plain
  | .srec _ _ => true
  | .scvtf _ _ => true
  | .fcvts _ _ => true
  | .vaddI a b c m => base a.toNat b.toNat && noPfr c a b m
  | .vsubI a b c m => noPfr c a b m
  | .vmulI a b c m => noPfr c a b m
  | .vminI a b c m => noPfr c a b m
  | .vmaxI a b c m => noPfr c a b m
  | .vand a b c m => noPfr c a b m
  | .vor a b c m => noPfr c a b m
  | .vxor a b c m => noPfr c a b m
  | .vsll a b c m => base a.toNat b.toNat && noPfr c a b m
  | .vsrl a b c m => noPfr c a b m
  | .vsra a b c m => noPfr c a b m
  | .vaddsI a b c m => noPfr c a b m
  | .vsubsI a b c m => noPfr c a b m
  | .vaddF a b c m => noPfr c a b m
  | .vsubF a b c m => noPfr c a b m
  | .vmulF a b c m => noPfr c a b m
  | .vdivF a b c m => noPfr c a b m
  | .vminF a b c m => noPfr c a b m
  | .vmaxF a b c m => noPfr c a b m
  | .vfma _ _ _ _ => true
  | .vfms _ _ _ _ => true
  | .vsel _ _ _ m => classS m && masked m
  | .vceqI a b c m => noPfr c a b m
  | .vcltI a b c m => noPfr c a b m
  | .vcltnI a b c m => noPfr c a b m
  | .vceqF a b c m => noPfr c a b m
  | .vcltF a b c m => noPfr c a b m
  | .vcleF a b c m => noPfr c a b m
  | .vcunF a b c m => noPfr c a b m
  | .vcvtFI _ _ _ => true
  | .vcvtIF _ _ _ => true
  | .vcvtBf16F _ _ _ => true
  | .vcvtFBf16 _ _ _ => true
  | .vcvtE4m3F _ _ _ => true
  | .vcvtE5m2F _ _ _ => true
  | .vcvtFE4m3 _ _ _ => true
  | .vcvtFE5m2 _ _ _ => true
  | .vcvtBf16FSat _ _ _ => true
  | .vcvtE4m3FSat _ _ _ => true
  | .vcvtE5m2FSat _ _ _ => true
  | .vaddFs _ _ _ _ => true
  | .vmulFs _ _ _ _ => true
  | .vfmaFs _ _ _ _ => true
  | .vbcastX _ _ _ => true
  | .vbcastF _ _ _ => true
  | .viota _ _ => true
  | .vextX _ _ _ => true
  | .vinsX _ _ _ => true
  | .vld a b imm m => base a.toNat b.toNat && fits true 0 (room true (!low a || !low b || m != .plain)) imm
  | .vst a b imm m => fits true 0 (room true (!low a || !low b || m != .plain)) imm && classX m
  | .vlds a b c imm m => fits true 0 (room true (!low a || !low b || c != 0 || m != .plain)) imm
  | .vsts a b c imm m => fits true 0 (room true (!low a || !low b || c != 0 || m != .plain)) imm && classX m
  | .vldb a b imm m => fits true 0 (room true (!low a || !low b || m != .plain)) imm
  | .vldx _ _ _ imm m => fits true 0 (room true (true || m != .plain)) imm
  | .vstx _ _ _ imm m => fits true 0 (room true (true || m != .plain)) imm && classX m
  | .vperm a b c m => noPfr c a b m
  | .vzip a b c m => noPfr c a b m
  | .vunzip a b c m => noPfr c a b m
  | .vrev _ _ _ => true
  | .vslideup _ _ _ _ => true
  | .vslidedn _ _ _ _ => true
  | .vcompress _ _ m => classS m && masked m
  | .vexpand _ _ m => masked m
  | .vredaddF _ _ m => classX m
  | .vredmaxF _ _ m => classX m
  | .vredminF _ _ m => classX m
  | .vredaddI _ _ m => classX m
  | .vredmaxI _ _ m => classX m
  | .vredminI _ _ m => classX m
  | .vpopc _ _ m => classX m
  | .vfirst _ _ m => classX m
  | .vclaim _ _ => true
  | .vyield => true
  | .vloop _ _ => true
  | .vsetvl _ _ => true
  | .vsync => true
  | .vexp _ _ _ => true
  | .vlog _ _ _ => true
  | .vrcp _ _ _ => true
  | .vrsqrt _ _ _ => true
  | .vtanh _ _ _ => true
  | .vsigm _ _ _ => true
  | .vtopk _ _ _ m => classS m
  | .vtnorm _ _ _ => true
  | .vquant _ _ _ => true
  | .vdequant _ _ _ => true
  | .mma a b => base a.toNat b.toNat
  | .mmar a b imm => fits false 0 (room true (!low a || !low b)) imm && 1 ≤ imm.toNat && imm.toNat ≤ 255
  | .mlatb _ => true
  | .mring => true
  | .mwait => true
  | .msync => true
  | .mzero _ => true
  | .mcswap => true
  | .mcrd _ _ => true
  | .mcwr _ _ => true
  | .mquant _ _ => true
  | .msatrd _ _ => true
  | .lda a b imm => base a.toNat b.toNat && fits true 0 (room true (!low a || !low b)) imm
  | .stl a b imm => fits true 0 (room true (!low a || !low b)) imm
  | .fence scope kinds => scope.toNat ≤ 5 && kinds != 0
  | .jdrain => true
  | .aadd _ _ _ => true
  | .faddb _ _ c => c.toNat != 31
  | .incw _ _ _ => true
  | .aswap _ _ _ => true
  | .acas _ _ c => c.toNat != 31
  | .aand _ _ _ => true
  | .aor _ _ _ => true
  | .amax _ _ _ => true
  | .accI _ _ => true
  | .accF _ _ => true
  | .accsq _ _ => true
  | .flushr => true
  | .job _ _ => true
  | .pollj _ => true
  | .waitj _ => true
  | .aload a b => base a.toNat b.toNat
  | .afree _ => true
  | .alahead _ _ => true
  | .connect _ _ _ => true
  | .accept _ _ _ => true
  | .epname _ _ => true
  | .estat _ _ => true
  | .epset _ _ => true
  | .epmod _ _ => true
  | .close _ => true
  | .send _ b imm => fits true 0 (room true (!low b)) imm
  | .recv _ b imm => fits true 0 (room true (!low b)) imm
  | .sendv _ _ => true
  | .recvv _ _ => true
  | .sendx _ _ => true
  | .recvx _ _ => true
  | .select _ _ => true
  | .offer _ _ => true
  | .dsend a b => a != b
  | .drecv _ _ => true
  | .sbind _ _ => true
  | .sbinda _ _ => true
  | .sunbind _ => true
  | .vksend _ _ _ => true
  | .raucfg _ _ => true
  | .emit a sig => !(a.toNat % 16 == 0 && sig == 0)
  | .noemit _ => true
  | .absb _ imm => fits true 10 (room true false) imm
  | .pres _ imm => fits true 10 (room true false) imm
  | .sval _ _ => true
  | .pause => true
  | .pauseUp => true
  | .domnew _ _ => true
  | .domfree _ => true
  | .dlyw _ _ => true
  | .dlyr _ _ => true
  | .waiteq _ _ => true
  | .waitne _ _ => true
  | .bell _ => true
  | .brk code => code != 0
  | .tracem _ => true
  | .trig => true
  | .icinv _ => true
  | .icinva => true
  | .winset _ _ => true
  | .winget _ _ => true
  | .halt => true
  | .scrub _ => true
  | .sqTailDoorbell q _ => q < 1024
  | .amBell q _ => q < 1024
  | .activeMessage svc => svc < 64
  | .launch q => q < 1024
  | .template q => q < 1024
  | .loader q => q < 1024
  | .loaderStop q => q < 1024
  | .launchEligible q _ => q < 1024
  | .advertisement stack tenant => stack < 16 && tenant < 64
  | .batch => true
  | .teamPlacement stack => stack < 16
  | .teamLoadComplete q _ _ => q < 1024
  | .completionRecord q _ => q < 1024
  | .msixUnmask func vector => func < 64 && vector < 32
  | .recordConsume q _ => q < 1024
  | .producerComplete q _ => q < 1024
  | .swapStart q _ => q < 1024
  | .quantumBoundary q _ => q < 1024
  | .lineFill ag => ag.wf
  | .fillArrival u tenant _ => u.wf && tenant < 64
  | .scheduleSlip ag => ag.wf
  | .loadReturn ag => ag.wf
  | .trapDelivery ag => ag.wf
  | .tvecWrite _ => true
  | .registerWrite _ _ => true
  | .sequencerStart core => core.wf
  | .claimGrant u => u.wf
  | .arrayService u => u.wf
  | .tileOperation u => u.wf
  | .matrixCommandStart core => core.wf
  | .ringStep u => u.wf
  | .subarrayGate u _ => u.wf
  | .mchainCancel => true
  | .storePerformed core _ => core.wf
  | .storeAck core _ => core.wf
  | .storeRefusal core _ => core.wf
  | .journalClear _ => true
  | .translationRequest _ _ => true
  | .translationDone ag => ag.wf
  | .jobStart u => u.wf
  | .jobEnd u _ => u.wf
  | .connectRequest _ => true
  | .connectOutcome _ => true
  | .messageArrival _ => true
  | .creditFlit ag _ => ag.wf
  | .creditArrival _ => true
  | .closeNotice _ => true
  | .moved _ => true
  | .movedAtStub _ => true
  | .releaseNotice _ => true
  | .teamResident ag => ag.wf
  | .contributionApply _ => true
  | .signalDecided _ _ => true
  | .causalityCycle _ => true
  | .instantEnd _ => true
  | .watchdogExpiry _ => true
  | .domWrite _ _ => true
  | .bellRingArrival _ => true
  | .bellwaitLoad _ _ => true
  | .bellcntStore _ _ => true
  | .barcfgStore _ _ => true
  | .bararrLoad _ _ => true
  | .barrierRelease u _ => u.wf
  | .mutexLoad _ _ => true
  | .mutexStore _ => true
  | .monitorWake ag => ag.wf
  | .accMerge _ _ => true
  | .accumulateArrival _ => true
  | .quotaWindow stack slice => stack < 16 && slice < 64
  | .refusalReturn _ => true
  | .accAck _ => true
  | .residualAgeing ag _ => ag.wf
  | .remoteAtomic ag => ag.wf
  | .switchStop set => set < 64
  | .save set => set < 64
  | .restore set => set < 64
  | .switchResume set => set < 64
  | .queueTeardown q => q < 1024
  | .teardownStop q => q < 1024
  | .functionLevelReset func => func < 64
  | .traceUnfreeze => true
  | .tracedat3Read _ => true
  | .sliceTraceEnable _ => true
  | .slcdat3Read _ => true
  | .tlbInvalidate _ => true
  | .tlbInvalidateDone ag => ag.wf
  | .attestRequest func => func < 64
  | .attestReportReady func => func < 64
  | .hostBarRead func bar _ size => func < 64 && (bar == 0 || bar == 2 || bar == 4) && (size == 1 || size == 2 || size == 4 || size == 8)
  | .hostBarWrite func bar _ size _ =>
    func < 64 && (bar % 8 == 0 || bar % 8 == 2 || bar % 8 == 4) && bar < 16 && (size == 1 || size == 2 || size == 4 || size == 8)
  | .linkFlitReceive port flit => port < 64 && flit.length == 256
  | .linkReplay port _ => port < 64
  | .ackTimeout port => port < 64
  | .linkRetrain port => port < 64
  | .linkDown port => port < 64
  | .linkUp port => port < 64
  | .powerOnReset => true
  | .bootStage _ => true
  | .powerThrottle _ => true
  | .thermalThrottle stack _ => stack < 16
  | .thermalShutdown stack => stack < 16
  | .telemetryUpdate => true
  | .machineReport => true
  | .tapReset => true
  | .bypass => true
  | .idcode => true
  | .sample => true
  | .extest => true
  | .dbgRead ctx _ _ => ctx < 655360
  | .dbgWrite ctx _ _ _ => ctx < 655360
  | .haltreq ctx => ctx < 655360
  | .dbgResume ctx => ctx < 655360
  | .dbgStatus ctx => ctx < 655360
  | .hostQueueCreate q svc => q < 1024 && svc < 64
  | .partitionChange tenant _ => tenant < 64
  | .switchSchedule tenant _ _ => tenant < 64
  | .retrainComplete port => port < 64
  | .softError _ _ => true

end Sys2Proof
end

