-- ==== Sys2Proof/Decode.lean ====
section
/-!
DEFINITION. Decode.lean: instruction groups of 16-bit words to instructions (04 R86-R111), total on any words and
rejecting with the reason of R101, and the encoder that writes a group as nasen-as writes it (04, 05 R122, R124).
-/
namespace Sys2Proof

/-- The base formats (04 R88). -/
inductive Fmt where
  | rr | rr0 | ri | rri | b | j | bs
  deriving DecidableEq, Repr

/-- What a register field names: nothing (the field must be zero), a register file, or a 4-bit code (04 R93, R94). -/
inductive Kind where
  | dot | x | f | v | e | s | d | code
  deriving DecidableEq, Repr

/-- The use of the third register c: none, optional, required, or zero when there is no PFR (04 R93; 10 R271). -/
inductive CUse where
  | none | opt | req | dflt
  deriving DecidableEq, Repr

/-- The Imm column: none, signed, zero-extended, sub-fields (04 R102). -/
inductive ImmUse where
  | none | s | z | fld
  deriving DecidableEq, Repr

/-- The mask class of a vector instruction (10 R270), with the requirements of VSEL, VCOMPRESS and VEXPAND
(10 R274, R283). -/
inductive MaskClass where
  | none | m | s | x | vsel | vcompress | vexpand
  deriving DecidableEq, Repr

/-- The fields of a group. `c` is present when the group has a PFR; `low` is the base immediate. -/
structure Operands where
  a : BitVec 5
  b : BitVec 5
  c : Option (BitVec 5)
  imm : BitVec 32
  low : BitVec 7
  m : VMask
  sig : BitVec 6
  deriving DecidableEq, Repr

/-- One function of the opcode map. `make` gives the instruction, or none where an operand lies outside its stated
limit (reason 0x9). -/
structure Row where
  fmt : Fmt
  a : Kind
  b : Kind
  c : CUse
  imm : ImmUse
  cls : MaskClass
  make : Operands → Option Instr

/-- What decoding answers: an instruction with its length in words, page and base word; the failure of R101 with
its reason, position, word and page; or that the words ended before a base word. -/
inductive Decoded where
  | ok (i : Instr) (len : Nat) (page : BitVec 4) (base : HWord)
  | illegal (reason : BitVec 4) (pos : Nat) (word : HWord) (page : BitVec 4)
  | more
  deriving DecidableEq, Repr

namespace Opcode


/-- Page 0 of the opcode map (04 R103): the row of a primary opcode and a function value (for B and BS words the
sense bit; 0 for the other formats without a function). -/
def page0 (prim F : Nat) : Option Row :=
  match prim with
  | 0 =>
    match F with
    | 0 => some ⟨.rr, .x, .x, .opt, .none, .none, fun o => some (.add o.a o.b o.c)⟩
    | 1 => some ⟨.rr, .x, .x, .opt, .none, .none, fun o => some (.sub o.a o.b o.c)⟩
    | 2 => some ⟨.rr, .x, .x, .opt, .none, .none, fun o => some (.andX o.a o.b o.c)⟩
    | 3 => some ⟨.rr, .x, .x, .opt, .none, .none, fun o => some (.orX o.a o.b o.c)⟩
    | 4 => some ⟨.rr, .x, .x, .opt, .none, .none, fun o => some (.xorX o.a o.b o.c)⟩
    | 5 => some ⟨.rr, .x, .x, .opt, .none, .none, fun o => some (.sll o.a o.b o.c)⟩
    | 6 => some ⟨.rr, .x, .x, .opt, .none, .none, fun o => some (.srl o.a o.b o.c)⟩
    | 7 => some ⟨.rr, .x, .x, .opt, .none, .none, fun o => some (.sra o.a o.b o.c)⟩
    | _ => none
  | 1 =>
    match F with
    | 0 => some ⟨.rr, .x, .x, .opt, .none, .none, fun o => some (.mul o.a o.b o.c)⟩
    | 1 => some ⟨.rr, .x, .x, .opt, .none, .none, fun o => some (.mulh o.a o.b o.c)⟩
    | 2 => some ⟨.rr, .x, .x, .opt, .none, .none, fun o => some (.mulhn o.a o.b o.c)⟩
    | 3 => some ⟨.rr, .x, .x, .opt, .none, .none, fun o => some (.div o.a o.b o.c)⟩
    | 4 => some ⟨.rr, .x, .x, .opt, .none, .none, fun o => some (.divn o.a o.b o.c)⟩
    | 5 => some ⟨.rr, .x, .x, .opt, .none, .none, fun o => some (.rem o.a o.b o.c)⟩
    | 6 => some ⟨.rr, .x, .x, .opt, .none, .none, fun o => some (.remn o.a o.b o.c)⟩
    | 7 => some ⟨.rr, .x, .x, .opt, .none, .none, fun o => some (.gcd o.a o.b o.c)⟩
    | _ => none
  | 2 =>
    match F with
    | 0 => some ⟨.rr, .x, .x, .opt, .none, .none, fun o => some (.minX o.a o.b o.c)⟩
    | 1 => some ⟨.rr, .x, .x, .opt, .none, .none, fun o => some (.maxX o.a o.b o.c)⟩
    | 2 => some ⟨.rr, .x, .x, .opt, .none, .none, fun o => some (.minn o.a o.b o.c)⟩
    | 3 => some ⟨.rr, .x, .x, .opt, .none, .none, fun o => some (.maxn o.a o.b o.c)⟩
    | 4 => some ⟨.rr, .x, .x, .opt, .none, .none, fun o => some (.andn o.a o.b o.c)⟩
    | 5 => some ⟨.rr, .x, .x, .opt, .none, .none, fun o => some (.orn o.a o.b o.c)⟩
    | 6 => some ⟨.rr, .x, .x, .opt, .none, .none, fun o => some (.rol o.a o.b o.c)⟩
    | 7 => some ⟨.rr, .x, .x, .opt, .none, .none, fun o => some (.ror o.a o.b o.c)⟩
    | _ => none
  | 3 =>
    match F with
    | 0 => some ⟨.rr, .x, .x, .none, .none, .none, fun o => some (.mov o.a o.b)⟩
    | 1 => some ⟨.rr, .x, .x, .none, .none, .none, fun o => some (.neg o.a o.b)⟩
    | 2 => some ⟨.rr, .x, .x, .none, .none, .none, fun o => some (.notX o.a o.b)⟩
    | 3 => some ⟨.rr, .x, .x, .none, .none, .none, fun o => some (.clz o.a o.b)⟩
    | 4 => some ⟨.rr, .x, .x, .none, .none, .none, fun o => some (.ctz o.a o.b)⟩
    | 5 => some ⟨.rr, .x, .x, .none, .none, .none, fun o => some (.popc o.a o.b)⟩
    | 6 => some ⟨.rr, .x, .x, .none, .none, .none, fun o => some (.sextb o.a o.b)⟩
    | 7 => some ⟨.rr, .x, .x, .none, .none, .none, fun o => some (.sexth o.a o.b)⟩
    | _ => none
  | 4 =>
    match F with
    | 0 => some ⟨.rr, .x, .x, .none, .none, .none, fun o => some (.ceq o.a o.b)⟩
    | 1 => some ⟨.rr, .x, .x, .none, .none, .none, fun o => some (.cne o.a o.b)⟩
    | 2 => some ⟨.rr, .x, .x, .none, .none, .none, fun o => some (.clt o.a o.b)⟩
    | 3 => some ⟨.rr, .x, .x, .none, .none, .none, fun o => some (.cge o.a o.b)⟩
    | 4 => some ⟨.rr, .x, .x, .none, .none, .none, fun o => some (.cltn o.a o.b)⟩
    | 5 => some ⟨.rr, .x, .x, .none, .none, .none, fun o => some (.cgen o.a o.b)⟩
    | 6 => some ⟨.rr, .x, .x, .none, .none, .none, fun o => some (.tst o.a o.b)⟩
    | 7 => some ⟨.rr, .x, .dot, .none, .none, .none, fun o => some (.movt o.a)⟩
    | _ => none
  | 5 =>
    match F with
    | 0 => some ⟨.ri, .x, .dot, .none, .s, .none, fun o => some (.addi o.a o.imm)⟩
    | _ => none
  | 6 =>
    match F with
    | 0 => some ⟨.ri, .x, .dot, .none, .s, .none, fun o => some (.li o.a o.imm)⟩
    | _ => none
  | 7 =>
    match F with
    | 0 => some ⟨.ri, .x, .dot, .none, .s, .none, fun o => some (.andi o.a o.imm)⟩
    | _ => none
  | 8 =>
    match F with
    | 0 => some ⟨.ri, .x, .dot, .none, .z, .none, fun o => some (.ori o.a o.imm)⟩
    | _ => none
  | 9 =>
    match F with
    | 0 => some ⟨.ri, .x, .dot, .none, .z, .none, fun o => some (.xori o.a o.imm)⟩
    | _ => none
  | 10 =>
    match F with
    | 0 => some ⟨.ri, .x, .dot, .none, .s, .none, fun o => some (.ceqi o.a o.imm)⟩
    | _ => none
  | 11 =>
    match F with
    | 0 => some ⟨.ri, .x, .dot, .none, .s, .none, fun o => some (.clti o.a o.imm)⟩
    | _ => none
  | 12 =>
    match F with
    | 0 => some ⟨.ri, .x, .dot, .none, .fld, .none, fun o => some (.shi o.a (o.low.extractLsb' 5 2) (o.low.setWidth 5))⟩
    | _ => none
  | 13 =>
    match F with
    | 0 => some ⟨.rri, .x, .x, .none, .s, .none, fun o => some (.ldw o.a o.b o.imm)⟩
    | _ => none
  | 14 =>
    match F with
    | 0 => some ⟨.rri, .x, .x, .none, .s, .none, fun o => some (.stw o.a o.b o.imm)⟩
    | _ => none
  | 15 =>
    match F with
    | 0 => some ⟨.rr0, .x, .x, .none, .s, .none, fun o => some (.ldb o.a o.b o.imm)⟩
    | 1 => some ⟨.rr0, .x, .x, .none, .s, .none, fun o => some (.ldbn o.a o.b o.imm)⟩
    | 2 => some ⟨.rr0, .x, .x, .none, .s, .none, fun o => some (.ldh o.a o.b o.imm)⟩
    | 3 => some ⟨.rr0, .x, .x, .none, .s, .none, fun o => some (.ldhn o.a o.b o.imm)⟩
    | 4 => some ⟨.rr0, .f, .x, .none, .s, .none, fun o => some (.ldf o.a o.b o.imm)⟩
    | 5 => some ⟨.rr0, .x, .x, .none, .s, .none, fun o => if o.a.toNat % 2 = 0 then some (.ldd o.a o.b o.imm) else none⟩
    | _ => none
  | 16 =>
    match F with
    | 0 => some ⟨.rr0, .x, .x, .none, .s, .none, fun o => some (.stb o.a o.b o.imm)⟩
    | 2 => some ⟨.rr0, .x, .x, .none, .s, .none, fun o => some (.sth o.a o.b o.imm)⟩
    | 4 => some ⟨.rr0, .f, .x, .none, .s, .none, fun o => some (.stf o.a o.b o.imm)⟩
    | 5 => some ⟨.rr0, .x, .x, .none, .s, .none, fun o => if o.a.toNat % 2 = 0 then some (.std o.a o.b o.imm) else none⟩
    | _ => none
  | 17 =>
    match F with
    | 0 => some ⟨.b, .dot, .dot, .none, .s, .none, fun o => some (.bf o.imm)⟩
    | 1 => some ⟨.b, .dot, .dot, .none, .s, .none, fun o => some (.bt o.imm)⟩
    | _ => none
  | 18 =>
    match F with
    | 0 => some ⟨.j, .dot, .dot, .none, .s, .none, fun o => some (.jmp o.imm)⟩
    | _ => none
  | 19 =>
    match F with
    | 0 => some ⟨.j, .dot, .dot, .none, .s, .none, fun o => some (.jal o.imm)⟩
    | _ => none
  | 20 =>
    match F with
    | 0 => some ⟨.rr0, .dot, .x, .none, .s, .none, fun o => some (.jr o.b o.imm)⟩
    | 1 => some ⟨.rr0, .x, .x, .none, .s, .none, fun o => some (.jalr o.a o.b o.imm)⟩
    | _ => none
  | 21 =>
    match F with
    | 0 => some ⟨.ri, .x, .dot, .none, .fld, .none, fun o => if o.low.toNat < 16 then some (.loop o.a (o.low.setWidth 4)) else none⟩
    | _ => none
  | 22 =>
    match F with
    | 0 => some ⟨.rr, .x, .s, .none, .none, .none, fun o => some (.srd o.a (o.b.setWidth 2))⟩
    | 1 => some ⟨.rr, .x, .s, .none, .none, .none, fun o => some (.swr o.a (o.b.setWidth 2))⟩
    | 2 => some ⟨.rr, .f, .s, .none, .none, .none, fun o => some (.srdf o.a (o.b.setWidth 2))⟩
    | 3 => some ⟨.rr, .f, .s, .none, .none, .none, fun o => some (.swrf o.a (o.b.setWidth 2))⟩
    | _ => none
  | 23 =>
    match F with
    | 0 => some ⟨.rr, .dot, .dot, .none, .none, .none, fun _ => some .endCtx⟩
    | 1 => some ⟨.rr, .dot, .dot, .none, .none, .none, fun _ => some .endFail⟩
    | 2 => some ⟨.rr, .dot, .dot, .none, .none, .none, fun _ => some .yield⟩
    | 3 => some ⟨.rr, .x, .x, .none, .none, .none, fun o => some (.spawn o.a o.b)⟩
    | 4 => some ⟨.rr, .code, .dot, .none, .none, .none, fun o => some (.trap (o.a.setWidth 4))⟩
    | 5 => some ⟨.rr, .dot, .dot, .none, .none, .none, fun _ => some .eret⟩
    | 6 => some ⟨.rr, .dot, .dot, .none, .none, .none, fun _ => some .nop⟩
    | _ => none
  | 24 =>
    match F with
    | 0 => some ⟨.ri, .x, .dot, .none, .z, .none, fun o => if o.imm.toNat < 4096 then some (.srr o.a (o.imm.setWidth 12)) else none⟩
    | _ => none
  | 25 =>
    match F with
    | 0 => some ⟨.ri, .x, .dot, .none, .z, .none, fun o => if o.imm.toNat < 4096 then some (.srw o.a (o.imm.setWidth 12)) else none⟩
    | _ => none
  | 26 =>
    match F with
    | 0 => some ⟨.ri, .x, .dot, .none, .s, .none, fun o => some (.pca o.a o.imm)⟩
    | _ => none
  | 27 =>
    match F with
    | 0 => some ⟨.j, .dot, .dot, .none, .s, .none, fun o => some (.ipref o.imm)⟩
    | _ => none
  | _ => none

/-- Page 1 of the opcode map (04 R104): the row of a primary opcode and a function value (for B and BS words the
sense bit; 0 for the other formats without a function). -/
def page1 (prim F : Nat) : Option Row :=
  match prim with
  | 0 =>
    match F with
    | 0 => some ⟨.rr, .f, .f, .opt, .none, .none, fun o => some (.fadd o.a o.b o.c)⟩
    | 1 => some ⟨.rr, .f, .f, .opt, .none, .none, fun o => some (.fsub o.a o.b o.c)⟩
    | 2 => some ⟨.rr, .f, .f, .opt, .none, .none, fun o => some (.fmul o.a o.b o.c)⟩
    | 3 => some ⟨.rr, .f, .f, .opt, .none, .none, fun o => some (.fdiv o.a o.b o.c)⟩
    | 4 => some ⟨.rr, .f, .f, .opt, .none, .none, fun o => some (.fmin o.a o.b o.c)⟩
    | 5 => some ⟨.rr, .f, .f, .opt, .none, .none, fun o => some (.fmax o.a o.b o.c)⟩
    | _ => none
  | 1 =>
    match F with
    | 0 => some ⟨.rr, .f, .f, .req, .none, .none, fun o => some (.fma o.a o.b (o.c.getD 0))⟩
    | 1 => some ⟨.rr, .f, .f, .req, .none, .none, fun o => some (.fms o.a o.b (o.c.getD 0))⟩
    | 2 => some ⟨.rr, .f, .f, .req, .none, .none, fun o => some (.fnma o.a o.b (o.c.getD 0))⟩
    | 3 => some ⟨.rr, .f, .f, .req, .none, .none, fun o => some (.fnms o.a o.b (o.c.getD 0))⟩
    | _ => none
  | 2 =>
    match F with
    | 0 => some ⟨.rr, .f, .f, .none, .none, .none, fun o => some (.fsqrt o.a o.b)⟩
    | 1 => some ⟨.rr, .f, .f, .none, .none, .none, fun o => some (.fneg o.a o.b)⟩
    | 2 => some ⟨.rr, .f, .f, .none, .none, .none, fun o => some (.fabs o.a o.b)⟩
    | 3 => some ⟨.rr, .f, .f, .none, .none, .none, fun o => some (.fmov o.a o.b)⟩
    | _ => none
  | 3 =>
    match F with
    | 0 => some ⟨.rr, .f, .f, .none, .none, .none, fun o => some (.feq o.a o.b)⟩
    | 1 => some ⟨.rr, .f, .f, .none, .none, .none, fun o => some (.flt o.a o.b)⟩
    | 2 => some ⟨.rr, .f, .f, .none, .none, .none, fun o => some (.fle o.a o.b)⟩
    | 3 => some ⟨.rr, .f, .f, .none, .none, .none, fun o => some (.funord o.a o.b)⟩
    | 4 => some ⟨.rr, .x, .f, .none, .none, .none, fun o => some (.fclass o.a o.b)⟩
    | _ => none
  | 4 =>
    match F with
    | 0 => some ⟨.rr, .x, .f, .none, .none, .none, fun o => some (.fcvtI32 o.a o.b)⟩
    | 1 => some ⟨.rr, .x, .f, .none, .none, .none, fun o => some (.fcvtN32 o.a o.b)⟩
    | 2 => some ⟨.rr, .x, .f, .none, .none, .none, fun o => some (.fmvX o.a o.b)⟩
    | 3 => some ⟨.rr, .x, .f, .none, .none, .none, fun o => some (.fcvtBf16 o.a o.b)⟩
    | 4 => some ⟨.rr, .x, .f, .none, .none, .none, fun o => some (.fcvtE4m3 o.a o.b)⟩
    | 5 => some ⟨.rr, .x, .f, .none, .none, .none, fun o => some (.fcvtE5m2 o.a o.b)⟩
    | 67 => some ⟨.rr, .x, .f, .none, .none, .none, fun o => some (.fcvtBf16Sat o.a o.b)⟩
    | 68 => some ⟨.rr, .x, .f, .none, .none, .none, fun o => some (.fcvtE4m3Sat o.a o.b)⟩
    | 69 => some ⟨.rr, .x, .f, .none, .none, .none, fun o => some (.fcvtE5m2Sat o.a o.b)⟩
    | _ => none
  | 5 =>
    match F with
    | 0 => some ⟨.rr, .f, .x, .none, .none, .none, fun o => some (.fcvtfI32 o.a o.b)⟩
    | 1 => some ⟨.rr, .f, .x, .none, .none, .none, fun o => some (.fcvtfN32 o.a o.b)⟩
    | 2 => some ⟨.rr, .f, .x, .none, .none, .none, fun o => some (.fmvF o.a o.b)⟩
    | 3 => some ⟨.rr, .f, .x, .none, .none, .none, fun o => some (.fcvtfBf16 o.a o.b)⟩
    | 4 => some ⟨.rr, .f, .x, .none, .none, .none, fun o => some (.fcvtfE4m3 o.a o.b)⟩
    | 5 => some ⟨.rr, .f, .x, .none, .none, .none, fun o => some (.fcvtfE5m2 o.a o.b)⟩
    | _ => none
  | 6 =>
    match F with
    | 0 => some ⟨.rri, .f, .x, .none, .s, .none, fun o => some (.fld o.a o.b o.imm)⟩
    | _ => none
  | 7 =>
    match F with
    | 0 => some ⟨.rri, .f, .x, .none, .s, .none, fun o => some (.fst o.a o.b o.imm)⟩
    | _ => none
  | 8 =>
    match F with
    | 0 => some ⟨.rr, .f, .x, .req, .none, .none, fun o => some (.smk o.a o.b (o.c.getD 0))⟩
    | _ => none
  | 9 =>
    match F with
    | 0 => some ⟨.rr, .x, .f, .none, .none, .none, fun o => some (.snum o.a o.b)⟩
    | 1 => some ⟨.rr, .x, .f, .none, .none, .none, fun o => some (.sden o.a o.b)⟩
    | 2 => some ⟨.rr, .x, .f, .none, .none, .none, fun o => some (.sbnd o.a o.b)⟩
    | _ => none
  | 10 =>
    match F with
    | 0 => some ⟨.rr, .f, .f, .opt, .none, .none, fun o => some (.smed o.a o.b o.c)⟩
    | 1 => some ⟨.rr, .f, .f, .none, .none, .none, fun o => some (.srec o.a o.b)⟩
    | _ => none
  | 11 =>
    match F with
    | 0 => some ⟨.rr, .f, .x, .none, .none, .none, fun o => some (.scvtf o.a o.b)⟩
    | 1 => some ⟨.rr, .x, .f, .none, .none, .none, fun o => some (.fcvts o.a o.b)⟩
    | _ => none
  | _ => none

/-- Page 2 of the opcode map (04 R105): the row of a primary opcode and a function value (for B and BS words the
sense bit; 0 for the other formats without a function). -/
def page2 (prim F : Nat) : Option Row :=
  match prim with
  | 0 =>
    match F with
    | 0 => some ⟨.rr, .v, .v, .opt, .none, .m, fun o => some (.vaddI o.a o.b o.c o.m)⟩
    | 1 => some ⟨.rr, .v, .v, .opt, .none, .m, fun o => some (.vsubI o.a o.b o.c o.m)⟩
    | 2 => some ⟨.rr, .v, .v, .opt, .none, .m, fun o => some (.vmulI o.a o.b o.c o.m)⟩
    | 3 => some ⟨.rr, .v, .v, .opt, .none, .m, fun o => some (.vminI o.a o.b o.c o.m)⟩
    | 4 => some ⟨.rr, .v, .v, .opt, .none, .m, fun o => some (.vmaxI o.a o.b o.c o.m)⟩
    | 5 => some ⟨.rr, .v, .v, .opt, .none, .m, fun o => some (.vand o.a o.b o.c o.m)⟩
    | 6 => some ⟨.rr, .v, .v, .opt, .none, .m, fun o => some (.vor o.a o.b o.c o.m)⟩
    | 7 => some ⟨.rr, .v, .v, .opt, .none, .m, fun o => some (.vxor o.a o.b o.c o.m)⟩
    | 8 => some ⟨.rr, .v, .v, .opt, .none, .m, fun o => some (.vsll o.a o.b o.c o.m)⟩
    | 9 => some ⟨.rr, .v, .v, .opt, .none, .m, fun o => some (.vsrl o.a o.b o.c o.m)⟩
    | 10 => some ⟨.rr, .v, .v, .opt, .none, .m, fun o => some (.vsra o.a o.b o.c o.m)⟩
    | 11 => some ⟨.rr, .v, .v, .opt, .none, .m, fun o => some (.vaddsI o.a o.b o.c o.m)⟩
    | 12 => some ⟨.rr, .v, .v, .opt, .none, .m, fun o => some (.vsubsI o.a o.b o.c o.m)⟩
    | _ => none
  | 1 =>
    match F with
    | 0 => some ⟨.rr, .v, .v, .opt, .none, .m, fun o => some (.vaddF o.a o.b o.c o.m)⟩
    | 1 => some ⟨.rr, .v, .v, .opt, .none, .m, fun o => some (.vsubF o.a o.b o.c o.m)⟩
    | 2 => some ⟨.rr, .v, .v, .opt, .none, .m, fun o => some (.vmulF o.a o.b o.c o.m)⟩
    | 3 => some ⟨.rr, .v, .v, .opt, .none, .m, fun o => some (.vdivF o.a o.b o.c o.m)⟩
    | 4 => some ⟨.rr, .v, .v, .opt, .none, .m, fun o => some (.vminF o.a o.b o.c o.m)⟩
    | 5 => some ⟨.rr, .v, .v, .opt, .none, .m, fun o => some (.vmaxF o.a o.b o.c o.m)⟩
    | _ => none
  | 2 =>
    match F with
    | 0 => some ⟨.rr, .v, .v, .req, .none, .m, fun o => some (.vfma o.a o.b (o.c.getD 0) o.m)⟩
    | 1 => some ⟨.rr, .v, .v, .req, .none, .m, fun o => some (.vfms o.a o.b (o.c.getD 0) o.m)⟩
    | 2 => some ⟨.rr, .v, .v, .req, .none, .vsel, fun o => some (.vsel o.a o.b (o.c.getD 0) o.m)⟩
    | _ => none
  | 3 =>
    match F with
    | 0 => some ⟨.rr, .v, .v, .opt, .none, .m, fun o => some (.vceqI o.a o.b o.c o.m)⟩
    | 1 => some ⟨.rr, .v, .v, .opt, .none, .m, fun o => some (.vcltI o.a o.b o.c o.m)⟩
    | 2 => some ⟨.rr, .v, .v, .opt, .none, .m, fun o => some (.vcltnI o.a o.b o.c o.m)⟩
    | 3 => some ⟨.rr, .v, .v, .opt, .none, .m, fun o => some (.vceqF o.a o.b o.c o.m)⟩
    | 4 => some ⟨.rr, .v, .v, .opt, .none, .m, fun o => some (.vcltF o.a o.b o.c o.m)⟩
    | 5 => some ⟨.rr, .v, .v, .opt, .none, .m, fun o => some (.vcleF o.a o.b o.c o.m)⟩
    | 6 => some ⟨.rr, .v, .v, .opt, .none, .m, fun o => some (.vcunF o.a o.b o.c o.m)⟩
    | _ => none
  | 4 =>
    match F with
    | 0 => some ⟨.rr, .v, .v, .none, .none, .m, fun o => some (.vcvtFI o.a o.b o.m)⟩
    | 1 => some ⟨.rr, .v, .v, .none, .none, .m, fun o => some (.vcvtIF o.a o.b o.m)⟩
    | 2 => some ⟨.rr, .v, .v, .none, .none, .m, fun o => some (.vcvtBf16F o.a o.b o.m)⟩
    | 3 => some ⟨.rr, .v, .v, .none, .none, .m, fun o => some (.vcvtFBf16 o.a o.b o.m)⟩
    | 4 => some ⟨.rr, .v, .v, .none, .none, .m, fun o => some (.vcvtE4m3F o.a o.b o.m)⟩
    | 5 => some ⟨.rr, .v, .v, .none, .none, .m, fun o => some (.vcvtE5m2F o.a o.b o.m)⟩
    | 6 => some ⟨.rr, .v, .v, .none, .none, .m, fun o => some (.vcvtFE4m3 o.a o.b o.m)⟩
    | 7 => some ⟨.rr, .v, .v, .none, .none, .m, fun o => some (.vcvtFE5m2 o.a o.b o.m)⟩
    | 66 => some ⟨.rr, .v, .v, .none, .none, .m, fun o => some (.vcvtBf16FSat o.a o.b o.m)⟩
    | 68 => some ⟨.rr, .v, .v, .none, .none, .m, fun o => some (.vcvtE4m3FSat o.a o.b o.m)⟩
    | 69 => some ⟨.rr, .v, .v, .none, .none, .m, fun o => some (.vcvtE5m2FSat o.a o.b o.m)⟩
    | _ => none
  | 5 =>
    match F with
    | 0 => some ⟨.rr, .v, .v, .req, .none, .m, fun o => some (.vaddFs o.a o.b (o.c.getD 0) o.m)⟩
    | 1 => some ⟨.rr, .v, .v, .req, .none, .m, fun o => some (.vmulFs o.a o.b (o.c.getD 0) o.m)⟩
    | 2 => some ⟨.rr, .v, .v, .req, .none, .m, fun o => some (.vfmaFs o.a o.b (o.c.getD 0) o.m)⟩
    | _ => none
  | 6 =>
    match F with
    | 0 => some ⟨.rr, .v, .x, .none, .none, .m, fun o => some (.vbcastX o.a o.b o.m)⟩
    | 1 => some ⟨.rr, .v, .f, .none, .none, .m, fun o => some (.vbcastF o.a o.b o.m)⟩
    | 2 => some ⟨.rr, .v, .dot, .none, .none, .m, fun o => some (.viota o.a o.m)⟩
    | _ => none
  | 7 =>
    match F with
    | 0 => some ⟨.rr, .x, .v, .req, .none, .none, fun o => some (.vextX o.a o.b (o.c.getD 0))⟩
    | _ => none
  | 8 =>
    match F with
    | 0 => some ⟨.rr, .v, .x, .req, .none, .none, fun o => some (.vinsX o.a o.b (o.c.getD 0))⟩
    | _ => none
  | _ => none

/-- Page 3 of the opcode map (04 R106): the row of a primary opcode and a function value (for B and BS words the
sense bit; 0 for the other formats without a function). -/
def page3 (prim F : Nat) : Option Row :=
  match prim with
  | 0 =>
    match F with
    | 0 => some ⟨.rr0, .v, .x, .none, .s, .m, fun o => some (.vld o.a o.b o.imm o.m)⟩
    | 1 => some ⟨.rr0, .v, .x, .none, .s, .x, fun o => some (.vst o.a o.b o.imm o.m)⟩
    | 2 => some ⟨.rr0, .v, .x, .dflt, .s, .m, fun o => some (.vlds o.a o.b (o.c.getD 0) o.imm o.m)⟩
    | 3 => some ⟨.rr0, .v, .x, .dflt, .s, .x, fun o => some (.vsts o.a o.b (o.c.getD 0) o.imm o.m)⟩
    | 4 => some ⟨.rr0, .v, .x, .none, .s, .m, fun o => some (.vldb o.a o.b o.imm o.m)⟩
    | _ => none
  | 1 =>
    match F with
    | 0 => some ⟨.rr0, .v, .x, .req, .s, .m, fun o => some (.vldx o.a o.b (o.c.getD 0) o.imm o.m)⟩
    | 1 => some ⟨.rr0, .v, .x, .req, .s, .x, fun o => some (.vstx o.a o.b (o.c.getD 0) o.imm o.m)⟩
    | _ => none
  | 2 =>
    match F with
    | 0 => some ⟨.rr, .v, .v, .opt, .none, .m, fun o => some (.vperm o.a o.b o.c o.m)⟩
    | 1 => some ⟨.rr, .v, .v, .opt, .none, .m, fun o => some (.vzip o.a o.b o.c o.m)⟩
    | 2 => some ⟨.rr, .v, .v, .opt, .none, .m, fun o => some (.vunzip o.a o.b o.c o.m)⟩
    | 3 => some ⟨.rr, .v, .v, .none, .none, .m, fun o => some (.vrev o.a o.b o.m)⟩
    | _ => none
  | 3 =>
    match F with
    | 0 => some ⟨.rr, .v, .v, .req, .none, .m, fun o => some (.vslideup o.a o.b (o.c.getD 0) o.m)⟩
    | 1 => some ⟨.rr, .v, .v, .req, .none, .m, fun o => some (.vslidedn o.a o.b (o.c.getD 0) o.m)⟩
    | _ => none
  | 4 =>
    match F with
    | 0 => some ⟨.rr, .v, .v, .none, .none, .vcompress, fun o => some (.vcompress o.a o.b o.m)⟩
    | 1 => some ⟨.rr, .v, .v, .none, .none, .vexpand, fun o => some (.vexpand o.a o.b o.m)⟩
    | _ => none
  | 5 =>
    match F with
    | 0 => some ⟨.rr, .f, .v, .none, .none, .x, fun o => some (.vredaddF o.a o.b o.m)⟩
    | 1 => some ⟨.rr, .f, .v, .none, .none, .x, fun o => some (.vredmaxF o.a o.b o.m)⟩
    | 2 => some ⟨.rr, .f, .v, .none, .none, .x, fun o => some (.vredminF o.a o.b o.m)⟩
    | _ => none
  | 6 =>
    match F with
    | 0 => some ⟨.rr, .x, .v, .none, .none, .x, fun o => some (.vredaddI o.a o.b o.m)⟩
    | 1 => some ⟨.rr, .x, .v, .none, .none, .x, fun o => some (.vredmaxI o.a o.b o.m)⟩
    | 2 => some ⟨.rr, .x, .v, .none, .none, .x, fun o => some (.vredminI o.a o.b o.m)⟩
    | 3 => some ⟨.rr, .x, .v, .none, .none, .x, fun o => some (.vpopc o.a o.b o.m)⟩
    | 4 => some ⟨.rr, .x, .v, .none, .none, .x, fun o => some (.vfirst o.a o.b o.m)⟩
    | _ => none
  | 7 =>
    match F with
    | 0 => some ⟨.rr, .x, .x, .none, .none, .none, fun o => some (.vclaim o.a o.b)⟩
    | 1 => some ⟨.rr, .dot, .dot, .none, .none, .none, fun _ => some .vyield⟩
    | 2 => some ⟨.rr, .x, .x, .none, .none, .none, fun o => some (.vloop o.a o.b)⟩
    | 3 => some ⟨.rr, .x, .x, .none, .none, .none, fun o => some (.vsetvl o.a o.b)⟩
    | 4 => some ⟨.rr, .dot, .dot, .none, .none, .none, fun _ => some .vsync⟩
    | _ => none
  | 8 =>
    match F with
    | 0 => some ⟨.rr, .v, .v, .none, .none, .m, fun o => some (.vexp o.a o.b o.m)⟩
    | 1 => some ⟨.rr, .v, .v, .none, .none, .m, fun o => some (.vlog o.a o.b o.m)⟩
    | 2 => some ⟨.rr, .v, .v, .none, .none, .m, fun o => some (.vrcp o.a o.b o.m)⟩
    | 3 => some ⟨.rr, .v, .v, .none, .none, .m, fun o => some (.vrsqrt o.a o.b o.m)⟩
    | 4 => some ⟨.rr, .v, .v, .none, .none, .m, fun o => some (.vtanh o.a o.b o.m)⟩
    | 5 => some ⟨.rr, .v, .v, .none, .none, .m, fun o => some (.vsigm o.a o.b o.m)⟩
    | _ => none
  | 9 =>
    match F with
    | 0 => some ⟨.rr, .v, .v, .req, .none, .s, fun o => some (.vtopk o.a o.b (o.c.getD 0) o.m)⟩
    | 1 => some ⟨.rr, .v, .v, .req, .none, .none, fun o => some (.vtnorm o.a o.b (o.c.getD 0))⟩
    | _ => none
  | 10 =>
    match F with
    | 0 => some ⟨.rr, .v, .v, .req, .none, .none, fun o => some (.vquant o.a o.b (o.c.getD 0))⟩
    | 1 => some ⟨.rr, .v, .v, .req, .none, .none, fun o => some (.vdequant o.a o.b (o.c.getD 0))⟩
    | _ => none
  | _ => none

/-- Page 4 of the opcode map (04 R107): the row of a primary opcode and a function value (for B and BS words the
sense bit; 0 for the other formats without a function). -/
def page4 (prim F : Nat) : Option Row :=
  match prim with
  | 0 =>
    match F with
    | 0 => some ⟨.rr, .x, .x, .none, .none, .none, fun o => some (.mma o.a o.b)⟩
    | _ => none
  | 1 =>
    match F with
    | 0 => some ⟨.rr0, .x, .x, .none, .z, .none, fun o => if 1 ≤ o.imm.toNat ∧ o.imm.toNat ≤ 255 then some (.mmar o.a o.b o.imm) else none⟩
    | _ => none
  | 2 =>
    match F with
    | 0 => some ⟨.rr, .x, .dot, .none, .none, .none, fun o => some (.mlatb o.a)⟩
    | 1 => some ⟨.rr, .dot, .dot, .none, .none, .none, fun _ => some .mring⟩
    | 2 => some ⟨.rr, .dot, .dot, .none, .none, .none, fun _ => some .mwait⟩
    | 3 => some ⟨.rr, .dot, .dot, .none, .none, .none, fun _ => some .msync⟩
    | _ => none
  | 3 =>
    match F with
    | 0 => some ⟨.rr, .x, .dot, .none, .none, .none, fun o => some (.mzero o.a)⟩
    | 1 => some ⟨.rr, .dot, .dot, .none, .none, .none, fun _ => some .mcswap⟩
    | 2 => some ⟨.rr, .x, .x, .none, .none, .none, fun o => some (.mcrd o.a o.b)⟩
    | 3 => some ⟨.rr, .x, .x, .none, .none, .none, fun o => some (.mcwr o.a o.b)⟩
    | 4 => some ⟨.rr, .x, .x, .none, .none, .none, fun o => some (.mquant o.a o.b)⟩
    | 5 => some ⟨.rr, .x, .x, .none, .none, .none, fun o => some (.msatrd o.a o.b)⟩
    | _ => none
  | _ => none

/-- Page 5 of the opcode map (04 R108): the row of a primary opcode and a function value (for B and BS words the
sense bit; 0 for the other formats without a function). -/
def page5 (prim F : Nat) : Option Row :=
  match prim with
  | 0 =>
    match F with
    | 0 => some ⟨.rr0, .x, .x, .none, .s, .none, fun o => some (.lda o.a o.b o.imm)⟩
    | 1 => some ⟨.rr0, .x, .x, .none, .s, .none, fun o => some (.stl o.a o.b o.imm)⟩
    | _ => none
  | 1 =>
    match F with
    | 0 => some ⟨.rr, .code, .code, .none, .none, .none, fun o => if o.a.toNat ≤ 5 ∧ o.b ≠ 0 then some (.fence (o.a.setWidth 4) (o.b.setWidth 4)) else none⟩
    | 1 => some ⟨.rr, .dot, .dot, .none, .none, .none, fun _ => some .jdrain⟩
    | _ => none
  | 2 =>
    match F with
    | 0 => some ⟨.rr, .x, .x, .req, .none, .none, fun o => some (.aadd o.a o.b (o.c.getD 0))⟩
    | 1 => some ⟨.rr, .x, .x, .req, .none, .none, fun o => if (o.c.getD 0).toNat ≠ 31 then some (.faddb o.a o.b (o.c.getD 0)) else none⟩
    | 2 => some ⟨.rr, .x, .x, .req, .none, .none, fun o => some (.incw o.a o.b (o.c.getD 0))⟩
    | 3 => some ⟨.rr, .x, .x, .req, .none, .none, fun o => some (.aswap o.a o.b (o.c.getD 0))⟩
    | 4 => some ⟨.rr, .x, .x, .req, .none, .none, fun o => if (o.c.getD 0).toNat ≠ 31 then some (.acas o.a o.b (o.c.getD 0)) else none⟩
    | 5 => some ⟨.rr, .x, .x, .req, .none, .none, fun o => some (.aand o.a o.b (o.c.getD 0))⟩
    | 6 => some ⟨.rr, .x, .x, .req, .none, .none, fun o => some (.aor o.a o.b (o.c.getD 0))⟩
    | 7 => some ⟨.rr, .x, .x, .req, .none, .none, fun o => some (.amax o.a o.b (o.c.getD 0))⟩
    | _ => none
  | 3 =>
    match F with
    | 0 => some ⟨.rr, .x, .x, .none, .none, .none, fun o => some (.accI o.a o.b)⟩
    | 1 => some ⟨.rr, .f, .x, .none, .none, .none, fun o => some (.accF o.a o.b)⟩
    | 2 => some ⟨.rr, .f, .x, .none, .none, .none, fun o => some (.accsq o.a o.b)⟩
    | 3 => some ⟨.rr, .dot, .dot, .none, .none, .none, fun _ => some .flushr⟩
    | _ => none
  | 4 =>
    match F with
    | 0 => some ⟨.rr, .x, .x, .none, .none, .none, fun o => some (.job o.a o.b)⟩
    | 1 => some ⟨.rr, .dot, .x, .none, .none, .none, fun o => some (.pollj o.b)⟩
    | 2 => some ⟨.rr, .dot, .x, .none, .none, .none, fun o => some (.waitj o.b)⟩
    | _ => none
  | _ => none

/-- Page 6 of the opcode map (04 R109): the row of a primary opcode and a function value (for B and BS words the
sense bit; 0 for the other formats without a function). -/
noncomputable def page6 (prim F : Nat) : Option Row :=
  match prim with
  | 0 =>
    match F with
    | 0 => some ⟨.rr, .x, .x, .none, .none, .none, fun o => some (.aload o.a o.b)⟩
    | 1 => some ⟨.rr, .dot, .x, .none, .none, .none, fun o => some (.afree o.b)⟩
    | 2 => some ⟨.rr, .x, .x, .none, .none, .none, fun o => some (.alahead o.a o.b)⟩
    | _ => none
  | 1 =>
    match F with
    | 0 => some ⟨.rr, .e, .x, .req, .none, .none, fun o => some (.connect (o.a.setWidth 4) o.b (o.c.getD 0))⟩
    | 1 => some ⟨.rr, .e, .x, .req, .none, .none, fun o => some (.accept (o.a.setWidth 4) o.b (o.c.getD 0))⟩
    | _ => none
  | 2 =>
    match F with
    | 0 => some ⟨.rr, .x, .e, .none, .none, .none, fun o => some (.epname o.a (o.b.setWidth 4))⟩
    | 1 => some ⟨.rr, .x, .e, .none, .none, .none, fun o => some (.estat o.a (o.b.setWidth 4))⟩
    | 2 => some ⟨.rr, .e, .x, .none, .none, .none, fun o => some (.epset (o.a.setWidth 4) o.b)⟩
    | 3 => some ⟨.rr, .e, .x, .none, .none, .none, fun o => some (.epmod (o.a.setWidth 4) o.b)⟩
    | 4 => some ⟨.rr, .e, .dot, .none, .none, .none, fun o => some (.close (o.a.setWidth 4))⟩
    | _ => none
  | 3 =>
    match F with
    | 0 => some ⟨.rr0, .e, .x, .none, .s, .none, fun o => some (.send (o.a.setWidth 4) o.b o.imm)⟩
    | 1 => some ⟨.rr0, .e, .x, .none, .s, .none, fun o => some (.recv (o.a.setWidth 4) o.b o.imm)⟩
    | _ => none
  | 4 =>
    match F with
    | 0 => some ⟨.rr, .e, .v, .none, .none, .none, fun o => some (.sendv (o.a.setWidth 4) o.b)⟩
    | 1 => some ⟨.rr, .e, .v, .none, .none, .none, fun o => some (.recvv (o.a.setWidth 4) o.b)⟩
    | _ => none
  | 5 =>
    match F with
    | 0 => some ⟨.rr, .e, .x, .none, .none, .none, fun o => some (.sendx (o.a.setWidth 4) o.b)⟩
    | 1 => some ⟨.rr, .e, .x, .none, .none, .none, fun o => some (.recvx (o.a.setWidth 4) o.b)⟩
    | _ => none
  | 6 =>
    match F with
    | 0 => some ⟨.ri, .e, .dot, .none, .fld, .none, fun o => if o.low.toNat < 64 then some (.select (o.a.setWidth 4) (o.low.setWidth 6)) else none⟩
    | _ => none
  | 7 =>
    match F with
    | 0 => some ⟨.rr, .x, .e, .none, .none, .none, fun o => some (.offer o.a (o.b.setWidth 4))⟩
    | _ => none
  | 8 =>
    match F with
    | 0 => some ⟨.rr, .e, .e, .none, .none, .none, fun o => if o.a ≠ o.b then some (.dsend (o.a.setWidth 4) (o.b.setWidth 4)) else none⟩
    | 1 => some ⟨.rr, .e, .e, .none, .none, .none, fun o => some (.drecv (o.a.setWidth 4) (o.b.setWidth 4))⟩
    | _ => none
  | 9 =>
    match F with
    | 0 => some ⟨.rr, .s, .e, .none, .none, .none, fun o => some (.sbind (o.a.setWidth 2) (o.b.setWidth 4))⟩
    | 1 => some ⟨.rr, .s, .x, .none, .none, .none, fun o => some (.sbinda (o.a.setWidth 2) o.b)⟩
    | 2 => some ⟨.rr, .s, .dot, .none, .none, .none, fun o => some (.sunbind (o.a.setWidth 2))⟩
    | _ => none
  | 10 =>
    match F with
    | 0 => some ⟨.rr, .e, .v, .req, .none, .none, fun o => some (.vksend (o.a.setWidth 4) o.b (o.c.getD 0))⟩
    | _ => none
  | 11 =>
    match F with
    | 0 => some ⟨.rr, .x, .x, .none, .none, .none, fun o => some (.raucfg o.a o.b)⟩
    | _ => none
  | _ => none

/-- Page 7 of the opcode map (04 R110): the row of a primary opcode and a function value (for B and BS words the
sense bit; 0 for the other formats without a function). -/
noncomputable def page7 (prim F : Nat) : Option Row :=
  match prim with
  | 0 =>
    match F with
    | 0 => some ⟨.ri, .x, .dot, .none, .fld, .none, fun o => if o.low.toNat < 64 then some (.emit o.a (o.low.setWidth 6)) else none⟩
    | _ => none
  | 1 =>
    match F with
    | 0 => some ⟨.ri, .dot, .dot, .none, .fld, .none, fun o => if o.low.toNat < 64 then some (.noemit (o.low.setWidth 6)) else none⟩
    | _ => none
  | 2 =>
    match F with
    | 0 => some ⟨.bs, .dot, .dot, .none, .s, .none, fun o => some (.absb o.sig o.imm)⟩
    | 1 => some ⟨.bs, .dot, .dot, .none, .s, .none, fun o => some (.pres o.sig o.imm)⟩
    | _ => none
  | 3 =>
    match F with
    | 0 => some ⟨.ri, .x, .dot, .none, .fld, .none, fun o => if o.low.toNat < 64 then some (.sval o.a (o.low.setWidth 6)) else none⟩
    | _ => none
  | 4 =>
    match F with
    | 0 => some ⟨.rr, .dot, .dot, .none, .none, .none, fun _ => some .pause⟩
    | 1 => some ⟨.rr, .dot, .dot, .none, .none, .none, fun _ => some .pauseUp⟩
    | _ => none
  | 5 =>
    match F with
    | 0 => some ⟨.rr, .x, .x, .none, .none, .none, fun o => some (.domnew o.a o.b)⟩
    | 1 => some ⟨.rr, .dot, .x, .none, .none, .none, fun o => some (.domfree o.b)⟩
    | _ => none
  | 6 =>
    match F with
    | 0 => some ⟨.rr, .d, .x, .none, .none, .none, fun o => some (.dlyw (o.a.setWidth 3) o.b)⟩
    | 1 => some ⟨.rr, .x, .d, .none, .none, .none, fun o => some (.dlyr o.a (o.b.setWidth 3))⟩
    | _ => none
  | 7 =>
    match F with
    | 0 => some ⟨.rr, .dot, .x, .req, .none, .none, fun o => some (.waiteq o.b (o.c.getD 0))⟩
    | 1 => some ⟨.rr, .dot, .x, .req, .none, .none, fun o => some (.waitne o.b (o.c.getD 0))⟩
    | _ => none
  | 8 =>
    match F with
    | 0 => some ⟨.rr, .dot, .x, .none, .none, .none, fun o => some (.bell o.b)⟩
    | _ => none
  | _ => none

/-- Page 8 of the opcode map (04 R111): the row of a primary opcode and a function value (for B and BS words the
sense bit; 0 for the other formats without a function). -/
noncomputable def page8 (prim F : Nat) : Option Row :=
  match prim with
  | 0 =>
    match F with
    | 0 => some ⟨.rr, .code, .dot, .none, .none, .none, fun o => some (.brk (o.a.setWidth 4))⟩
    | 1 => some ⟨.rr, .dot, .x, .none, .none, .none, fun o => some (.tracem o.b)⟩
    | 2 => some ⟨.rr, .dot, .dot, .none, .none, .none, fun _ => some .trig⟩
    | _ => none
  | 1 =>
    match F with
    | 0 => some ⟨.rr, .dot, .x, .none, .none, .none, fun o => some (.icinv o.b)⟩
    | 1 => some ⟨.rr, .dot, .dot, .none, .none, .none, fun _ => some .icinva⟩
    | _ => none
  | 2 =>
    match F with
    | 0 => some ⟨.rr, .x, .x, .none, .none, .none, fun o => some (.winset o.a o.b)⟩
    | 1 => some ⟨.rr, .x, .x, .none, .none, .none, fun o => some (.winget o.a o.b)⟩
    | 2 => some ⟨.rr, .dot, .dot, .none, .none, .none, fun _ => some .halt⟩
    | 3 => some ⟨.rr, .dot, .x, .none, .none, .none, fun o => some (.scrub o.b)⟩
    | _ => none
  | _ => none

/-- The opcode map (04 R102-R111). Pages 9 to 15 have no rows. -/
noncomputable def lookup (page : BitVec 4) (prim F : Nat) : Option Row :=
  match page.toNat with
  | 0 => page0 prim F
  | 1 => page1 prim F
  | 2 => page2 prim F
  | 3 => page3 prim F
  | 4 => page4 prim F
  | 5 => page5 prim F
  | 6 => page6 prim F
  | 7 => page7 prim F
  | 8 => page8 prim F
  | _ => none

end Opcode

/-- The prefixes read so far: PFP (page and EXT), PFR (its 11 payload bits), PFI payloads in group order (04 R90-R96). -/
structure Prefixes where
  pfp : Option (BitVec 4 × BitVec 7)
  pfr : Option (BitVec 11)
  pfi : List (BitVec 11)
  n : Nat
  deriving DecidableEq, Repr

def Prefixes.empty : Prefixes := ⟨none, none, [], 0⟩

/-- The page in effect (04 R95, R101). -/
def Prefixes.page (p : Prefixes) : BitVec 4 :=
  match p.pfp with
  | some (page, _) => page
  | none => 0

/-- The EXT field of the PFP, 0 without one (04 R95). -/
def Prefixes.ext (p : Prefixes) : BitVec 7 :=
  match p.pfp with
  | some (_, ext) => ext
  | none => 0

/-- The width of the base immediate (04 R88). -/
def Fmt.immWidth : Fmt → Nat
  | .rr => 0 | .rr0 => 0 | .ri => 7 | .rri => 3 | .b => 10 | .j => 11 | .bs => 10

/-- The immediate of R97, before the scale: PFI payloads, most significant first, then the base immediate. None where
bits above bit 31 do not copy bit 31 (reason 0x7). -/
def formImm (signed : Bool) (bw : Nat) (pfi : List (BitVec 11)) (base : Nat) : Option (BitVec 32) :=
  let n := pfi.foldl (fun n p => n * 2 ^ 11 + p.toNat) 0 * 2 ^ bw + base
  let w := 11 * pfi.length + bw
  if w ≤ 32 then
    if signed && w ≠ 0 && n / 2 ^ (w - 1) % 2 = 1 then some (BitVec.ofNat 32 (n + 2 ^ 32 - 2 ^ w))
    else some (BitVec.ofNat 32 n)
  else
    let top := n / 2 ^ 32
    if top = 0 && n / 2 ^ 31 % 2 = 0 || top = 2 ^ (w - 32) - 1 && n / 2 ^ 31 % 2 = 1 then some (BitVec.ofNat 32 n)
    else none

/-- A register field within the file it names (04 R94). A field without a register is checked by `Kind.zeroOk`. -/
def Kind.inRange : Kind → BitVec 5 → Bool
  | .e, r => r.toNat < 16
  | .s, r => r.toNat < 4
  | .d, r => r.toNat < 8
  | .dot, _ => true
  | .x, _ => true
  | .f, _ => true
  | .v, _ => true
  | .code, _ => true

/-- A field marked · is zero, and a code takes no bit 4 (04 R93). -/
def Kind.zeroOk : Kind → BitVec 5 → Bool
  | .dot, r => r == 0
  | .code, r => r.toNat < 16
  | .x, _ => true
  | .f, _ => true
  | .v, _ => true
  | .e, _ => true
  | .s, _ => true
  | .d, _ => true

/-- A mask is permitted at all (04 R92, 10 R270). -/
def MaskClass.maskable : MaskClass → Bool
  | .none => false
  | .m => true | .s => true | .x => true | .vsel => true | .vcompress => true | .vexpand => true

/-- The limits of the mask class (reason 0x9 of 10 R270, R274, R283). -/
def MaskClass.ok : MaskClass → VMask → Bool
  | .none, _ => true
  | .m, _ => true
  | .s, k => !k.mpol
  | .x, k => !k.mpol && !k.tpol
  | .vsel, k => k.msel != 0 && !k.mpol
  | .vcompress, k => k.msel != 0 && !k.mpol
  | .vexpand, k => k.msel != 0

/-- The formats that have register fields a and b. -/
def Fmt.hasA : Fmt → Bool
  | .rr => true | .rr0 => true | .ri => true | .rri => true | .b => false | .j => false | .bs => false
def Fmt.hasB : Fmt → Bool
  | .rr => true | .rr0 => true | .rri => true | .ri => false | .b => false | .j => false | .bs => false
/-- The formats that have a function value, EXT × 8 + fn (04 R95). -/
def Fmt.hasF : Fmt → Bool
  | .rr => true | .rr0 => true | .ri => false | .rri => false | .b => false | .j => false | .bs => false

/-- The base immediate of a word. -/
def Fmt.baseImm (f : Fmt) (w : HWord) : Nat := w.toNat % 2 ^ f.immWidth

/-- The row of a base word: the function value is EXT × 8 + fn where the primary has functions, the sense bit for B and
BS words, 0 otherwise (04 R95, R102). -/
noncomputable def baseRow (page : BitVec 4) (ext : BitVec 7) (w : HWord) : Option Row :=
  let prim := bitsOf w.toNat 15 11
  let F := ext.toNat * 8 + bitsOf w.toNat 2 0
  match Opcode.lookup page prim 0 with
  | some r =>
    if r.fmt.hasF then Opcode.lookup page prim F
    else if r.fmt = .b ∨ r.fmt = .bs then Opcode.lookup page prim (bitsOf w.toNat 10 10) else some r
  | none => Opcode.lookup page prim F

/-- A prefix extends a field that the base word does not have (reason 0x6: 04 R91-R97). -/
def prefixWithoutField (r : Row) (p : Prefixes) : Bool :=
  let pfr := p.pfr.getD 0
  -- EXT on a word without a function value; a BS word needs its PFP
  (!r.fmt.hasF && r.fmt != .bs && p.ext != 0) ||
  (r.fmt == .bs && p.pfp.isNone) ||
  -- PFR on B, BS, J; BH and C on RI; C on RRI and on a row without c; the mask fields on a row that is not maskable
  (!r.fmt.hasA && p.pfr.isSome) ||
  (r.fmt == .ri && (pfr.extractLsb' 9 1 != 0 || pfr.extractLsb' 4 5 != 0)) ||
  (r.c == .none && pfr.extractLsb' 4 5 != 0) ||
  (!r.cls.maskable && pfr.extractLsb' 0 4 != 0) ||
  -- PFI on a row without an immediate or with a field immediate
  ((r.imm == .none || r.imm == .fld) && !p.pfi.isEmpty)

/-- The register fields, mask and signal of a group (04 R88, R92, R96). -/
def groupFields (r : Row) (p : Prefixes) (w : HWord) (imm : BitVec 32) : Operands :=
  let pfr := p.pfr.getD 0
  let a := if r.fmt.hasA then pfr.extractLsb' 10 1 ++ w.extractLsb' 7 4 else (0 : BitVec 5)
  let b := if r.fmt.hasB then pfr.extractLsb' 9 1 ++ w.extractLsb' 3 4 else (0 : BitVec 5)
  { a := a, b := b, c := p.pfr.map (fun r => r.extractLsb' 4 5), imm := imm, low := w.extractLsb' 0 7
    m := ⟨pfr.extractLsb' 2 2, pfr.extractLsb' 1 1 == 1, pfr.extractLsb' 0 1 == 1⟩
    sig := (p.ext).setWidth 6 }

/-- The checks at the base word in the order of reason codes (04 R101), and the instruction. -/
noncomputable def decodeBase (p : Prefixes) (w : HWord) : Decoded :=
  let page := p.page
  let bad (r : BitVec 4) : Decoded := .illegal r p.n w page
  let prim := bitsOf w.toNat 15 11
  let row := baseRow page (p.ext) w
  if page.toNat ≤ 8 ∧ prim < 28 ∧ row.isNone then bad 1
  else if w = 0 ∨ w = 0xFFFF ∨ prim = 31 then bad 2
  else if page.toNat > 8 then bad 3
  else
    match row with
    | none => bad 1
    | some r =>
      if prefixWithoutField r p then bad 6
      else
        match formImm (r.imm == .s) (if r.imm = .none ∨ r.imm = .fld then 0 else r.fmt.immWidth) p.pfi
            (if r.imm = .none ∨ r.imm = .fld then 0 else r.fmt.baseImm w) with
        | none => bad 7
        | some imm =>
          let o := groupFields r p w imm
          if !(r.a.inRange o.a && r.b.inRange o.b) then bad 8
          else if !(r.a.zeroOk o.a && r.b.zeroOk o.b) || (r.c == .req && o.c.isNone) || !r.cls.ok o.m ||
              (r.fmt == .bs && (p.ext).toNat ≥ 64) then bad 9
          else
            match r.make o with
            | none => bad 9
            | some i => .ok i (p.n + 1) page w

/-- What reading the words of a group up to its base word answers. -/
inductive Scan where
  | more
  | bad (reason : BitVec 4) (pos : Nat) (word : HWord) (page : BitVec 4)
  | base (p : Prefixes) (w : HWord)
  deriving DecidableEq, Repr

/-- Read a group word by word: zero to four prefixes in any order, then the base word (04 R90, R91). -/
def scan (p : Prefixes) : List HWord → Scan
  | [] => .more
  | w :: rest =>
    let prim := bitsOf w.toNat 15 11
    if 28 ≤ prim ∧ prim ≤ 30 then
      if p.n = 4 then .bad 4 p.n w p.page
      else if prim = 29 ∧ p.pfr.isSome ∨ prim = 30 ∧ p.pfp.isSome then .bad 5 p.n w p.page
      else if prim = 28 then scan { p with pfi := p.pfi ++ [w.setWidth 11], n := p.n + 1 } rest
      else if prim = 29 then scan { p with pfr := some (w.setWidth 11), n := p.n + 1 } rest
      else scan { p with pfp := some (w.extractLsb' 7 4, w.setWidth 7), n := p.n + 1 } rest
    else .base p w

/-- The number of words of a group, up to its base word or the word at which reading it fails; none where the words end
before. -/
def groupLength (ws : List HWord) : Option Nat :=
  match scan .empty ws with
  | .more => none
  | .bad _ pos _ _ => some (pos + 1)
  | .base p _ => some (p.n + 1)

/-- Decode the group that begins with the first of these words. -/
noncomputable def decode (ws : List HWord) : Decoded :=
  match scan .empty ws with
  | .more => .more
  | .bad r pos w page => .illegal r pos w page
  | .base p w => decodeBase p w

/-- TVAL of an ILLEGAL trap (04 R101). -/
def illegalTval (reason : BitVec 4) (pos : Nat) (word : HWord) (page : BitVec 4) : Word :=
  BitVec.ofNat 32 (reason.toNat * 2 ^ 28 + page.toNat * 2 ^ 24 + pos % 8 * 2 ^ 16 + word.toNat)

/-- The two bytes of a word, little-endian (04 R86), and back. -/
def wordBytes (w : HWord) : List Byte := [w.setWidth 8, w.extractLsb' 8 8]

def wordsOfBytes : List Byte → List HWord
  | a :: b :: rest => (b ++ a) :: wordsOfBytes rest
  | _ => []

/-- The words of a row of the opcode table. The table numbers a group of 32 bits with its first word, the PFP, in bits
31 to 16 (its match words are the two words in reading order); a group whose low half is a prefix is read low half first. -/
def tableWords (nbits w : Nat) : List HWord :=
  let lo := BitVec.ofNat 16 w
  let hi := BitVec.ofNat 16 (w / 2 ^ 16)
  if nbits ≤ 16 then [lo, 0, 0, 0, 0]
  else if 28 ≤ bitsOf lo.toNat 15 11 ∧ bitsOf lo.toNat 15 11 ≤ 30 then [lo, hi, 0, 0, 0]
  else [hi, lo, 0, 0, 0]

/-- The instruction the decoder reads from an instruction whose bits are `w`, numbered as the opcode table numbers
them. -/
noncomputable def decodeTableWord (nbits w : Nat) : Option Instr :=
  match decode (tableWords nbits w) with
  | .ok i _ _ _ => some i
  | .illegal _ _ _ _ => none
  | .more => none

/-! ### The encoder -/

/-- Page, primary opcode, function value and fields of an instruction. -/
structure Fields where
  page : BitVec 4
  prim : Nat
  F : Nat
  o : Operands
  deriving DecidableEq, Repr


/-- Page, primary, function value and fields with which an instruction is encoded; none for an event. -/
def Instr.fields : Instr → Option Fields
  | .add a b c => some ⟨0, 0, 0, ⟨a, b, c, 0, 0, .plain, 0⟩⟩
  | .sub a b c => some ⟨0, 0, 1, ⟨a, b, c, 0, 0, .plain, 0⟩⟩
  | .andX a b c => some ⟨0, 0, 2, ⟨a, b, c, 0, 0, .plain, 0⟩⟩
  | .orX a b c => some ⟨0, 0, 3, ⟨a, b, c, 0, 0, .plain, 0⟩⟩
  | .xorX a b c => some ⟨0, 0, 4, ⟨a, b, c, 0, 0, .plain, 0⟩⟩
  | .sll a b c => some ⟨0, 0, 5, ⟨a, b, c, 0, 0, .plain, 0⟩⟩
  | .srl a b c => some ⟨0, 0, 6, ⟨a, b, c, 0, 0, .plain, 0⟩⟩
  | .sra a b c => some ⟨0, 0, 7, ⟨a, b, c, 0, 0, .plain, 0⟩⟩
  | .mul a b c => some ⟨0, 1, 0, ⟨a, b, c, 0, 0, .plain, 0⟩⟩
  | .mulh a b c => some ⟨0, 1, 1, ⟨a, b, c, 0, 0, .plain, 0⟩⟩
  | .mulhn a b c => some ⟨0, 1, 2, ⟨a, b, c, 0, 0, .plain, 0⟩⟩
  | .div a b c => some ⟨0, 1, 3, ⟨a, b, c, 0, 0, .plain, 0⟩⟩
  | .divn a b c => some ⟨0, 1, 4, ⟨a, b, c, 0, 0, .plain, 0⟩⟩
  | .rem a b c => some ⟨0, 1, 5, ⟨a, b, c, 0, 0, .plain, 0⟩⟩
  | .remn a b c => some ⟨0, 1, 6, ⟨a, b, c, 0, 0, .plain, 0⟩⟩
  | .gcd a b c => some ⟨0, 1, 7, ⟨a, b, c, 0, 0, .plain, 0⟩⟩
  | .minX a b c => some ⟨0, 2, 0, ⟨a, b, c, 0, 0, .plain, 0⟩⟩
  | .maxX a b c => some ⟨0, 2, 1, ⟨a, b, c, 0, 0, .plain, 0⟩⟩
  | .minn a b c => some ⟨0, 2, 2, ⟨a, b, c, 0, 0, .plain, 0⟩⟩
  | .maxn a b c => some ⟨0, 2, 3, ⟨a, b, c, 0, 0, .plain, 0⟩⟩
  | .andn a b c => some ⟨0, 2, 4, ⟨a, b, c, 0, 0, .plain, 0⟩⟩
  | .orn a b c => some ⟨0, 2, 5, ⟨a, b, c, 0, 0, .plain, 0⟩⟩
  | .rol a b c => some ⟨0, 2, 6, ⟨a, b, c, 0, 0, .plain, 0⟩⟩
  | .ror a b c => some ⟨0, 2, 7, ⟨a, b, c, 0, 0, .plain, 0⟩⟩
  | .mov a b => some ⟨0, 3, 0, ⟨a, b, none, 0, 0, .plain, 0⟩⟩
  | .neg a b => some ⟨0, 3, 1, ⟨a, b, none, 0, 0, .plain, 0⟩⟩
  | .notX a b => some ⟨0, 3, 2, ⟨a, b, none, 0, 0, .plain, 0⟩⟩
  | .clz a b => some ⟨0, 3, 3, ⟨a, b, none, 0, 0, .plain, 0⟩⟩
  | .ctz a b => some ⟨0, 3, 4, ⟨a, b, none, 0, 0, .plain, 0⟩⟩
  | .popc a b => some ⟨0, 3, 5, ⟨a, b, none, 0, 0, .plain, 0⟩⟩
  | .sextb a b => some ⟨0, 3, 6, ⟨a, b, none, 0, 0, .plain, 0⟩⟩
  | .sexth a b => some ⟨0, 3, 7, ⟨a, b, none, 0, 0, .plain, 0⟩⟩
  | .ceq a b => some ⟨0, 4, 0, ⟨a, b, none, 0, 0, .plain, 0⟩⟩
  | .cne a b => some ⟨0, 4, 1, ⟨a, b, none, 0, 0, .plain, 0⟩⟩
  | .clt a b => some ⟨0, 4, 2, ⟨a, b, none, 0, 0, .plain, 0⟩⟩
  | .cge a b => some ⟨0, 4, 3, ⟨a, b, none, 0, 0, .plain, 0⟩⟩
  | .cltn a b => some ⟨0, 4, 4, ⟨a, b, none, 0, 0, .plain, 0⟩⟩
  | .cgen a b => some ⟨0, 4, 5, ⟨a, b, none, 0, 0, .plain, 0⟩⟩
  | .tst a b => some ⟨0, 4, 6, ⟨a, b, none, 0, 0, .plain, 0⟩⟩
  | .movt a => some ⟨0, 4, 7, ⟨a, 0, none, 0, 0, .plain, 0⟩⟩
  | .addi a imm => some ⟨0, 5, 0, ⟨a, 0, none, imm, 0, .plain, 0⟩⟩
  | .li a imm => some ⟨0, 6, 0, ⟨a, 0, none, imm, 0, .plain, 0⟩⟩
  | .andi a imm => some ⟨0, 7, 0, ⟨a, 0, none, imm, 0, .plain, 0⟩⟩
  | .ori a imm => some ⟨0, 8, 0, ⟨a, 0, none, imm, 0, .plain, 0⟩⟩
  | .xori a imm => some ⟨0, 9, 0, ⟨a, 0, none, imm, 0, .plain, 0⟩⟩
  | .ceqi a imm => some ⟨0, 10, 0, ⟨a, 0, none, imm, 0, .plain, 0⟩⟩
  | .clti a imm => some ⟨0, 11, 0, ⟨a, 0, none, imm, 0, .plain, 0⟩⟩
  | .shi a kind amount => some ⟨0, 12, 0, ⟨a, 0, none, 0, (kind ++ amount), .plain, 0⟩⟩
  | .ldw a b imm => some ⟨0, 13, 0, ⟨a, b, none, imm, 0, .plain, 0⟩⟩
  | .stw a b imm => some ⟨0, 14, 0, ⟨a, b, none, imm, 0, .plain, 0⟩⟩
  | .ldb a b imm => some ⟨0, 15, 0, ⟨a, b, none, imm, 0, .plain, 0⟩⟩
  | .ldbn a b imm => some ⟨0, 15, 1, ⟨a, b, none, imm, 0, .plain, 0⟩⟩
  | .ldh a b imm => some ⟨0, 15, 2, ⟨a, b, none, imm, 0, .plain, 0⟩⟩
  | .ldhn a b imm => some ⟨0, 15, 3, ⟨a, b, none, imm, 0, .plain, 0⟩⟩
  | .ldf a b imm => some ⟨0, 15, 4, ⟨a, b, none, imm, 0, .plain, 0⟩⟩
  | .ldd a b imm => some ⟨0, 15, 5, ⟨a, b, none, imm, 0, .plain, 0⟩⟩
  | .stb a b imm => some ⟨0, 16, 0, ⟨a, b, none, imm, 0, .plain, 0⟩⟩
  | .sth a b imm => some ⟨0, 16, 2, ⟨a, b, none, imm, 0, .plain, 0⟩⟩
  | .stf a b imm => some ⟨0, 16, 4, ⟨a, b, none, imm, 0, .plain, 0⟩⟩
  | .std a b imm => some ⟨0, 16, 5, ⟨a, b, none, imm, 0, .plain, 0⟩⟩
  | .bf imm => some ⟨0, 17, 0, ⟨0, 0, none, imm, 0, .plain, 0⟩⟩
  | .bt imm => some ⟨0, 17, 1, ⟨0, 0, none, imm, 0, .plain, 0⟩⟩
  | .jmp imm => some ⟨0, 18, 0, ⟨0, 0, none, imm, 0, .plain, 0⟩⟩
  | .jal imm => some ⟨0, 19, 0, ⟨0, 0, none, imm, 0, .plain, 0⟩⟩
  | .jr b imm => some ⟨0, 20, 0, ⟨0, b, none, imm, 0, .plain, 0⟩⟩
  | .jalr a b imm => some ⟨0, 20, 1, ⟨a, b, none, imm, 0, .plain, 0⟩⟩
  | .loop a k => some ⟨0, 21, 0, ⟨a, 0, none, 0, (k.setWidth 7), .plain, 0⟩⟩
  | .srd a b => some ⟨0, 22, 0, ⟨a, (b.setWidth 5), none, 0, 0, .plain, 0⟩⟩
  | .swr a b => some ⟨0, 22, 1, ⟨a, (b.setWidth 5), none, 0, 0, .plain, 0⟩⟩
  | .srdf a b => some ⟨0, 22, 2, ⟨a, (b.setWidth 5), none, 0, 0, .plain, 0⟩⟩
  | .swrf a b => some ⟨0, 22, 3, ⟨a, (b.setWidth 5), none, 0, 0, .plain, 0⟩⟩
  | .endCtx => some ⟨0, 23, 0, ⟨0, 0, none, 0, 0, .plain, 0⟩⟩
  | .endFail => some ⟨0, 23, 1, ⟨0, 0, none, 0, 0, .plain, 0⟩⟩
  | .yield => some ⟨0, 23, 2, ⟨0, 0, none, 0, 0, .plain, 0⟩⟩
  | .spawn a b => some ⟨0, 23, 3, ⟨a, b, none, 0, 0, .plain, 0⟩⟩
  | .trap code => some ⟨0, 23, 4, ⟨(code.setWidth 5), 0, none, 0, 0, .plain, 0⟩⟩
  | .eret => some ⟨0, 23, 5, ⟨0, 0, none, 0, 0, .plain, 0⟩⟩
  | .nop => some ⟨0, 23, 6, ⟨0, 0, none, 0, 0, .plain, 0⟩⟩
  | .srr a reg => some ⟨0, 24, 0, ⟨a, 0, none, (reg.setWidth 32), 0, .plain, 0⟩⟩
  | .srw a reg => some ⟨0, 25, 0, ⟨a, 0, none, (reg.setWidth 32), 0, .plain, 0⟩⟩
  | .pca a imm => some ⟨0, 26, 0, ⟨a, 0, none, imm, 0, .plain, 0⟩⟩
  | .ipref imm => some ⟨0, 27, 0, ⟨0, 0, none, imm, 0, .plain, 0⟩⟩
  | .fadd a b c => some ⟨1, 0, 0, ⟨a, b, c, 0, 0, .plain, 0⟩⟩
  | .fsub a b c => some ⟨1, 0, 1, ⟨a, b, c, 0, 0, .plain, 0⟩⟩
  | .fmul a b c => some ⟨1, 0, 2, ⟨a, b, c, 0, 0, .plain, 0⟩⟩
  | .fdiv a b c => some ⟨1, 0, 3, ⟨a, b, c, 0, 0, .plain, 0⟩⟩
  | .fmin a b c => some ⟨1, 0, 4, ⟨a, b, c, 0, 0, .plain, 0⟩⟩
  | .fmax a b c => some ⟨1, 0, 5, ⟨a, b, c, 0, 0, .plain, 0⟩⟩
  | .fma a b c => some ⟨1, 1, 0, ⟨a, b, (some c), 0, 0, .plain, 0⟩⟩
  | .fms a b c => some ⟨1, 1, 1, ⟨a, b, (some c), 0, 0, .plain, 0⟩⟩
  | .fnma a b c => some ⟨1, 1, 2, ⟨a, b, (some c), 0, 0, .plain, 0⟩⟩
  | .fnms a b c => some ⟨1, 1, 3, ⟨a, b, (some c), 0, 0, .plain, 0⟩⟩
  | .fsqrt a b => some ⟨1, 2, 0, ⟨a, b, none, 0, 0, .plain, 0⟩⟩
  | .fneg a b => some ⟨1, 2, 1, ⟨a, b, none, 0, 0, .plain, 0⟩⟩
  | .fabs a b => some ⟨1, 2, 2, ⟨a, b, none, 0, 0, .plain, 0⟩⟩
  | .fmov a b => some ⟨1, 2, 3, ⟨a, b, none, 0, 0, .plain, 0⟩⟩
  | .feq a b => some ⟨1, 3, 0, ⟨a, b, none, 0, 0, .plain, 0⟩⟩
  | .flt a b => some ⟨1, 3, 1, ⟨a, b, none, 0, 0, .plain, 0⟩⟩
  | .fle a b => some ⟨1, 3, 2, ⟨a, b, none, 0, 0, .plain, 0⟩⟩
  | .funord a b => some ⟨1, 3, 3, ⟨a, b, none, 0, 0, .plain, 0⟩⟩
  | .fclass a b => some ⟨1, 3, 4, ⟨a, b, none, 0, 0, .plain, 0⟩⟩
  | .fcvtI32 a b => some ⟨1, 4, 0, ⟨a, b, none, 0, 0, .plain, 0⟩⟩
  | .fcvtN32 a b => some ⟨1, 4, 1, ⟨a, b, none, 0, 0, .plain, 0⟩⟩
  | .fmvX a b => some ⟨1, 4, 2, ⟨a, b, none, 0, 0, .plain, 0⟩⟩
  | .fcvtBf16 a b => some ⟨1, 4, 3, ⟨a, b, none, 0, 0, .plain, 0⟩⟩
  | .fcvtE4m3 a b => some ⟨1, 4, 4, ⟨a, b, none, 0, 0, .plain, 0⟩⟩
  | .fcvtE5m2 a b => some ⟨1, 4, 5, ⟨a, b, none, 0, 0, .plain, 0⟩⟩
  | .fcvtBf16Sat a b => some ⟨1, 4, 67, ⟨a, b, none, 0, 0, .plain, 0⟩⟩
  | .fcvtE4m3Sat a b => some ⟨1, 4, 68, ⟨a, b, none, 0, 0, .plain, 0⟩⟩
  | .fcvtE5m2Sat a b => some ⟨1, 4, 69, ⟨a, b, none, 0, 0, .plain, 0⟩⟩
  | .fcvtfI32 a b => some ⟨1, 5, 0, ⟨a, b, none, 0, 0, .plain, 0⟩⟩
  | .fcvtfN32 a b => some ⟨1, 5, 1, ⟨a, b, none, 0, 0, .plain, 0⟩⟩
  | .fmvF a b => some ⟨1, 5, 2, ⟨a, b, none, 0, 0, .plain, 0⟩⟩
  | .fcvtfBf16 a b => some ⟨1, 5, 3, ⟨a, b, none, 0, 0, .plain, 0⟩⟩
  | .fcvtfE4m3 a b => some ⟨1, 5, 4, ⟨a, b, none, 0, 0, .plain, 0⟩⟩
  | .fcvtfE5m2 a b => some ⟨1, 5, 5, ⟨a, b, none, 0, 0, .plain, 0⟩⟩
  | .fld a b imm => some ⟨1, 6, 0, ⟨a, b, none, imm, 0, .plain, 0⟩⟩
  | .fst a b imm => some ⟨1, 7, 0, ⟨a, b, none, imm, 0, .plain, 0⟩⟩
  | .smk a b c => some ⟨1, 8, 0, ⟨a, b, (some c), 0, 0, .plain, 0⟩⟩
  | .snum a b => some ⟨1, 9, 0, ⟨a, b, none, 0, 0, .plain, 0⟩⟩
  | .sden a b => some ⟨1, 9, 1, ⟨a, b, none, 0, 0, .plain, 0⟩⟩
  | .sbnd a b => some ⟨1, 9, 2, ⟨a, b, none, 0, 0, .plain, 0⟩⟩
  | .smed a b c => some ⟨1, 10, 0, ⟨a, b, c, 0, 0, .plain, 0⟩⟩
  | .srec a b => some ⟨1, 10, 1, ⟨a, b, none, 0, 0, .plain, 0⟩⟩
  | .scvtf a b => some ⟨1, 11, 0, ⟨a, b, none, 0, 0, .plain, 0⟩⟩
  | .fcvts a b => some ⟨1, 11, 1, ⟨a, b, none, 0, 0, .plain, 0⟩⟩
  | .vaddI a b c m => some ⟨2, 0, 0, ⟨a, b, c, 0, 0, m, 0⟩⟩
  | .vsubI a b c m => some ⟨2, 0, 1, ⟨a, b, c, 0, 0, m, 0⟩⟩
  | .vmulI a b c m => some ⟨2, 0, 2, ⟨a, b, c, 0, 0, m, 0⟩⟩
  | .vminI a b c m => some ⟨2, 0, 3, ⟨a, b, c, 0, 0, m, 0⟩⟩
  | .vmaxI a b c m => some ⟨2, 0, 4, ⟨a, b, c, 0, 0, m, 0⟩⟩
  | .vand a b c m => some ⟨2, 0, 5, ⟨a, b, c, 0, 0, m, 0⟩⟩
  | .vor a b c m => some ⟨2, 0, 6, ⟨a, b, c, 0, 0, m, 0⟩⟩
  | .vxor a b c m => some ⟨2, 0, 7, ⟨a, b, c, 0, 0, m, 0⟩⟩
  | .vsll a b c m => some ⟨2, 0, 8, ⟨a, b, c, 0, 0, m, 0⟩⟩
  | .vsrl a b c m => some ⟨2, 0, 9, ⟨a, b, c, 0, 0, m, 0⟩⟩
  | .vsra a b c m => some ⟨2, 0, 10, ⟨a, b, c, 0, 0, m, 0⟩⟩
  | .vaddsI a b c m => some ⟨2, 0, 11, ⟨a, b, c, 0, 0, m, 0⟩⟩
  | .vsubsI a b c m => some ⟨2, 0, 12, ⟨a, b, c, 0, 0, m, 0⟩⟩
  | .vaddF a b c m => some ⟨2, 1, 0, ⟨a, b, c, 0, 0, m, 0⟩⟩
  | .vsubF a b c m => some ⟨2, 1, 1, ⟨a, b, c, 0, 0, m, 0⟩⟩
  | .vmulF a b c m => some ⟨2, 1, 2, ⟨a, b, c, 0, 0, m, 0⟩⟩
  | .vdivF a b c m => some ⟨2, 1, 3, ⟨a, b, c, 0, 0, m, 0⟩⟩
  | .vminF a b c m => some ⟨2, 1, 4, ⟨a, b, c, 0, 0, m, 0⟩⟩
  | .vmaxF a b c m => some ⟨2, 1, 5, ⟨a, b, c, 0, 0, m, 0⟩⟩
  | .vfma a b c m => some ⟨2, 2, 0, ⟨a, b, (some c), 0, 0, m, 0⟩⟩
  | .vfms a b c m => some ⟨2, 2, 1, ⟨a, b, (some c), 0, 0, m, 0⟩⟩
  | .vsel a b c m => some ⟨2, 2, 2, ⟨a, b, (some c), 0, 0, m, 0⟩⟩
  | .vceqI a b c m => some ⟨2, 3, 0, ⟨a, b, c, 0, 0, m, 0⟩⟩
  | .vcltI a b c m => some ⟨2, 3, 1, ⟨a, b, c, 0, 0, m, 0⟩⟩
  | .vcltnI a b c m => some ⟨2, 3, 2, ⟨a, b, c, 0, 0, m, 0⟩⟩
  | .vceqF a b c m => some ⟨2, 3, 3, ⟨a, b, c, 0, 0, m, 0⟩⟩
  | .vcltF a b c m => some ⟨2, 3, 4, ⟨a, b, c, 0, 0, m, 0⟩⟩
  | .vcleF a b c m => some ⟨2, 3, 5, ⟨a, b, c, 0, 0, m, 0⟩⟩
  | .vcunF a b c m => some ⟨2, 3, 6, ⟨a, b, c, 0, 0, m, 0⟩⟩
  | .vcvtFI a b m => some ⟨2, 4, 0, ⟨a, b, none, 0, 0, m, 0⟩⟩
  | .vcvtIF a b m => some ⟨2, 4, 1, ⟨a, b, none, 0, 0, m, 0⟩⟩
  | .vcvtBf16F a b m => some ⟨2, 4, 2, ⟨a, b, none, 0, 0, m, 0⟩⟩
  | .vcvtFBf16 a b m => some ⟨2, 4, 3, ⟨a, b, none, 0, 0, m, 0⟩⟩
  | .vcvtE4m3F a b m => some ⟨2, 4, 4, ⟨a, b, none, 0, 0, m, 0⟩⟩
  | .vcvtE5m2F a b m => some ⟨2, 4, 5, ⟨a, b, none, 0, 0, m, 0⟩⟩
  | .vcvtFE4m3 a b m => some ⟨2, 4, 6, ⟨a, b, none, 0, 0, m, 0⟩⟩
  | .vcvtFE5m2 a b m => some ⟨2, 4, 7, ⟨a, b, none, 0, 0, m, 0⟩⟩
  | .vcvtBf16FSat a b m => some ⟨2, 4, 66, ⟨a, b, none, 0, 0, m, 0⟩⟩
  | .vcvtE4m3FSat a b m => some ⟨2, 4, 68, ⟨a, b, none, 0, 0, m, 0⟩⟩
  | .vcvtE5m2FSat a b m => some ⟨2, 4, 69, ⟨a, b, none, 0, 0, m, 0⟩⟩
  | .vaddFs a b c m => some ⟨2, 5, 0, ⟨a, b, (some c), 0, 0, m, 0⟩⟩
  | .vmulFs a b c m => some ⟨2, 5, 1, ⟨a, b, (some c), 0, 0, m, 0⟩⟩
  | .vfmaFs a b c m => some ⟨2, 5, 2, ⟨a, b, (some c), 0, 0, m, 0⟩⟩
  | .vbcastX a b m => some ⟨2, 6, 0, ⟨a, b, none, 0, 0, m, 0⟩⟩
  | .vbcastF a b m => some ⟨2, 6, 1, ⟨a, b, none, 0, 0, m, 0⟩⟩
  | .viota a m => some ⟨2, 6, 2, ⟨a, 0, none, 0, 0, m, 0⟩⟩
  | .vextX a b c => some ⟨2, 7, 0, ⟨a, b, (some c), 0, 0, .plain, 0⟩⟩
  | .vinsX a b c => some ⟨2, 8, 0, ⟨a, b, (some c), 0, 0, .plain, 0⟩⟩
  | .vld a b imm m => some ⟨3, 0, 0, ⟨a, b, none, imm, 0, m, 0⟩⟩
  | .vst a b imm m => some ⟨3, 0, 1, ⟨a, b, none, imm, 0, m, 0⟩⟩
  | .vlds a b c imm m => some ⟨3, 0, 2, ⟨a, b, (if c = 0 then none else some c), imm, 0, m, 0⟩⟩
  | .vsts a b c imm m => some ⟨3, 0, 3, ⟨a, b, (if c = 0 then none else some c), imm, 0, m, 0⟩⟩
  | .vldb a b imm m => some ⟨3, 0, 4, ⟨a, b, none, imm, 0, m, 0⟩⟩
  | .vldx a b c imm m => some ⟨3, 1, 0, ⟨a, b, (some c), imm, 0, m, 0⟩⟩
  | .vstx a b c imm m => some ⟨3, 1, 1, ⟨a, b, (some c), imm, 0, m, 0⟩⟩
  | .vperm a b c m => some ⟨3, 2, 0, ⟨a, b, c, 0, 0, m, 0⟩⟩
  | .vzip a b c m => some ⟨3, 2, 1, ⟨a, b, c, 0, 0, m, 0⟩⟩
  | .vunzip a b c m => some ⟨3, 2, 2, ⟨a, b, c, 0, 0, m, 0⟩⟩
  | .vrev a b m => some ⟨3, 2, 3, ⟨a, b, none, 0, 0, m, 0⟩⟩
  | .vslideup a b c m => some ⟨3, 3, 0, ⟨a, b, (some c), 0, 0, m, 0⟩⟩
  | .vslidedn a b c m => some ⟨3, 3, 1, ⟨a, b, (some c), 0, 0, m, 0⟩⟩
  | .vcompress a b m => some ⟨3, 4, 0, ⟨a, b, none, 0, 0, m, 0⟩⟩
  | .vexpand a b m => some ⟨3, 4, 1, ⟨a, b, none, 0, 0, m, 0⟩⟩
  | .vredaddF a b m => some ⟨3, 5, 0, ⟨a, b, none, 0, 0, m, 0⟩⟩
  | .vredmaxF a b m => some ⟨3, 5, 1, ⟨a, b, none, 0, 0, m, 0⟩⟩
  | .vredminF a b m => some ⟨3, 5, 2, ⟨a, b, none, 0, 0, m, 0⟩⟩
  | .vredaddI a b m => some ⟨3, 6, 0, ⟨a, b, none, 0, 0, m, 0⟩⟩
  | .vredmaxI a b m => some ⟨3, 6, 1, ⟨a, b, none, 0, 0, m, 0⟩⟩
  | .vredminI a b m => some ⟨3, 6, 2, ⟨a, b, none, 0, 0, m, 0⟩⟩
  | .vpopc a b m => some ⟨3, 6, 3, ⟨a, b, none, 0, 0, m, 0⟩⟩
  | .vfirst a b m => some ⟨3, 6, 4, ⟨a, b, none, 0, 0, m, 0⟩⟩
  | .vclaim a b => some ⟨3, 7, 0, ⟨a, b, none, 0, 0, .plain, 0⟩⟩
  | .vyield => some ⟨3, 7, 1, ⟨0, 0, none, 0, 0, .plain, 0⟩⟩
  | .vloop a b => some ⟨3, 7, 2, ⟨a, b, none, 0, 0, .plain, 0⟩⟩
  | .vsetvl a b => some ⟨3, 7, 3, ⟨a, b, none, 0, 0, .plain, 0⟩⟩
  | .vsync => some ⟨3, 7, 4, ⟨0, 0, none, 0, 0, .plain, 0⟩⟩
  | .vexp a b m => some ⟨3, 8, 0, ⟨a, b, none, 0, 0, m, 0⟩⟩
  | .vlog a b m => some ⟨3, 8, 1, ⟨a, b, none, 0, 0, m, 0⟩⟩
  | .vrcp a b m => some ⟨3, 8, 2, ⟨a, b, none, 0, 0, m, 0⟩⟩
  | .vrsqrt a b m => some ⟨3, 8, 3, ⟨a, b, none, 0, 0, m, 0⟩⟩
  | .vtanh a b m => some ⟨3, 8, 4, ⟨a, b, none, 0, 0, m, 0⟩⟩
  | .vsigm a b m => some ⟨3, 8, 5, ⟨a, b, none, 0, 0, m, 0⟩⟩
  | .vtopk a b c m => some ⟨3, 9, 0, ⟨a, b, (some c), 0, 0, m, 0⟩⟩
  | .vtnorm a b c => some ⟨3, 9, 1, ⟨a, b, (some c), 0, 0, .plain, 0⟩⟩
  | .vquant a b c => some ⟨3, 10, 0, ⟨a, b, (some c), 0, 0, .plain, 0⟩⟩
  | .vdequant a b c => some ⟨3, 10, 1, ⟨a, b, (some c), 0, 0, .plain, 0⟩⟩
  | .mma a b => some ⟨4, 0, 0, ⟨a, b, none, 0, 0, .plain, 0⟩⟩
  | .mmar a b imm => some ⟨4, 1, 0, ⟨a, b, none, imm, 0, .plain, 0⟩⟩
  | .mlatb a => some ⟨4, 2, 0, ⟨a, 0, none, 0, 0, .plain, 0⟩⟩
  | .mring => some ⟨4, 2, 1, ⟨0, 0, none, 0, 0, .plain, 0⟩⟩
  | .mwait => some ⟨4, 2, 2, ⟨0, 0, none, 0, 0, .plain, 0⟩⟩
  | .msync => some ⟨4, 2, 3, ⟨0, 0, none, 0, 0, .plain, 0⟩⟩
  | .mzero a => some ⟨4, 3, 0, ⟨a, 0, none, 0, 0, .plain, 0⟩⟩
  | .mcswap => some ⟨4, 3, 1, ⟨0, 0, none, 0, 0, .plain, 0⟩⟩
  | .mcrd a b => some ⟨4, 3, 2, ⟨a, b, none, 0, 0, .plain, 0⟩⟩
  | .mcwr a b => some ⟨4, 3, 3, ⟨a, b, none, 0, 0, .plain, 0⟩⟩
  | .mquant a b => some ⟨4, 3, 4, ⟨a, b, none, 0, 0, .plain, 0⟩⟩
  | .msatrd a b => some ⟨4, 3, 5, ⟨a, b, none, 0, 0, .plain, 0⟩⟩
  | .lda a b imm => some ⟨5, 0, 0, ⟨a, b, none, imm, 0, .plain, 0⟩⟩
  | .stl a b imm => some ⟨5, 0, 1, ⟨a, b, none, imm, 0, .plain, 0⟩⟩
  | .fence scope kinds => some ⟨5, 1, 0, ⟨(scope.setWidth 5), (kinds.setWidth 5), none, 0, 0, .plain, 0⟩⟩
  | .jdrain => some ⟨5, 1, 1, ⟨0, 0, none, 0, 0, .plain, 0⟩⟩
  | .aadd a b c => some ⟨5, 2, 0, ⟨a, b, (some c), 0, 0, .plain, 0⟩⟩
  | .faddb a b c => some ⟨5, 2, 1, ⟨a, b, (some c), 0, 0, .plain, 0⟩⟩
  | .incw a b c => some ⟨5, 2, 2, ⟨a, b, (some c), 0, 0, .plain, 0⟩⟩
  | .aswap a b c => some ⟨5, 2, 3, ⟨a, b, (some c), 0, 0, .plain, 0⟩⟩
  | .acas a b c => some ⟨5, 2, 4, ⟨a, b, (some c), 0, 0, .plain, 0⟩⟩
  | .aand a b c => some ⟨5, 2, 5, ⟨a, b, (some c), 0, 0, .plain, 0⟩⟩
  | .aor a b c => some ⟨5, 2, 6, ⟨a, b, (some c), 0, 0, .plain, 0⟩⟩
  | .amax a b c => some ⟨5, 2, 7, ⟨a, b, (some c), 0, 0, .plain, 0⟩⟩
  | .accI a b => some ⟨5, 3, 0, ⟨a, b, none, 0, 0, .plain, 0⟩⟩
  | .accF a b => some ⟨5, 3, 1, ⟨a, b, none, 0, 0, .plain, 0⟩⟩
  | .accsq a b => some ⟨5, 3, 2, ⟨a, b, none, 0, 0, .plain, 0⟩⟩
  | .flushr => some ⟨5, 3, 3, ⟨0, 0, none, 0, 0, .plain, 0⟩⟩
  | .job a b => some ⟨5, 4, 0, ⟨a, b, none, 0, 0, .plain, 0⟩⟩
  | .pollj b => some ⟨5, 4, 1, ⟨0, b, none, 0, 0, .plain, 0⟩⟩
  | .waitj b => some ⟨5, 4, 2, ⟨0, b, none, 0, 0, .plain, 0⟩⟩
  | .aload a b => some ⟨6, 0, 0, ⟨a, b, none, 0, 0, .plain, 0⟩⟩
  | .afree b => some ⟨6, 0, 1, ⟨0, b, none, 0, 0, .plain, 0⟩⟩
  | .alahead a b => some ⟨6, 0, 2, ⟨a, b, none, 0, 0, .plain, 0⟩⟩
  | .connect a b c => some ⟨6, 1, 0, ⟨(a.setWidth 5), b, (some c), 0, 0, .plain, 0⟩⟩
  | .accept a b c => some ⟨6, 1, 1, ⟨(a.setWidth 5), b, (some c), 0, 0, .plain, 0⟩⟩
  | .epname a b => some ⟨6, 2, 0, ⟨a, (b.setWidth 5), none, 0, 0, .plain, 0⟩⟩
  | .estat a b => some ⟨6, 2, 1, ⟨a, (b.setWidth 5), none, 0, 0, .plain, 0⟩⟩
  | .epset a b => some ⟨6, 2, 2, ⟨(a.setWidth 5), b, none, 0, 0, .plain, 0⟩⟩
  | .epmod a b => some ⟨6, 2, 3, ⟨(a.setWidth 5), b, none, 0, 0, .plain, 0⟩⟩
  | .close a => some ⟨6, 2, 4, ⟨(a.setWidth 5), 0, none, 0, 0, .plain, 0⟩⟩
  | .send a b imm => some ⟨6, 3, 0, ⟨(a.setWidth 5), b, none, imm, 0, .plain, 0⟩⟩
  | .recv a b imm => some ⟨6, 3, 1, ⟨(a.setWidth 5), b, none, imm, 0, .plain, 0⟩⟩
  | .sendv a b => some ⟨6, 4, 0, ⟨(a.setWidth 5), b, none, 0, 0, .plain, 0⟩⟩
  | .recvv a b => some ⟨6, 4, 1, ⟨(a.setWidth 5), b, none, 0, 0, .plain, 0⟩⟩
  | .sendx a b => some ⟨6, 5, 0, ⟨(a.setWidth 5), b, none, 0, 0, .plain, 0⟩⟩
  | .recvx a b => some ⟨6, 5, 1, ⟨(a.setWidth 5), b, none, 0, 0, .plain, 0⟩⟩
  | .select a label => some ⟨6, 6, 0, ⟨(a.setWidth 5), 0, none, 0, (label.setWidth 7), .plain, 0⟩⟩
  | .offer a b => some ⟨6, 7, 0, ⟨a, (b.setWidth 5), none, 0, 0, .plain, 0⟩⟩
  | .dsend a b => some ⟨6, 8, 0, ⟨(a.setWidth 5), (b.setWidth 5), none, 0, 0, .plain, 0⟩⟩
  | .drecv a b => some ⟨6, 8, 1, ⟨(a.setWidth 5), (b.setWidth 5), none, 0, 0, .plain, 0⟩⟩
  | .sbind a b => some ⟨6, 9, 0, ⟨(a.setWidth 5), (b.setWidth 5), none, 0, 0, .plain, 0⟩⟩
  | .sbinda a b => some ⟨6, 9, 1, ⟨(a.setWidth 5), b, none, 0, 0, .plain, 0⟩⟩
  | .sunbind a => some ⟨6, 9, 2, ⟨(a.setWidth 5), 0, none, 0, 0, .plain, 0⟩⟩
  | .vksend a b c => some ⟨6, 10, 0, ⟨(a.setWidth 5), b, (some c), 0, 0, .plain, 0⟩⟩
  | .raucfg a b => some ⟨6, 11, 0, ⟨a, b, none, 0, 0, .plain, 0⟩⟩
  | .emit a sig => some ⟨7, 0, 0, ⟨a, 0, none, 0, (sig.setWidth 7), .plain, 0⟩⟩
  | .noemit sig => some ⟨7, 1, 0, ⟨0, 0, none, 0, (sig.setWidth 7), .plain, 0⟩⟩
  | .absb sig imm => some ⟨7, 2, 0, ⟨0, 0, none, imm, 0, .plain, sig⟩⟩
  | .pres sig imm => some ⟨7, 2, 1, ⟨0, 0, none, imm, 0, .plain, sig⟩⟩
  | .sval a sig => some ⟨7, 3, 0, ⟨a, 0, none, 0, (sig.setWidth 7), .plain, 0⟩⟩
  | .pause => some ⟨7, 4, 0, ⟨0, 0, none, 0, 0, .plain, 0⟩⟩
  | .pauseUp => some ⟨7, 4, 1, ⟨0, 0, none, 0, 0, .plain, 0⟩⟩
  | .domnew a b => some ⟨7, 5, 0, ⟨a, b, none, 0, 0, .plain, 0⟩⟩
  | .domfree b => some ⟨7, 5, 1, ⟨0, b, none, 0, 0, .plain, 0⟩⟩
  | .dlyw a b => some ⟨7, 6, 0, ⟨(a.setWidth 5), b, none, 0, 0, .plain, 0⟩⟩
  | .dlyr a b => some ⟨7, 6, 1, ⟨a, (b.setWidth 5), none, 0, 0, .plain, 0⟩⟩
  | .waiteq b c => some ⟨7, 7, 0, ⟨0, b, (some c), 0, 0, .plain, 0⟩⟩
  | .waitne b c => some ⟨7, 7, 1, ⟨0, b, (some c), 0, 0, .plain, 0⟩⟩
  | .bell b => some ⟨7, 8, 0, ⟨0, b, none, 0, 0, .plain, 0⟩⟩
  | .brk code => some ⟨8, 0, 0, ⟨(code.setWidth 5), 0, none, 0, 0, .plain, 0⟩⟩
  | .tracem b => some ⟨8, 0, 1, ⟨0, b, none, 0, 0, .plain, 0⟩⟩
  | .trig => some ⟨8, 0, 2, ⟨0, 0, none, 0, 0, .plain, 0⟩⟩
  | .icinv b => some ⟨8, 1, 0, ⟨0, b, none, 0, 0, .plain, 0⟩⟩
  | .icinva => some ⟨8, 1, 1, ⟨0, 0, none, 0, 0, .plain, 0⟩⟩
  | .winset a b => some ⟨8, 2, 0, ⟨a, b, none, 0, 0, .plain, 0⟩⟩
  | .winget a b => some ⟨8, 2, 1, ⟨a, b, none, 0, 0, .plain, 0⟩⟩
  | .halt => some ⟨8, 2, 2, ⟨0, 0, none, 0, 0, .plain, 0⟩⟩
  | .scrub b => some ⟨8, 2, 3, ⟨0, b, none, 0, 0, .plain, 0⟩⟩
  | .sqTailDoorbell _ _ => none
  | .amBell _ _ => none
  | .activeMessage _ => none
  | .launch _ => none
  | .template _ => none
  | .loader _ => none
  | .loaderStop _ => none
  | .launchEligible _ _ => none
  | .advertisement _ _ => none
  | .batch => none
  | .teamPlacement _ => none
  | .teamLoadComplete _ _ _ => none
  | .completionRecord _ _ => none
  | .msixUnmask _ _ => none
  | .recordConsume _ _ => none
  | .producerComplete _ _ => none
  | .swapStart _ _ => none
  | .quantumBoundary _ _ => none
  | .lineFill _ => none
  | .fillArrival _ _ _ => none
  | .scheduleSlip _ => none
  | .loadReturn _ => none
  | .trapDelivery _ => none
  | .tvecWrite _ => none
  | .registerWrite _ _ => none
  | .sequencerStart _ => none
  | .claimGrant _ => none
  | .arrayService _ => none
  | .tileOperation _ => none
  | .matrixCommandStart _ => none
  | .ringStep _ => none
  | .subarrayGate _ _ => none
  | .mchainCancel => none
  | .storePerformed _ _ => none
  | .storeAck _ _ => none
  | .storeRefusal _ _ => none
  | .journalClear _ => none
  | .translationRequest _ _ => none
  | .translationDone _ => none
  | .jobStart _ => none
  | .jobEnd _ _ => none
  | .connectRequest _ => none
  | .connectOutcome _ => none
  | .messageArrival _ => none
  | .creditFlit _ _ => none
  | .creditArrival _ => none
  | .closeNotice _ => none
  | .moved _ => none
  | .movedAtStub _ => none
  | .releaseNotice _ => none
  | .teamResident _ => none
  | .contributionApply _ => none
  | .signalDecided _ _ => none
  | .causalityCycle _ => none
  | .instantEnd _ => none
  | .watchdogExpiry _ => none
  | .domWrite _ _ => none
  | .bellRingArrival _ => none
  | .bellwaitLoad _ _ => none
  | .bellcntStore _ _ => none
  | .barcfgStore _ _ => none
  | .bararrLoad _ _ => none
  | .barrierRelease _ _ => none
  | .mutexLoad _ _ => none
  | .mutexStore _ => none
  | .monitorWake _ => none
  | .accMerge _ _ => none
  | .accumulateArrival _ => none
  | .quotaWindow _ _ => none
  | .refusalReturn _ => none
  | .accAck _ => none
  | .residualAgeing _ _ => none
  | .remoteAtomic _ => none
  | .switchStop _ => none
  | .save _ => none
  | .restore _ => none
  | .switchResume _ => none
  | .queueTeardown _ => none
  | .teardownStop _ => none
  | .functionLevelReset _ => none
  | .traceUnfreeze => none
  | .tracedat3Read _ => none
  | .sliceTraceEnable _ => none
  | .slcdat3Read _ => none
  | .tlbInvalidate _ => none
  | .tlbInvalidateDone _ => none
  | .attestRequest _ => none
  | .attestReportReady _ => none
  | .hostBarRead _ _ _ _ => none
  | .hostBarWrite _ _ _ _ _ => none
  | .linkFlitReceive _ _ => none
  | .linkReplay _ _ => none
  | .ackTimeout _ => none
  | .linkRetrain _ => none
  | .linkDown _ => none
  | .linkUp _ => none
  | .powerOnReset => none
  | .bootStage _ => none
  | .powerThrottle _ => none
  | .thermalThrottle _ _ => none
  | .thermalShutdown _ => none
  | .telemetryUpdate => none
  | .machineReport => none
  | .tapReset => none
  | .bypass => none
  | .idcode => none
  | .sample => none
  | .extest => none
  | .dbgRead _ _ _ => none
  | .dbgWrite _ _ _ _ => none
  | .haltreq _ => none
  | .dbgResume _ => none
  | .dbgStatus _ => none
  | .hostQueueCreate _ _ => none
  | .partitionChange _ _ => none
  | .switchSchedule _ _ _ => none
  | .retrainComplete _ => none
  | .softError _ _ => none

/-- The fewest PFI words, up to `n`, that represent a value (05 R124). -/
def pfiCount (signed : Bool) (bw : Nat) (v : BitVec 32) (n : Nat) : Nat :=
  if Wf.fits signed bw 0 v ∨ n = 0 then 0
  else if Wf.fits signed bw 1 v ∨ n = 1 then 1
  else if Wf.fits signed bw 2 v ∨ n = 2 then 2 else 3

/-- The value of an immediate as `w` bits above the base: copies of bit 31 above bit 31. -/
def wideImm (v : BitVec 32) : Nat := if v.msb then v.toNat + (2 ^ 64 - 2 ^ 32) else v.toNat

/-- The `k` PFI payloads above a base immediate of `bw` bits, most significant first. -/
def pfiWords (bw : Nat) (v : BitVec 32) (k : Nat) : List (BitVec 11) :=
  let p (i : Nat) : BitVec 11 := BitVec.ofNat 11 (wideImm v / 2 ^ (bw + 11 * i))
  match k with
  | 0 => []
  | 1 => [p 0]
  | 2 => [p 1, p 0]
  | _ => [p 2, p 1, p 0]

/-- The PFR a group needs: one when c stands in it, a field needs bit 4 or a mask field is set (05 R122). -/
def needPfr (o : Operands) : Bool := o.c.isSome || !Wf.low o.a || !Wf.low o.b || o.m != .plain

/-- The payload of a PFR (04 R92). -/
def pfrBits (o : Operands) : BitVec 11 :=
  BitVec.ofNat 11 (o.a.toNat / 16 * 2 ^ 10 + o.b.toNat / 16 * 2 ^ 9 + (o.c.getD 0).toNat * 2 ^ 4 + o.m.msel.toNat * 4
    + bit o.m.mpol * 2 + bit o.m.tpol)

/-- The base word of a format (04 R88). -/
def baseWord (r : Row) (f : Fields) : HWord :=
  let imm := if r.imm = .fld then f.o.low.toNat else f.o.imm.toNat
  BitVec.ofNat 16 (f.prim * 2 ^ 11 +
    match r.fmt with
    | .rr => f.o.a.toNat % 16 * 2 ^ 7 + f.o.b.toNat % 16 * 2 ^ 3 + f.F % 8
    | .rr0 => f.o.a.toNat % 16 * 2 ^ 7 + f.o.b.toNat % 16 * 2 ^ 3 + f.F % 8
    | .ri => f.o.a.toNat % 16 * 2 ^ 7 + imm % 2 ^ 7
    | .rri => f.o.a.toNat % 16 * 2 ^ 7 + f.o.b.toNat % 16 * 2 ^ 3 + imm % 2 ^ 3
    | .b => f.F % 2 * 2 ^ 10 + imm % 2 ^ 10
    | .bs => f.F % 2 * 2 ^ 10 + imm % 2 ^ 10
    | .j => imm % 2 ^ 11)

/-- The group of given fields: PFP, PFR, PFI most significant first, base word (04, "Encoding examples"). -/
def encodeFields (r : Row) (f : Fields) : List HWord :=
  let pfp := f.page != 0
  let ext := if r.fmt = .bs then f.o.sig.toNat else if r.fmt.hasF then f.F / 8 else 0
  let pfr := needPfr f.o
  let k := if r.imm = .none ∨ r.imm = .fld then 0 else pfiCount (r.imm == .s) r.fmt.immWidth f.o.imm (Wf.room pfp pfr)
  (if pfp then [BitVec.ofNat 16 (0xF000 + f.page.toNat * 2 ^ 7 + ext % 128)] else []) ++
  (if pfr then [(0b11101 : BitVec 5) ++ pfrBits f.o] else []) ++
  (pfiWords r.fmt.immWidth f.o.imm k).map ((0b11100 : BitVec 5) ++ ·) ++
  [baseWord r f]

/-- The words of an instruction; none for an event, which has no encoding. -/
noncomputable def encode (i : Instr) : Option (List HWord) :=
  match i.fields with
  | none => none
  | some f => (Opcode.lookup f.page f.prim f.F).map (encodeFields · f)

end Sys2Proof
end

