-- ==== Sys2Proof/Machine/State.lean ====
section
/-!
DEFINITION. Machine/State.lean: everything the spec gives the machine, as plain data, and the machine after reset.
Maps from names or numbers to records are association lists; a key that is not listed has the record's reset value.
-/
namespace Sys2Proof.Machine

/-- Why a step stops the machine. -/
inductive Fault where
  /-- Raised by every step but POWER_ON_RESET while the module is held in reset after 110 °C (22 R537): nothing runs
  until power cycles. Safe: the hardware does nothing either. -/
  | heldInReset
  deriving DecidableEq, Repr

/-- Why an instruction has no meaning. -/
inductive Refusal where
  /-- Raised by the arm of an instruction that is not modelled. Safe: the machine stops where the hardware goes on. -/
  | notModelled (mnemonic : String)
  deriving DecidableEq, Repr

/-! ### Contexts -/

/-- Whether a context is idle, reserved by a placement, live (started and not retired), or holds a saved team (03 R56,
12 R342). -/
inductive Phase where
  | idle | reserved | live | saved
  deriving DecidableEq, Repr

/-- What started a context: a member of a team of a launch of a host queue (02 R29), an active message of a queue
(03 R58), a loader program of a queue (03 R84), or service firmware (01 R23). -/
inductive Origin where
  | none
  | member (q : Nat) (lid : Word) (team member : Nat)
  | message (q : Nat)
  | loader (q : Nat)
  | firmware
  deriving DecidableEq, Repr

/-- What a context waits for before its next group can complete (06 R138, R139). `job` waits for the copy unit to write a mailbox, until
`written` (12 R367). After `badFill` nothing is waited for: the fill of its line has failed, and its next group takes the fetch fault
with that cause (04 R114). -/
inductive Wait where
  | none | interlock | fill | load | endpoint | signal (sig : BitVec 6) (settle : Bool) | event | monitor | lanes | sequencer
  | job (mailbox : Word) (written : Bool) | retire | halt | badFill (cause : BitVec 8)
  deriving DecidableEq, Repr

/-- A wait of a group that has issued: for data, on the event unit or a monitored word, for lanes or a job, in HALT and in END (06 R138, R140).
A group that waits for an interlock, a line or a sequencer entry has not, nor one on an endpoint or a signal (DESIGN CHOICE: R138 makes the
context not ready, and no rule says whether its group counts as issued; log 3). -/
def Wait.issued : Wait → Bool
  | .load | .event | .monitor | .lanes | .job _ _ | .retire | .halt => true
  | .none | .interlock | .fill | .endpoint | .signal _ _ | .sequencer | .badFill _ => false

/-- How a context retires: END, END.FAIL, a fatal trap with its cause, or a stop by teardown (06 R175, R176; 18 R491). -/
inductive Retire where
  | ended | failed | fatal (cause : BitVec 8) | stopped
  deriving DecidableEq, Repr

/-- A load or returning atomic of a context that waits for its data (06 R138, 12 R341, 16 R461): a load requested, with the home
word and the size in bytes; a load of 8 bytes of which one word, the high one or the low one, has been read (17 R464); an atomic on its
way, with its function and operands x[c] and x[c+1]; a load of the translation port, which waits for a translation (12 R358); or
returned, with the bytes; or failed, with the cause and TVAL of its trap. A payload is being read or written word by word: its first byte
and length, the bytes that a RECV writes, and the words read or written, by number (17 R464). -/
inductive Pend where
  | none
  | asked (home : Nat) (size : Nat) (ea : Word)
  | half (home : Nat) (ea : Word) (high : Bool) (bytes : List Byte)
  | rmw (home : Nat) (ea : Word) (fn : BitVec 3) (y z : Word)
  | port
  | got (bytes : List Byte)
  | bad (cause : BitVec 8) (tval : Word)
  | payload (flat n : Nat) (put : Option (List Byte)) (done : List (Nat × List Byte))
  deriving DecidableEq, Repr

/-- FPCSR fields (07 R200). -/
structure Fpcsr where
  rnd : BitVec 2
  en : BitVec 5
  sat : Bool
  flags : BitVec 5
  deriving DecidableEq, Repr

/-- RCSR fields (08 R222). -/
structure Rcsr where
  runs : BitVec 6
  rmode : BitVec 3
  en : BitVec 5
  flags : BitVec 5
  deriving DecidableEq, Repr

/-- A DOM register (02 R30). -/
structure DomReg where
  v : Bool
  id : BitVec 10
  deriving DecidableEq, Repr

/-- A shared SRAM window, words W0 to W3 (12 R346). -/
structure Window where
  w0 : Word
  w1 : Word
  w2 : Word
  w3 : Word
  deriving DecidableEq, Repr

/-- An affine generator: the eight descriptor words and the indices of its next element (12 R360, R361). -/
structure Affine where
  words : List Word
  i0 : Nat
  i1 : Nat
  i2 : Nat
  i3 : Nat
  exhausted : Bool
  deriving DecidableEq, Repr

/-- A stream register: unbound, bound to an affine generator, or bound to a receive endpoint (06 R174, 13 R393). -/
inductive Stream where
  | unbound
  | affine (g : Affine)
  | endpoint (e : EReg)
  deriving DecidableEq, Repr

/-- An automaton: its image words, its effective look-aheads and its inbound reservation in bytes (13 R378, R381). -/
structure Auto where
  words : List Word
  outLook : Nat
  inLook : Nat
  resv : Nat
  deriving DecidableEq, Repr

/-- Register states of an endpoint (13 R373). -/
inductive EpSt where
  | none | waiting | opened | closed | delegated | kr
  deriving DecidableEq, Repr

/-- What a channel message carries besides its names: its kind and tag or label (13 R378), its shape, its payload, and
for an endpoint message the delegated end (13 R394): automaton, state, counters, generation, peer and modes, and the
position in a partly read message. -/
structure EpImage where
  auto : Auto
  state : Nat
  ctrs : List Nat
  gen : BitVec 8
  peer : Word
  peerMod : BitVec 9
  peerTen : Nat
  peerLook : Nat
  port : Option Nat
  former : List Word
  /-- the cause, state and counter of a closure that reached it on its way (13 R401) -/
  closed : Option (Nat × Nat × Nat)
  cm : Bool
  cc : Nat
  sent : Nat
  readPos : Nat
  /-- the name it had, which its forwarding stub keeps, and the module of the stub -/
  stub : Word
  stubMod : BitVec 9
  deriving DecidableEq, Repr

/-- A message: its KIND (0 SEND, 2 SELECT, 4 DSEND), tag or label, shape, payload, and delegated end. -/
structure Msg where
  kind : Nat
  tag : Nat
  shape : Nat
  payload : List Byte
  ep : Option EpImage
  deriving DecidableEq, Repr

/-- A request of a CONNECT (13 R385, R386). -/
structure Request where
  src : Word
  srcMod : BitVec 9
  dst : Word
  tenant : Nat
  auto : Auto
  deriving DecidableEq, Repr

/-- The outcome of a CONNECT or ACCEPT not yet reported (PEND, 13 R385): success, a duality failure with its TVAL, or a
reason. -/
inductive ChanOutcome where
  | success
  | dual (tval : Word)
  | reason (code : Nat)
  deriving DecidableEq, Repr

/-- What a holder holds back until the forwarded RELEASE, or a stub holds (13 R394-R396): messages with the slots their sender freed,
credit, a close notice with its cause, state and counter (as in the mesh), MOVED with the new name and module, and RELEASE. -/
inductive StubItem where
  | msg (freed : Nat) (m : Msg)
  | credit (freed : Nat)
  | close (cause : Nat) (state : Option Nat) (ctr : Nat)
  | moved (name : Word) (mod : BitVec 9)
  | release
  deriving DecidableEq, Repr

/-- An endpoint register (13 R373). `sent` counts the messages sent whose slots are not known to be free, `freed` the slots
freed since this end's last message (13 R387); `inbox` holds the messages that have arrived; `closedAt` cause, state and counter
of a closure (13 R397); `asking` the kind and operands of the CONNECT (true) or ACCEPT (false) in progress; `held` a request at
the register (13 R386); `port` the link port of the channel's route, fixed at CONNECT (22 R530); `former` the names the peer had before
it moved (13 R396); `pend` an outcome not yet reported (13 R385); `moving` is set while a new holder awaits the forwarded
RELEASE, and `direct` what it holds back until then (13 R396); `deferred` the messages held for a switched-out peer (13 R402). -/
structure Ep where
  st : EpSt
  cm : Bool
  cc : Nat
  pmod : BitVec 9
  gen : BitVec 8
  reason : Nat
  peer : Word
  peerMod : BitVec 9
  peerTen : Nat
  peerLook : Nat
  port : Option Nat
  former : List Word
  auto : Auto
  slot : Option Nat
  state : Nat
  ctrs : List Nat
  res : Option (Nat × Nat)
  sent : Nat
  freed : Nat
  inbox : List Msg
  readPos : Nat
  closedAt : Nat × Nat × Nat
  asking : Option (Bool × Word × Word)
  pend : Option ChanOutcome
  held : Option Request
  moving : Bool
  direct : List StubItem
  deferred : List (Word × Nat × Msg)
  lost : Bool
  rtab : BitVec 24
  deriving DecidableEq, Repr

/-- Pausing (15 R425, R426): running, paused at PAUSE, or paused at PAUSE.UP (which it stays while its domain is paused in
the parent). -/
inductive Pause where
  | no | paused | pausedUp
  deriving DecidableEq, Repr

/-- An entry of a vector sequencer (10 R256): the context, the instruction, and what it captured at issue: its scalar operands
x[b], x[c] and f[c], its base address, VL, FPCSR.RND, the privilege and the PC of its group. `gone` is set when a later group has
written the scalar register it names, so that its result is no longer wanted, and `tGone` when one has written T (06 R143). `early` holds the elements whose access to
memory has been made before the others, with the words (10 R280, 17 R464). -/
structure SeqEntry where
  ctx : AgentId
  op : Instr
  xb : Word
  xc : Word
  fc : Word
  ea : Word
  vl : Nat
  rnd : BitVec 2
  prv : Bool
  pc : Word
  gone : Bool
  tGone : Bool
  early : List (Nat × Word)
  deriving DecidableEq, Repr

/-- A VLOOP whose body is being collected (10 R263-R265): its count and body length, the entries collected, the VLOOP group's PC
and length, and the loop registers as they stood at it, which a fault in the body restores. -/
structure VLoop where
  count : Nat
  n : Nat
  body : List SeqEntry
  start : Word
  len : Nat
  lcnt : Word
  lend : Word
  lrem : BitVec 5
  lact : Bool
  deriving DecidableEq, Repr

/-- What stands in a sequencer: a single entry, or the body of a VLOOP with the index of the next body entry and the iterations not
yet finished (10 R263, R266). -/
inductive SeqItem where
  | one (e : SeqEntry)
  | loop (ctx : AgentId) (body : List SeqEntry) (count pos iter : Nat)
  deriving DecidableEq, Repr

/-- The receive-accumulate configuration and status of a context (13 R406). -/
structure Rau where
  kind : BitVec 2
  log2bins : BitVec 4
  base : BitVec 18
  sat : Bool
  drop : Bool
  fovf : Bool
  contribs : Nat
  elems : Nat
  deriving DecidableEq, Repr

/-- The matrix chain register MCHAIN (11 R305) and the address and identity of the suspended command (11 R306). -/
structure MChain where
  susp : Bool
  reason : BitVec 2
  cmd : BitVec 4
  k : BitVec 8
  done : BitVec 8
  deriving DecidableEq, Repr

/-- A page 1 group that may still be in flight (06 R142, 07 R203): what it raised of FLAGS and SAT of FPCSR and of FLAGS of RCSR; the cycles that
its latency has left at most; the registers, and T, in which its result stands; and whether it has the divide unit (06 R144). -/
structure Flying where
  fp : BitVec 5
  sat : Bool
  rat : BitVec 5
  left : Nat
  wx : List XReg
  wf : List FReg
  wt : Bool
  divider : Bool
  deriving DecidableEq, Repr

/-- A context of a core or a hart. -/
structure Ctx where
  phase : Phase
  tenant : Nat
  origin : Origin
  child : Bool
  /-- retirement in progress -/
  retiring : Option Retire
  pc : BitVec 48
  x : Vector Word 32
  f : Vector Word 32
  v : Vector (Vector Word 64) 32
  -- CTXSTAT (06 R150)
  prv : Bool
  rm : Bool
  ie : Bool
  lact : Bool
  t : Bool
  pprv : Bool
  pie : Bool
  plact : Bool
  intrap : Bool
  -- 06 R151
  epc : Word
  cause : Word
  tval : Word
  tvec : Word
  kscr0 : Word
  kscr1 : Word
  lcnt : Word
  lstart : Word
  lend : Word
  lrem : BitVec 5
  ptimeh : Word
  pinsth : Word
  pswh : Word
  timeh : Word
  insth : Word
  swh : Word
  fpcsr : Fpcsr
  rcsr : Rcsr
  /-- the page 1 groups that may still be in flight, newest first (07 R203, 08 R224) -/
  flight : List Flying
  -- 02 R30, 15 R417, R429
  dom : Vector DomReg 4
  decl : BitVec 64
  live : BitVec 64
  dcur : Vector Word 8
  dnxt : Vector Word 8
  pause : Pause
  /-- the flags of a paused member as its domain merges them (07 R205, 16 R442) -/
  pauseFlags : BitVec 13
  /-- CAUSALITY_CYCLE and WATCHDOG pending, with their TVAL (15 R424, R431) -/
  causality : Option Word
  watchdog : Option Word
  /-- arrival record of a barrier: barrier, GEN, index (15 R436) -/
  arrival : Option (Nat × Nat × Nat)
  /-- a write has changed the GEN that the arrival waits on (15 R436) -/
  barrierFree : Bool
  -- 10 R249-R254
  want : Nat
  vmin : Nat
  count : Nat
  vl : Nat
  /-- the saved COUNT of a restored context that waits for its lanes (10 R254) -/
  owed : Nat
  vloop : Option VLoop
  -- 11 R301-R306, R324-R326
  mfmt : Word
  mrowmask : Word
  mchain : MChain
  mopaddr : Word
  msatc : Word
  nanRecord : Option Word
  operandTrap : Option Word
  resumable : Bool
  -- 12 R340, R346, R352, R366
  sizek : BitVec 8
  basek : BitVec 7
  jpart : BitVec 2
  jentry : BitVec 4
  windows : Vector Window 8
  jobFaults : List (BitVec 16)
  /-- journal entries whose refusal records were cleared before POSTED_REFUSED was taken for them (06 R184, 12 R352) -/
  clearedRefusals : List Nat
  -- 06 R174, 13
  streams : Vector Stream 4
  eps : Vector Ep 16
  rau : Rau
  /-- key-routed contributions sent and not yet applied or dropped (15 R427) -/
  contribsOut : Nat
  -- 16 R443, R451, R457
  refused : Nat
  drop : Bool
  out : Nat
  mustOut : Nat
  /-- refusals return as must-accept messages (16 R453) -/
  flushing : Bool
  /-- an eviction waits for one of four must-accept messages to be acknowledged (16 R451) -/
  evictWaits : Bool
  -- 18 R493, R476; 04 R116, R117
  post : BitVec 10
  trigon : BitVec 5
  kinds : BitVec 5
  slips : Word
  icmiss : Word
  switchat : BitVec 64
  fetchBuf : List (BitVec 48 × List HWord)
  /-- a miss of the group in progress has been counted; the line the context waits for -/
  missed : Bool
  needLine : Nat
  /-- a LOOP with x[a] = 0 steps over its body and waits for a line (06 R170) -/
  stepping : Bool
  wait : Wait
  pend : Pend
  haltReq : Bool
  halted : Bool
  /-- the words of the HALT in progress (18 R501) -/
  haltGroup : List HWord
  -- 06 R138, R140: the words of the group at the PC when it has issued and waits; else none
  inIssue : List HWord
  /-- stopped for a switch or a teardown (18 R477, R489) -/
  stopped : Bool
  -- 12 R358: the translation port of a memory core: the translations in progress (true: write intent), oldest first
  port : List (Bool × BitVec 48)
  portResult : Vector Word 2
  deriving DecidableEq, Repr

/-! ### Cores -/

/-- What has become of a posted store (12 R350, R351): on its way to the home slice; performed there, its acknowledgment on
its way; refused there, the refusal on its way; or refused, the entry holding the refusal record. -/
inductive Verdict where
  | posted
  | performed
  | rejected (reason : BitVec 3)
  | record (reason : BitVec 3)
  deriving DecidableEq, Repr

/-- An entry of the posted-store journal (12 R350-R352): the context, ea and home word, the byte enables and the data, whether
it is an STL, what has become of it, whether its trap has been taken, its place in the order of stores, and the widest scope at which it has been acknowledged before it was
performed (0: none; 12 R370, 17 R470; log 47). -/
structure JEntry where
  ctx : AgentId
  ea : Word
  home : Nat
  be : BitVec 4
  data : Word
  stl : Bool
  verdict : Verdict
  delivered : Bool
  seqNo : Nat
  past : Nat
  deriving DecidableEq, Repr

/-- An entry of a trace buffer or trace ring: four words (18 R494, R495). -/
structure TraceEntry where
  w0 : Word
  w1 : Word
  w2 : Word
  w3 : Word
  deriving DecidableEq, Repr

/-- What a matrix command makes of the memory that it writes: the words still to be written, flags, overflows, the first new NaN (row ×
32 + column), and whether it clamped (11 R314, R318, R336). -/
structure TileOut where
  writes : List (Nat × Word)
  flags : BitVec 5
  overflows : Nat
  newNan : Option Nat
  sat : Bool
  deriving DecidableEq, Repr

/-- A matrix command in the queue of a core (11 R309): the context, the instruction, and the x operands, MFMT and MROWMASK captured
at issue; its steps and those done; whether it has started, stands at a ring point, is suspended, or is cancelled with ring points left;
the flags and SAT it will record when it completes (11 R315); whether a later group has written the scalar register it names (06
R143); the operand words of its step read before the others, by number; and what the step writes, once all of its reads are made (11
R320). -/
structure MCmd where
  ctx : AgentId
  op : Instr
  xa : Word
  xb : Word
  mfmt : Word
  rowmask : Word
  steps : Nat
  done : Nat
  started : Bool
  atRing : Bool
  susp : Bool
  cancelled : Bool
  flags : BitVec 5
  sat : Bool
  gone : Bool
  early : List (Nat × Word)
  out : Option TileOut
  deriving DecidableEq, Repr

/-- The loop buffer of a core: its holder and the body groups decoded so far, with their PC (06 R172). -/
structure LoopBuf where
  holder : Nat
  groups : List (Word × List HWord)
  deriving DecidableEq, Repr

/-- A core, or the same for a hart. -/
structure Core where
  /-- context chosen last (06 R140) -/
  last : Nat
  loopBuf : Option LoopBuf
  journal : List (Nat × JEntry)
  jseq : Nat
  seq : List SeqItem
  -- matrix side of the core (11 R299, R307, R309)
  latchWidth : Nat
  latch : List Byte
  mqueue : List MCmd
  mweight : Nat
  -- trace buffer (18 R492-R494)
  trace : List (Nat × TraceEntry)
  frozen : Bool
  trigd : Bool
  left : Nat
  head : Nat
  idx : Nat
  deriving DecidableEq, Repr

/-! ### Clusters -/

/-- A line of the instruction cache (04 R112): tenant, address bits [47:6], contents, and its words with an uncorrectable and with a
single-bit error, by number (12 R371). The list of lines stands in order of use, most recent first. -/
structure Line where
  tenant : Nat
  addr : Nat
  words : List HWord
  bad : List Nat
  one : List Nat
  deriving DecidableEq, Repr

/-- A line fill in progress (04 R113); it is discarded on arrival when the line was invalidated meanwhile (18 R499). -/
structure Fill where
  tenant : Nat
  addr : Nat
  discard : Bool
  deriving DecidableEq, Repr

/-- A bell: its count and the contexts that wait for it, oldest first (15 R435). -/
structure Bell where
  count : Nat
  waiters : List AgentId
  deriving DecidableEq, Repr

/-- A barrier configuration (15 R436). -/
structure BarCfg where
  word : BitVec 16
  count : Nat
  deriving DecidableEq, Repr

/-- A mutex: its owner and its waiters, oldest first (15 R437); and whether the owner had waited, so that its load is still to return 1. -/
structure Mutex where
  owner : Option AgentId
  queue : List AgentId
  handed : Bool
  deriving DecidableEq, Repr

/-- An automaton slot in use: its load sequence number, tenant and automaton, whether a DRECV installed it (13 R383, R395), and the host
queue whose work loaded it (13 R384). -/
structure Slot where
  seqNo : BitVec 16
  tenant : Nat
  auto : Auto
  installed : Bool
  queue : Option Nat
  deriving DecidableEq, Repr

/-- A forwarding stub (13 R394-R396): the name of the endpoint it stands for, tenant, the peer with its module, the new holder with
its module and port once MOVED has arrived, what it holds, what it holds from the peer directly, whether an earlier stub still forwards
to it, the port of the channel's route, and the state and counter of the end it stands for. -/
structure Stub where
  name : Word
  tenant : Nat
  peer : Word
  peerMod : BitVec 9
  port : Option Nat
  state : Nat
  ctr : Nat
  target : Option (Word × BitVec 9 × Option Nat)
  items : List StubItem
  direct : List StubItem
  earlier : Bool
  deriving DecidableEq, Repr

/-- A row of a copy job in progress: the words of its source that have been read, with their bytes, and the words of its destination that
have been written, by number (12 R365, 17 R464). -/
structure RowPart where
  row : Nat
  read : List (Nat × List Byte)
  wrote : List Nat
  deriving DecidableEq, Repr

/-- A copy job (12 R362-R366): identifier, submitter, descriptor words, windows at submission, the rows copied and those in progress,
and whether it has started. -/
structure Job where
  id : BitVec 16
  ctx : AgentId
  words : List Word
  windows : Vector Window 8
  done : List Nat
  parts : List RowPart
  started : Bool
  deriving DecidableEq, Repr

/-- A claim of the lane pool (10 R252, R292): the context, WANT and MIN, the destination register and the length of the VCLAIM
group that waits. -/
structure Claim where
  ctx : AgentId
  want : Nat
  min : Nat
  dst : XReg
  words : List HWord
  deriving DecidableEq, Repr

/-- ACCCFG (16 R446). -/
structure AccCfg where
  agex : BitVec 4
  qwx : BitVec 4
  quota : BitVec 8
  mwin : BitVec 8
  deriving DecidableEq, Repr

/-- A cluster's shared units, or the same for a hart: instruction cache, lane pool, matrix unit, event unit, automaton
store and copy unit. -/
structure Cluster where
  lines : List Line
  fills : List Fill
  claims : List Claim
  -- matrix unit (11 R300-R317)
  /-- the C tile the array holds; the arbiter's pointer and the services in a row; the core whose head is in service -/
  held : Option Nat
  pointer : Nat
  served : Nat
  service : Option AgentId
  gated : BitVec 4
  mgateIdle : BitVec 16
  /-- TIME at which a sub-array last took part -/
  lastUse : Vector Nat 4
  satc : List (Nat × (Nat × Bool))
  mrset : BitVec 8
  -- accumulation (16 R446)
  acccfg : AccCfg
  -- automaton store (13 R375, R383, R394)
  slots : List (Nat × Slot)
  loadSeq : BitVec 16
  stubs : List Stub
  -- event unit (15 R434-R437)
  bells : List (Nat × Bell)
  barriers : List (Nat × BarCfg)
  mutexes : List (Nat × Mutex)
  -- copy unit (12 R362-R366)
  jobs : List Job
  jobCounter : BitVec 16
  deriving DecidableEq, Repr

/-! ### Harts, slices, domains -/

/-- The system registers only harts have (22 R540, R543, R544), the translation cache and the row owner table of a memory
core (12 R356, R357), and the machine-report counts of a service core. -/
structure HartRegs where
  tenant : BitVec 6
  /-- TENANT as it stood before a loader program started (03 R85) -/
  former : BitVec 6
  mrbase : BitVec 21
  lost : Nat
  headM : Nat
  tailM : Nat
  slcsel : BitVec 6
  tlbva : BitVec 27
  tlbAll : Bool
  tlbTen : BitVec 6
  /-- the invalidation in progress: tenant, and VA[47:21] of the page or none for all -/
  tlbBusy : Option (Nat × Option Nat)
  /-- translations held: tenant, VA[47:21], row and permissions (bits 0 R, 1 W, 2 X) -/
  tcache : List (Nat × Nat × Nat × Nat)
  /-- row owner table: row, tenant -/
  owners : List (Nat × Nat)
  deriving DecidableEq, Repr

/-- A shared SRAM slice: the accumulates accepted, each with its source cluster and the slice's TIME at which it was (16 R447),
and the trace ring (18 R495, 22 R543). -/
structure Slice where
  quota : List (Nat × Nat)
  en : Bool
  filt : Bool
  ten : BitVec 6
  lo : BitVec 21
  hi : BitVec 21
  wrap : Bool
  headR : Nat
  idxR : Nat
  ring : List (Nat × TraceEntry)
  deriving DecidableEq, Repr

/-- Status of a signal within an instant (15 R418). -/
inductive SigStatus where
  | unknown | present | absent
  deriving DecidableEq, Repr

/-- The span of a domain (15 R416): nothing yet, or one cluster, one stack, or the module. -/
inductive Span where
  | none | cluster (s c : Nat) | stack (s : Nat) | module
  deriving DecidableEq, Repr

/-- A domain (15 R411-R431). `flags` are the 13 merged flags (07 R205). `wdCount` is the watchdog's count, which runs while
`wdOn` is set. -/
structure Domain where
  tenant : Nat
  level : Nat
  parent : Option Nat
  wdog : BitVec 16
  ops : Vector (BitVec 4) 64
  status : Vector SigStatus 64
  value : Vector Word 64
  instant : BitVec 48
  flags : BitVec 13
  span : Span
  wdCount : Nat
  wdOn : Bool
  /-- paused in its parent (15 R426) -/
  pausedInParent : Bool
  deriving DecidableEq, Repr

/-! ### The host side -/

/-- What a doorbell of a host queue asks of its service core (03 R51, R55, R56, R61): a copied message slot, or the submission entries up
to a count; each with its place in the order of arrival. -/
inductive Doorbell where
  | am (slot : Nat) (words : List Word) (seqNo : Nat)
  | sq (tail : BitVec 16) (seqNo : Nat)
  deriving DecidableEq, Repr

/-- A host queue is in use, is being torn down since a time, or has been torn down (18 R489). -/
inductive QueueLife where
  | inUse
  | tearing (since : Nat)
  | torn
  deriving DecidableEq, Repr

/-- A host queue (03 R48-R59). Submission entries and message slots are kept by word number of the window; `olds` are the values that
words of entries not yet taken had before the host changed them (03 R51); `doorbells` are those not yet handled, oldest first; `starting`
is a LOADER entry that has been taken and whose program has not started (03 R84). -/
structure HostQueue where
  svc : Nat
  life : QueueLife
  entries : List (Nat × Word)
  olds : List (Nat × Word)
  sqTail : BitVec 16
  sqHead : BitVec 16
  refCount : Nat
  refEntry : BitVec 8
  refReason : BitVec 4
  slotWords : List (Nat × Word)
  amStatus : Vector (BitVec 4) 8
  doorbells : List Doorbell
  starting : Option (AgentId × List Word)
  amDone : Word
  fv : Bool
  fcause : BitVec 8
  fctx : BitVec 20
  text : BitVec 48
  lstate : BitVec 4
  lstack : Nat
  lchan : Nat
  lcause : BitVec 8
  deriving DecidableEq, Repr

/-- Statuses of a completion record (02 R45). -/
structure Completion where
  status : Nat
  reason : Nat
  deriving DecidableEq, Repr

/-- A place in a site: the context, with its TCM allocation and channel buffer region in KiB (03 R69). -/
structure Seat where
  ctx : AgentId
  tcmBase : Nat
  tcmSize : Nat
  bufBase : Nat
  bufSize : Nat
  deriving DecidableEq, Repr

/-- A site: the cluster, the seats of members 0, 1, ... and the scratchpad allocation in KiB (03 R70, R80). -/
structure Site where
  stack : Nat
  cluster : Nat
  seats : List Seat
  scrBase : Nat
  scrSize : Nat
  deriving DecidableEq, Repr

/-- A placed team is being loaded, is resident, is saved, or has retired or stopped. -/
inductive TeamPhase where
  | loading | running | saved | retired
  deriving DecidableEq, Repr

/-- A placed team: its index, its site, its ragged record; the members that have retired, with whether each succeeded (03 R74); whether
a member or a child failed; and whether teardown stopped it (18 R490). -/
structure Team where
  index : Nat
  site : Site
  record : Option (List Word)
  phase : TeamPhase
  ended : List (AgentId × Bool)
  failed : Bool
  stopped : Bool
  deriving DecidableEq, Repr

/-- A device queue bound to a template launch (03 R50, R75, R76): its place and capacity; the producer's launch ID; the acceptance order
of the producer while it is in flight, and whether it has completed with a status other than DONE; the teams started; the final TAIL; and the
record that has been read from the slot at HEAD, whose word 0 is cleared, and whether it could be read, until HEAD moves (03 R78). -/
structure DeviceQueue where
  stack : Nat
  slice : Nat
  off : Nat
  cap : Nat
  plid : Word
  producer : Option Nat
  lost : Bool
  started : Nat
  final : Option Word
  got : Option (Bool × List Word)
  deriving DecidableEq, Repr

/-- A launch held by the global dispatcher until its completion record is written (02 R37-R47; 03 R63-R82). `order` is its place in
acceptance order; `needs` are the places of the launches in flight that it depends on, and `depFailed` says that one of those it depends on
completed with a status other than DONE (02 R40, 03 R63); `blocked` holds back the next attempt to reserve a gang (03 R65); `nextTeam` the first team not yet sent to a stack;
`records` the ragged records of template teams by team index; `reserved` the sites held for a gang. `firstPlaced` is the time of the
first placement; `sites` are those of a swapping launch, from the start of swapping at `swapStart`, and `swapN` boundaries have passed;
`writing` is the completion record that is being written, with its words that are already in memory (02 R47). -/
structure Launch where
  q : Nat
  recWords : List Word
  order : Nat
  dq : Option DeviceQueue
  needs : List Nat
  depFailed : Bool
  eligible : Bool
  status : Option Completion
  blocked : Bool
  nextTeam : Nat
  records : List (Nat × List Word)
  teams : List Team
  reserved : List Site
  tdone : Nat
  tfail : Nat
  fctx : Word
  fcause : BitVec 8
  firstPlaced : Option Nat
  swapAsked : Bool
  swapStart : Nat
  swapN : Nat
  sites : List Site
  writing : Option (List Word × List Nat)
  deriving DecidableEq, Repr

/-- A team received by a stack dispatcher and not yet placed (03 R66). -/
structure Queued where
  q : Nat
  lid : Word
  team : Nat
  prio : Nat
  order : Nat
  record : Option (List Word)
  deriving DecidableEq, Repr

/-- An advertisement held by the global dispatcher (03 R64): FREE as lowered by batches, LARGEST, when it was sent; and, of its stack
dispatcher, the values as it last saw them, and whether one has changed since. -/
structure Advert where
  free : Nat
  largest : Nat
  sentAt : Nat
  seen : Nat × Nat
  changed : Bool
  deriving DecidableEq, Repr

/-- A function page and MSI-X state of a function (22 R523, R526; 02 R47). -/
structure Func where
  nonce : Vector Word 8
  ready : Bool
  req : Bool
  /-- NONCE as it stood at REQ -/
  asked : Vector Word 8
  report : List Byte
  accerr : Word
  msixEnable : Bool
  msixMask : Bool
  vecMask : BitVec 32
  vecPend : BitVec 32
  /-- address and data of the messages (PCIe's MSI-X table) -/
  vecAddr : Vector (BitVec 64) 32
  vecData : Vector Word 32
  /-- messages sent, newest first: vector number, address and data -/
  sent : List (Nat × BitVec 64 × Word)
  telem : List (Nat × Word)
  deriving DecidableEq, Repr

/-! ### Mesh, links, switches -/

/-- Traffic between agents that has left its sender and has not arrived (13 R385-R402; 15 R435). `fwd` marks what a forwarding stub
sends; a close notice for a message that was dropped names no state: it closes the channel at the state of the end that it reaches (13
R398); `away` what is bound for another module, by a link port. Of a contribution that is being applied, what is left stands here (17
R464). -/
inductive Mesh where
  | request (r : Request)
  | withdraw (src dst : Word)
  | outcome (dst : Word) (peer : Word) (peerMod : BitVec 9) (peerTen peerLook : Nat) (o : ChanOutcome)
  | msg (src dst : Word) (srcMod : BitVec 9) (tenant : Nat) (freed : Nat) (fwd : Bool) (m : Msg)
  | credit (src dst : Word) (freed : Nat)
  | close (src dst : Word) (cause : Nat) (state : Option Nat) (ctr : Nat) (fwd : Bool)
  | moved (src dst : Word) (newName : Word) (newMod : BitVec 9) (fwd : Bool)
  | movedStub (dst : Word) (newName : Word) (newMod : BitVec 9)
  | release (src dst : Word) (fwd : Bool)
  | contribution (src : AgentId) (srcEp : EReg) (dst : Word) (tenant : Nat) (pairs : List (Word × Word)) (dom : Option (BitVec 10))
    (begun : Bool)
  | ring (src dst : AgentId) (bell : BitVec 5) (tenant : Nat)
  | away (mod : BitVec 9) (port : Option Nat) (m : Mesh)
  deriving DecidableEq, Repr

/-- An accumulate in flight (16 R442): to its home slice, or back to its owner as a refusal or an acknowledgment with flags and
a drop mark. `waited` is the time at which it joined its queue. -/
inductive AccDir where
  | toHome | refusal | ack
  deriving DecidableEq, Repr

structure Acc where
  dir : AccDir
  stack : Nat
  slice : Nat
  off : Nat
  fp : Bool
  value : Word
  tenant : Nat
  dom : Option (BitVec 10)
  owner : AgentId
  must : Bool
  quota : Nat
  qwx : Nat
  mwin : Nat
  waited : Nat
  flags : BitVec 5
  dropped : Bool
  deriving DecidableEq, Repr

/-- State of a Rellor link port (22 R526, R529, R538). -/
inductive PortState where
  | down | up | retraining
  deriving DecidableEq, Repr

/-- A Rellor link port (22 R526, R529, R538): its state; the sequence number of the next data flit it sends and the one it expects; the
data flits not acknowledged, with how often each was replayed; its counts; the time of the last acknowledgment and of the start of a
retrain; the flits sent, newest first; the mesh flits delivered, newest first, each with its virtual channel and its byte of SLOTINFO;
the acknowledgment received last; the mesh flits that wait to be sent, oldest first; and the messages that have entered link flits, with
the data flit that holds the last of each once it is formed. -/
structure Port where
  state : PortState
  nextSeq : BitVec 12
  expect : BitVec 12
  replay : List (BitVec 12 × List Byte × Nat)
  replays : Word
  retrains : Word
  downs : Word
  ackAt : Nat
  retrainAt : Nat
  outbox : List (List Byte)
  inbox : List (Nat × Byte × List Byte)
  lastAck : BitVec 12
  queue : List (Nat × Byte × List Byte)
  entered : List (Mesh × Option (BitVec 12))
  deriving DecidableEq, Repr

/-- The progress of a switch (18 R476-R487): its stop time is set; every context has stopped and settled; it is switched out; it is
restored and waits for the resume time. -/
inductive SwitchPhase where
  | scheduled | settled | saved | restored
  deriving DecidableEq, Repr

/-- The record of a saved context. -/
structure SavedCtx where
  ag : AgentId
  ctx : Ctx
  deriving DecidableEq, Repr

/-- A switch set (18 R476-R487): the tenant of a partition switch, or the team of a team swap (queue, launch, team index); stop and
resume time; what was saved: the records of contexts, cores and clusters, the memory as byte images with their places, the spilled
messages; and the save areas, with the bytes their engine recorded. `due` is set when the turn of a saved team has come (03 R81). -/
structure Switch where
  tenant : Nat
  team : Option (Nat × Word × Nat)
  stop : Nat
  resume : Nat
  phase : SwitchPhase
  due : Bool
  sealNo : Word
  ctxs : List SavedCtx
  cores : List (AgentId × Core)
  units : List (AgentId × Cluster)
  memory : List (Nat × List Byte)
  mesh : List Mesh
  accs : List Acc
  areas : List (Nat × List Byte)
  deriving DecidableEq, Repr

/-- Images measured at boot and loading (22 R533). -/
structure Monitor where
  mMonitor : List Byte
  mFirmware : List Byte
  mLoader : List (Nat × List Byte)
  deriving DecidableEq, Repr

/-- A posted write of the host with Relaxed Ordering that has arrived and has not been performed (17 R473). -/
structure HostWrite where
  func : Nat
  bar : Nat
  off : Nat
  size : Nat
  value : BitVec 64
  deriving DecidableEq, Repr

/-- The test access port (22 R541, R542). -/
structure Tap where
  ir : BitVec 8
  bypass : Bool
  idcode : Word
  boundary : List Bool
  /-- the levels that EXTEST drives onto the pins -/
  driven : List Bool
  dbgcmd : BitVec 72
  /-- the bits of TDO at the last shift, first bit first -/
  tdo : List Bool
  deriving DecidableEq, Repr

/-- Measured power and temperature (22 R536-R538). -/
structure Sensors where
  power : List (Nat × Nat)
  temp : List (Nat × Nat)
  throttled : List (Nat × Nat)
  deriving DecidableEq, Repr

/-! ### The machine -/

/-- A part of a longer access, made by itself: one word of a waiting load of 8 bytes (17 R464); the hop of an accumulate to its next
router (16 R445); one element of a vector load or store (10 R280); one word of an operand read, or of the output written, by a matrix
command (11 R320); one word of a row read or written by a copy job (12 R365); the performance of a posted host write that may be performed after later
arrivals (17 R473); one word of the payload of a SEND or RECV; one element of a contribution that has arrived (17 R464); one of words 1 to 7
of a completion record (02 R47); the read of a slot of a device queue and the write of its word 0 (03 R78); the sending of a data flit by
a link port (22 R528); or a scan of the instruction register or of a data register of the test access port (22 R541). -/
inductive Part where
  | load (ag : AgentId) (high : Bool)
  | hop (n : Nat)
  | lane (core : AgentId) (element : Nat)
  | operand (core : AgentId) (entry word : Nat)
  | output (u : AgentId) (word : Nat)
  | job (u : AgentId) (id : BitVec 16) (row word : Nat) (write : Bool)
  | host (n : Nat)
  | payload (ag : AgentId) (word : Nat)
  | element (n : Nat)
  | record (q : Nat) (lid : Word) (word : Nat)
  | slot (q : Nat) (lid : Word)
  | flit (port : Nat)
  | tapInstruction (code : BitVec 8)
  | tapScan (tdi : List Bool)
  deriving DecidableEq, Repr

/-- One move of the schedule: a context issues its next group, an event takes place, or a part of an access is made. -/
inductive Move where
  | issue (ag : AgentId)
  | event (i : Instr)
  | part (p : Part)
  deriving DecidableEq, Repr

/-- The group being issued: its words, and its page and base word (04 R90, R101). -/
structure Group where
  words : List HWord
  page : BitVec 4
  base : HWord
  deriving DecidableEq, Repr

/-- The whole module. `mem` holds every byte of every memory under one numbering (Machine/Ops.lean). `cur`, `group`, `moves`,
`draws` and `hostData` are the model's own. -/
structure State where
  time : BitVec 64
  mem : List Host.Cell
  eccBad : List Nat
  eccOne : List Nat
  cec : Vector Word 8
  /-- corrected errors in memories of the partition of each tenant (22 R538) -/
  cecTen : List (Nat × Vector Word 8)
  ctxs : List (AgentId × Ctx)
  cores : List (AgentId × Core)
  units : List (AgentId × Cluster)
  harts : List (AgentId × HartRegs)
  slices : List ((Nat × Nat) × Slice)
  domains : List (Nat × Domain)
  partitions : List (Nat × Partition)
  queues : List (Nat × HostQueue)
  launches : List Launch
  recent : List (Nat × Word × Nat)
  ads : List ((Nat × Nat) × Advert)
  lastServed : List (Nat × Nat)
  lastBatch : Option Nat
  order : Nat
  stackQueues : List (Nat × List Queued)
  mesh : List Mesh
  accs : List Acc
  switches : List (Nat × Switch)
  ports : List (Nat × Port)
  funcs : List (Nat × Func)
  bootStage : Nat
  bootErr : BitVec 8
  tdQnum : BitVec 10
  plimit : Nat
  monitor : Monitor
  sensors : Sensors
  /-- every context is being stopped after 110 °C (22 R537); then the module is held in reset -/
  overheated : Bool
  thermalStop : Bool
  hostWrites : List HostWrite
  tap : Tap
  modnum : BitVec 9
  cur : AgentId
  group : Group
  moves : List Move
  draws : Nat
  hostData : Option (Nat × BitVec 64)
  deriving DecidableEq, Repr

/-! ### Reset -/

def Fpcsr.reset : Fpcsr := ⟨0, 0, false, 0⟩
def Rcsr.reset : Rcsr := ⟨0, 0, 0, 0⟩
def Auto.none : Auto := ⟨[], 0, 0, 0⟩

/-- An endpoint register that holds no endpoint (13 R373). -/
def Ep.reset : Ep :=
  { st := .none, cm := false, cc := 0, pmod := 0, gen := 0, reason := 0, peer := 0, peerMod := 0, peerTen := 0,
    peerLook := 0, port := none, former := [], auto := .none, slot := none, state := 0, ctrs := [], res := none, sent := 0, freed := 0, inbox := [],
    readPos := 0, closedAt := (0, 0, 0), asking := none, pend := none, held := none, moving := false,
    direct := [], deferred := [], lost := false, rtab := 0 }

/-- An idle context, with the values of 02 R29 and of the register tables. -/
def Ctx.reset : Ctx :=
  { phase := .idle, tenant := 0, origin := .none, child := false, retiring := none, pc := 0
    x := Vector.replicate 32 0, f := Vector.replicate 32 0, v := Vector.replicate 32 (Vector.replicate 64 0)
    prv := false, rm := false, ie := false, lact := false, t := false, pprv := false, pie := false, plact := false
    intrap := false, epc := 0, cause := 0, tval := 0, tvec := 0, kscr0 := 0, kscr1 := 0, lcnt := 0, lstart := 0
    lend := 0, lrem := 0, ptimeh := 0, pinsth := 0, pswh := 0, timeh := 0, insth := 0, swh := 0xFFFFFFFF
    fpcsr := .reset, rcsr := .reset, flight := [], dom := Vector.replicate 4 ⟨false, 0⟩, decl := BitVec.allOnes 64, live := 0
    dcur := Vector.replicate 8 0, dnxt := Vector.replicate 8 0, pause := .no, pauseFlags := 0, causality := none
    watchdog := none, arrival := none, barrierFree := false, want := 0, vmin := 0, count := 0, vl := 0, owed := 0, vloop := none
    mfmt := 0x0000_0888, mrowmask := 0xFFFF_FFFF, mchain := ⟨false, 0, 0, 0, 0⟩, mopaddr := 0, msatc := 0
    nanRecord := none, operandTrap := none, resumable := false, sizek := 0, basek := 0, jpart := 0, jentry := 0
    windows := Vector.replicate 8 ⟨0, 0, 0, 0⟩, jobFaults := [], clearedRefusals := [], streams := Vector.replicate 4 .unbound
    eps := Vector.replicate 16 .reset, rau := ⟨0, 0, 0, false, false, false, 0, 0⟩, contribsOut := 0
    refused := 0, drop := false, out := 0, mustOut := 0, flushing := false, evictWaits := false, post := 0, trigon := 0, kinds := 0
    slips := 0, icmiss := 0, switchat := BitVec.allOnes 64, fetchBuf := [], missed := false, needLine := 0, stepping := false, wait := .none
    pend := .none, haltReq := false, halted := false, haltGroup := [], inIssue := [], stopped := false, port := []
    portResult := Vector.replicate 2 0 }

/-- A core at reset: last is 3 (06 R140), every buffer empty; the latch of 11 R299. -/
def Core.reset : Core :=
  { last := 3, loopBuf := none, journal := [], jseq := 0, seq := [], latchWidth := 8, latch := [], mqueue := []
    mweight := 1, trace := [], frozen := false, trigd := false, left := 0, head := 0, idx := 0 }

/-- A cluster at reset: MGATE.IDLE 0x0400, MRSET 0xFF (11 R303, R313), ACCCFG 0x8080_1020 (16 R446). -/
def Cluster.reset : Cluster :=
  { lines := [], fills := [], claims := [], held := none, pointer := 0, served := 0, service := none, gated := 0
    mgateIdle := 0x0400, lastUse := Vector.replicate 4 0, satc := [], mrset := 0xFF
    acccfg := ⟨8, 8, 16, 32⟩, slots := [], loadSeq := 0, stubs := [], bells := [], barriers := [], mutexes := []
    jobs := [], jobCounter := 0 }

def HartRegs.reset : HartRegs :=
  { tenant := 0, former := 0, mrbase := 0, lost := 0, headM := 0, tailM := 0, slcsel := 0, tlbva := 0, tlbAll := false, tlbTen := 0
    tlbBusy := none, tcache := [], owners := [] }

/-- A slice at reset: the ring disabled, HI 0x17_FFFF (22 R543). -/
def Slice.reset : Slice :=
  { quota := [], en := false, filt := false, ten := 0, lo := 0, hi := 0x17_FFFF, wrap := false, headR := 0
    idxR := 0, ring := [] }

def Func.reset : Func :=
  { nonce := Vector.replicate 8 0, ready := false, req := false, asked := Vector.replicate 8 0, report := [], accerr := 0, msixEnable := false
    msixMask := false, vecMask := BitVec.allOnes 32, vecPend := 0
    vecAddr := Vector.replicate 32 0, vecData := Vector.replicate 32 0, sent := [], telem := [] }

def Port.reset : Port :=
  { state := .down, nextSeq := 0, expect := 0, replay := [], replays := 0, retrains := 0, downs := 0
    ackAt := 0, retrainAt := 0, outbox := [], inbox := [], lastAck := 0, queue := [], entered := [] }

/-- The machine right after power and reset: boot stage 0 (22 R535), TIME 0, every memory reading zero, no context
started, no partition, queue, launch or domain. -/
def State.reset : State :=
  { time := 0, mem := [], eccBad := [], eccOne := [], cec := Vector.replicate 8 0, cecTen := [], ctxs := [], cores := [], units := []
    harts := [], slices := [], domains := [], partitions := [], queues := [], launches := [], recent := [], ads := []
    lastServed := [], lastBatch := none, order := 0, stackQueues := [], mesh := [], accs := [], switches := [], ports := []
    funcs := [], bootStage := 0, bootErr := 0, tdQnum := 0, plimit := 1200
    monitor := ⟨List.replicate 32 0, List.replicate 32 0, []⟩, sensors := ⟨[], [], []⟩, overheated := false, thermalStop := false
    hostWrites := [], tap := ⟨0x01, false, 0, [], [], 0, []⟩, modnum := 0, cur := .core 0 0 0 0, group := ⟨[], 0, 0⟩, moves := [], draws := 0
    hostData := none }

end Sys2Proof.Machine
end

