-- ==== Sys2Proof/Machine/Ops.lean ====
section
/-!
DEFINITION. Machine/Ops.lean: the named operations over memory, contexts and registers; completing a group; taking a trap
and returning from one.
-/
namespace Sys2Proof.Machine

/-! ### Association lists -/

/-- The record of a key, or `d` where the key is not listed. -/
def lookupD {K V : Type} [DecidableEq K] (d : V) : List (K × V) → K → V
  | [], _ => d
  | (k, v) :: rest, key => if k = key then v else lookupD d rest key

/-- The record of a key, if listed. -/
def lookup? {K V : Type} [DecidableEq K] : List (K × V) → K → Option V
  | [], _ => none
  | (k, v) :: rest, key => if k = key then some v else lookup? rest key

/-- Give a key a record: in its place, or at the end. -/
def assign {K V : Type} [DecidableEq K] : List (K × V) → K → V → List (K × V)
  | [], key, v => [(key, v)]
  | (k, w) :: rest, key, v => if k = key then (key, v) :: rest else (k, w) :: assign rest key v

/-- Remove a key. -/
def erase {K V : Type} [DecidableEq K] (l : List (K × V)) (key : K) : List (K × V) := l.filter (fun p => p.1 ≠ key)

/-! ### Agents (01 R11-R17) -/

/-- Module cluster number (01 R12). -/
def clusterNo (s c : Nat) : Nat := s * 1280 + c
/-- Module core number (01 R13). -/
def coreNo (s c k : Nat) : Nat := clusterNo s c * 8 + k
/-- Module context number (01 R13). -/
def ctxNo (s c k x : Nat) : Nat := coreNo s c k * 4 + x

/-- Row and column of a stack in the 4 × 4 arrangement (01 R11). -/
def stackRow (s : Nat) : Nat := s / 4
def stackCol (s : Nat) : Nat := s % 4

/-- Two stacks are joined by a stack-to-stack link: they are horizontal or vertical neighbours (01 R11). -/
def stacksJoined (s t : Nat) : Bool :=
  (stackRow s = stackRow t && (stackCol s + 1 = stackCol t || stackCol t + 1 = stackCol s)) ||
    (stackCol s = stackCol t && (stackRow s + 1 = stackRow t || stackRow t + 1 = stackRow s))

/-- Numbers passed from `a` to `b`, both included. -/
def passing (a b : Nat) : List Nat :=
  if a ≤ b then (List.range (b - a + 1)).map (a + ·) else (List.range (a - b + 1)).map (a - ·)

/-- The stacks that traffic from one stack to another passes, both included: first along the row, then along the column (01 R11). -/
def stackRoute (s t : Nat) : List Nat :=
  (passing (stackCol s) (stackCol t)).map (stackRow s * 4 + ·) ++
    ((passing (stackRow s) (stackRow t)).drop 1).map (fun r => r * 4 + stackCol t)

/-- The agent of a module context number, if it names one. -/
def ctxOfNo (n : Nat) : Option AgentId :=
  if n < 655360 then some (.core (n / 40960) (n / 32 % 1280) (n / 4 % 8) (n % 4)) else none

def isHart : AgentId → Bool
  | .core _ _ _ _ => false
  | .copyUnit _ _ => true
  | .saveEngine _ => true
  | .secureCore => true
  | .memoryCore _ _ => true
  | .serviceCore _ _ => true
  | .linkEngine _ _ => true

/-- The core of a context (core fields of the key, context 0), or the hart itself. -/
def coreKey : AgentId → AgentId
  | .core s c k _ => .core s c k 0
  | a => a

/-- The cluster of a context, or the hart itself: a hart has an event unit, an automaton store and an ACCCFG of its
own. -/
def unitKey : AgentId → AgentId
  | .core s c _ _ => .core s c 0 0
  | a => a

/-- The cluster whose copy unit, instruction cache and matrix unit an agent belongs to. -/
def clusterOf : AgentId → Option (Nat × Nat)
  | .core s c _ _ => some (s, c)
  | .copyUnit s c => some (s, c)
  | _ => none

/-- Number of a core context on its core; 0 on a hart. -/
def ctxIndex : AgentId → Nat
  | .core _ _ _ x => x
  | _ => 0

/-- Stack of an agent; the secure control core stands on none and counts as stack 0. -/
def stackOf : AgentId → Nat
  | .core s _ _ _ => s
  | .copyUnit s _ => s
  | .saveEngine s => s
  | .secureCore => 0
  | .memoryCore s _ => s
  | .serviceCore s _ => s
  | .linkEngine s _ => s

/-- Bytes of private TCM (01 R20, R23). -/
def tcmSize : AgentId → Nat
  | .core _ _ _ _ => 0x20000
  | .copyUnit _ _ => 0x4000
  | .saveEngine _ => 0x10000
  | .secureCore => 0x40000
  | .memoryCore _ _ => 0x10000
  | .serviceCore _ _ => 0x40000
  | .linkEngine _ _ => 0x10000

/-- The cluster field by which an agent is named (01 R15); the agents of R16 have none. -/
def clusterField : AgentId → Option Nat
  | .core _ c _ _ => some c
  | .memoryCore _ c => some (1280 + c)
  | .serviceCore _ q => some (1344 + q)
  | .linkEngine _ p => some (1348 + p)
  | .copyUnit _ _ => none
  | .saveEngine _ => none
  | .secureCore => none

/-- The agent kind of CTXNAME (06 R151). -/
def agentKind : AgentId → Nat
  | .core _ _ _ _ => 0
  | .copyUnit _ _ => 1
  | .saveEngine _ => 2
  | .secureCore => 3
  | .memoryCore _ _ => 4
  | .serviceCore _ _ => 5
  | .linkEngine _ _ => 6

/-- CTXNAME (06 R151). -/
def ctxName : AgentId → Word
  | .core s c k x => BitVec.ofNat 32 (s * 2 ^ 28 + c * 2 ^ 17 + k * 2 ^ 14 + x * 2 ^ 12)
  | .copyUnit s c => BitVec.ofNat 32 (s * 2 ^ 28 + c * 2 ^ 17 + 0x100)
  | .saveEngine s => BitVec.ofNat 32 (s * 2 ^ 28 + 0x200)
  | .secureCore => 0x300
  | .memoryCore s c => BitVec.ofNat 32 (s * 2 ^ 28 + (1280 + c) * 2 ^ 17 + 0x400)
  | .serviceCore s q => BitVec.ofNat 32 (s * 2 ^ 28 + (1344 + q) * 2 ^ 17 + 0x500)
  | .linkEngine s p => BitVec.ofNat 32 (s * 2 ^ 28 + (1348 + p) * 2 ^ 17 + 0x600)

/-- The number in machine reports and traces: the module context number, or 0xF_FFFF (18 R495, 22 R539). -/
def agentNo : AgentId → Nat
  | .core s c k x => ctxNo s c k x
  | _ => 0xFFFFF

/-- The agent that a name's stack, cluster, core and context fields refer to (01 R15, 13 R374); none where they name no agent. A
hart's name has core and context fields of zero. -/
def agentOfName (w : Word) : Option AgentId :=
  let s := bitsOf w.toNat 31 28
  let c := bitsOf w.toNat 27 17
  let k := bitsOf w.toNat 16 14
  let x := bitsOf w.toNat 13 12
  if c < 1280 then some (.core s c k x)
  else if k ≠ 0 ∨ x ≠ 0 then none
  else if c < 1344 then some (.memoryCore s (c - 1280))
  else if c < 1348 then some (.serviceCore s (c - 1344))
  else if c < 1352 then some (.linkEngine s (c - 1348))
  else none

/-! ### Memory as one numbering of bytes

Each memory of the module has a space of 2^44 numbers; the keys of `State.mem` are numbers of this kind (01 R20). -/

def space (k : Nat) : Nat := k * 2 ^ 44
/-- Byte `o` of the TCM of a core. -/
def tcmAt (s c k o : Nat) : Nat := space 0 + coreNo s c k * 0x20000 + o
/-- Byte `o` of a cluster's scratchpad. -/
def scratchAt (s c o : Nat) : Nat := space 1 + clusterNo s c * 0x40000 + o
/-- Byte `o` of a cluster's matrix-side memory. -/
def matrixAt (s c o : Nat) : Nat := space 2 + clusterNo s c * 0x20000 + o
/-- Byte `o` of a shared SRAM slice. -/
def sliceAt (s sl o : Nat) : Nat := space 3 + (s * 64 + sl) * 0x180000 + o
/-- Byte `o` of DRAM channel `ch` of the module (12 R354): row and offset. -/
def dramAt (ch o : Nat) : Nat := space 4 + ch * 2 ^ 30 + o
/-- Number of a hart, for its private TCM. -/
def hartNo : AgentId → Nat
  | .core _ _ _ _ => 0
  | .copyUnit s c => clusterNo s c
  | .memoryCore s c => 20480 + s * 64 + c
  | .serviceCore s q => 21504 + s * 4 + q
  | .linkEngine s p => 21568 + s * 4 + p
  | .saveEngine s => 21632 + s
  | .secureCore => 21648
/-! ### Copies of TIME (01 R21) -/

/-- The largest of what `f` gives at `t` and at the `n` times before it. -/
def latest (f : Nat → Nat) (t : Nat) : Nat → Nat
  | 0 => f t
  | n + 1 => max (latest f t n) (f (t - (n + 1)))

/-- TIME as the unit of a number holds it: at most 4 ahead of the module's count, by an amount that changes freely and never makes the
copy go backward. -/
def State.clock (s : State) (unit : Nat) : BitVec 64 :=
  BitVec.ofNat 64 (latest (fun t => t + Config.skew unit t % 5) s.time.toNat 3)

/-- The copies of a core or a hart, a slice, a stack dispatcher and the global dispatcher. -/
def State.coreClock (s : State) (a : AgentId) : BitVec 64 :=
  match a with
  | .core st c k _ => s.clock (coreNo st c k)
  | h => s.clock (163840 + hartNo h)
def State.sliceClock (s : State) (st sl : Nat) : BitVec 64 := s.clock (200000 + st * 64 + sl)
def State.stackClock (s : State) (st : Nat) : BitVec 64 := s.clock (300000 + st)
def State.globalClock (s : State) : BitVec 64 := s.clock 300016

/-- Byte `o` of an agent's own TCM. -/
def ownTcmAt (a : AgentId) (o : Nat) : Nat :=
  match a with
  | .core s c k _ => tcmAt s c k o
  | h => space 5 + hartNo h * 0x40000 + o
/-- Byte `o` of element storage of a v register (12 R371): context number, register, element. -/
def vregAt (n r e : Nat) : Nat := space 6 + (n * 32 + r) * 256 + e * 4

/-- The kind of memory of a number, as CEC numbers kinds (22 R538). -/
def memKind (a : Nat) : Nat :=
  match a / 2 ^ 44 with
  | 0 => 0 | 1 => 1 | 2 => 2 | 3 => 3 | 4 => 6 | 5 => 7 | 6 => 5 | _ => 4

/-- First byte of the ECC word of a byte: 64 bits in DRAM, 32 bits elsewhere (12 R371). -/
def eccWord (a : Nat) : Nat := if a / 2 ^ 44 = 4 then a / 8 * 8 else a / 4 * 4
def eccSize (a : Nat) : Nat := if a / 2 ^ 44 = 4 then 8 else 4

/-- The byte at a number: an unlisted byte reads zero (22 R535 stage 3; log 2). -/
def memRead : List Host.Cell → Nat → Byte
  | [], _ => 0
  | (k, b) :: rest, a => if a = k then b else if a < k then 0 else memRead rest a

/-- Write one byte, keeping the canonical form. -/
def memWrite : List Host.Cell → Nat → Byte → List Host.Cell
  | [], a, b => if b = 0 then [] else [(a, b)]
  | (k, v) :: rest, a, b =>
    if a < k then (if b = 0 then (k, v) :: rest else (a, b) :: (k, v) :: rest)
    else if a = k then (if b = 0 then rest else (a, b) :: rest)
    else (k, v) :: memWrite rest a b

/-- The canonical form: addresses strictly rising, no listed zero. -/
def Memory.wf : List Host.Cell → Bool
  | [] => true
  | (_, b) :: [] => b != 0
  | (k, b) :: (k', b') :: rest => b != 0 && decide (k < k') && Memory.wf ((k', b') :: rest)

def memWriteList (m : List Host.Cell) (a : Nat) : List Byte → List Host.Cell
  | [] => m
  | b :: rest => memWriteList (memWrite m a b) (a + 1) rest

def memReadList (m : List Host.Cell) (a : Nat) : Nat → List Byte
  | 0 => []
  | n + 1 => memRead m a :: memReadList m (a + 1) n

/-- Little-endian bytes of a word, and the value of bytes (00 R2). -/
def bytesOf (n : Nat) : Nat → List Byte
  | 0 => []
  | k + 1 => BitVec.ofNat 8 n :: bytesOf (n / 256) k
def natOfBytes : List Byte → Nat
  | [] => 0
  | b :: rest => b.toNat + 256 * natOfBytes rest
def wordBytes4 (w : Word) : List Byte := bytesOf w.toNat 4
def wordOfBytes (bs : List Byte) : Word := BitVec.ofNat 32 (natOfBytes bs)

/-- Little-endian words of bytes. -/
def wordsOf : Nat → List Byte → List Word
  | 0, _ => []
  | n + 1, bs => wordOfBytes (bs.take 4) :: wordsOf n (bs.drop 4)

/-- One byte, one word, of the module's memory. -/
def State.byteAt (s : State) (a : Nat) : Byte := memRead s.mem a
def State.bytesAt (s : State) (a n : Nat) : List Byte := memReadList s.mem a n
def State.wordAt (s : State) (a : Nat) : Word := wordOfBytes (s.bytesAt a 4)

/-- Numbers of the ECC words that `n` bytes from `a` touch. -/
def eccWords (a n : Nat) : List Nat :=
  (List.range ((a + n - 1 - eccWord a) / eccSize a + 1)).map (fun i => eccWord a + i * eccSize a)

/-- An uncorrectable error in one of the bytes (12 R371). -/
def State.hasBad (s : State) (a n : Nat) : Bool := (eccWords a n).any (fun w => s.eccBad.contains w)

/-- The tenant whose partition holds a cluster (22 R531); none where no partition does. -/
def State.clusterTenant (s : State) (st c : Nat) : Option Nat :=
  (s.partitions.find? (fun p => p.2.rows.contains (st, c / 40))).map (·.1)

/-- The tenant that owns a slice range (12 R348). -/
def State.sliceTenant (s : State) (st sl o : Nat) : Option Nat :=
  (s.partitions.find? (fun p =>
    p.2.shared.any (fun r => r.1 = st && r.2.1 = sl && r.2.2.1 ≤ o / 65536 && o / 65536 ≤ r.2.2.2))).map (·.1)

/-- The tenant whose partition holds a byte of memory (22 R531); private TCM of harts belongs to none. -/
def State.memTenant (s : State) (a : Nat) : Option Nat :=
  let o := a % 2 ^ 44
  let cluster (n : Nat) : Option Nat := s.clusterTenant (n / 1280) (n % 1280)
  match a / 2 ^ 44 with
  | 0 => cluster (o / 0x100000)
  | 1 => cluster (o / 0x40000)
  | 2 => cluster (o / 0x20000)
  | 3 => s.sliceTenant (o / 0x180000 / 64) (o / 0x180000 % 64) (o % 0x180000)
  | 4 => (s.partitions.find? (fun p => p.2.dramRows.contains (o / 2 ^ 30, o % 2 ^ 30 / 2 ^ 21))).map (·.1)
  | 6 => cluster (o / 0x40000)
  | _ => none

/-- Count corrected errors of a kind. -/
def addCount (v : Vector Word 8) (kind n : Nat) : Vector Word 8 := v.set! kind (v[kind]! + BitVec.ofNat 32 n)

/-- A read corrects single-bit errors, writes back and counts them (12 R371). -/
def State.correct (s : State) (a n : Nat) : State :=
  let found := (eccWords a n).filter (fun w => s.eccOne.contains w)
  if found = [] then s
  else
    { s with
      eccOne := s.eccOne.filter (fun w => !found.contains w)
      cec := addCount s.cec (memKind a) found.length
      cecTen :=
        match s.memTenant a with
        | some t => assign s.cecTen t (addCount (lookupD (Vector.replicate 8 0) s.cecTen t) (memKind a) found.length)
        | none => s.cecTen }

/-- Store bytes. A word keeps its error until it is written whole (12 R371). -/
def State.storeBytes (s : State) (a : Nat) (bs : List Byte) : State :=
  let whole (w : Nat) : Bool := a ≤ w && w + eccSize a ≤ a + bs.length
  let keep (l : List Nat) : List Nat := if l = [] then [] else l.filter (fun w => !whole w)
  { s with mem := memWriteList s.mem a bs, eccBad := keep s.eccBad, eccOne := keep s.eccOne }

def State.storeWord (s : State) (a : Nat) (w : Word) : State := s.storeBytes a (wordBytes4 w)

/-! ### Contexts, cores, clusters -/

def State.ctxOf (s : State) (a : AgentId) : Ctx := lookupD .reset s.ctxs a
def State.setCtxOf (s : State) (a : AgentId) (c : Ctx) : State := { s with ctxs := assign s.ctxs a c }
def State.updOf (s : State) (a : AgentId) (f : Ctx → Ctx) : State := s.setCtxOf a (f (s.ctxOf a))
def State.coreOf (s : State) (a : AgentId) : Core := lookupD .reset s.cores (coreKey a)
def State.setCoreOf (s : State) (a : AgentId) (c : Core) : State := { s with cores := assign s.cores (coreKey a) c }
def State.updCore (s : State) (a : AgentId) (f : Core → Core) : State := s.setCoreOf a (f (s.coreOf a))
/-- A unit at reset: a hart's automaton store and event unit are its own. -/
def State.unitOf (s : State) (a : AgentId) : Cluster := lookupD .reset s.units (unitKey a)
def State.setUnitOf (s : State) (a : AgentId) (u : Cluster) : State := { s with units := assign s.units (unitKey a) u }
def State.updUnit (s : State) (a : AgentId) (f : Cluster → Cluster) : State := s.setUnitOf a (f (s.unitOf a))
def State.hartOf (s : State) (a : AgentId) : HartRegs := lookupD .reset s.harts a
def State.updHart (s : State) (a : AgentId) (f : HartRegs → HartRegs) : State :=
  { s with harts := assign s.harts a (f (s.hartOf a)) }
def State.sliceOf (s : State) (st sl : Nat) : Slice := lookupD .reset s.slices (st, sl)
def State.updSlice (s : State) (st sl : Nat) (f : Slice → Slice) : State :=
  { s with slices := assign s.slices (st, sl) (f (s.sliceOf st sl)) }

/-- The context whose group is being issued. -/
def State.ctx (s : State) : Ctx := s.ctxOf s.cur
def State.upd (s : State) (f : Ctx → Ctx) : State := s.updOf s.cur f
def State.core (s : State) : Core := s.coreOf s.cur
def State.unit (s : State) : Cluster := s.unitOf s.cur

/-- Agents with a live context. -/
def State.liveAgents (s : State) : List AgentId :=
  (s.ctxs.filter (fun p => p.2.phase = .live)).map (·.1)

/-- A context for which the units of its cluster start something new: not one that a switch or a teardown has stopped (18 R478, R491),
nor one that waits for its saved lanes (10 R254). -/
def State.mayStart (s : State) (a : AgentId) : Bool := !(s.ctxOf a).stopped && (s.ctxOf a).owed = 0

/-- The host queue whose work started a context. -/
def Origin.queue? : Origin → Option Nat
  | .member q _ _ _ => some q
  | .message q => some q
  | .loader q => some q
  | .none => Option.none
  | .firmware => Option.none

/-! ### Registers -/

/-- x0 reads zero (06 R145). -/
def Ctx.getX (c : Ctx) (r : XReg) : Word := if r = 0 then 0 else c.x[r.toNat]
/-- Writes to x0 are discarded (06 R145). -/
def Ctx.setX (c : Ctx) (r : XReg) (w : Word) : Ctx := if r = 0 then c else { c with x := c.x.set r.toNat w }
def Ctx.getF (c : Ctx) (r : FReg) : Word := c.f[r.toNat]
def Ctx.setF (c : Ctx) (r : FReg) (w : Word) : Ctx := { c with f := c.f.set r.toNat w }
def Ctx.getV (c : Ctx) (r : VReg) : Vector Word 64 := c.v[r.toNat]
def Ctx.setV (c : Ctx) (r : VReg) (w : Vector Word 64) : Ctx := { c with v := c.v.set r.toNat w }
def Ctx.setT (c : Ctx) (b : Bool) : Ctx := { c with t := b }
def Ctx.ep (c : Ctx) (e : EReg) : Ep := c.eps[e.toNat]
def Ctx.setEp (c : Ctx) (e : EReg) (v : Ep) : Ctx := { c with eps := c.eps.set e.toNat v }
def Ctx.updEp (c : Ctx) (e : EReg) (f : Ep → Ep) : Ctx := c.setEp e (f (c.ep e))

/-- PC[31:0] (04 R87). -/
def Ctx.pcLow (c : Ctx) : Word := c.pc.setWidth 32
/-- Replace PC[31:0] within the text segment (04 R87). -/
def Ctx.setPc (c : Ctx) (w : Word) : Ctx := { c with pc := c.pc.extractLsb' 32 16 ++ w }

/-- The innermost domain: that of the highest-numbered valid DOM register (02 R32). -/
def Ctx.innermost (c : Ctx) : Option (BitVec 10) :=
  if c.dom[3].v then some c.dom[3].id
  else if c.dom[2].v then some c.dom[2].id
  else if c.dom[1].v then some c.dom[1].id
  else if c.dom[0].v then some c.dom[0].id
  else none

/-- CTXSTAT (06 R150). -/
def Ctx.ctxstat (c : Ctx) : Word :=
  BitVec.ofNat 32 (bit c.prv + 2 * bit c.rm + 4 * bit c.ie + 8 * bit c.lact + 16 * bit c.t + 2 ^ 8 * bit c.pprv
    + 2 ^ 9 * bit c.pie + 2 ^ 10 * bit c.plact + 2 ^ 11 * bit c.intrap)

/-! ### Completing a group -/

/-- Bytes of the group in issue. -/
def State.groupBytes (s : State) : Word := BitVec.ofNat 32 (2 * s.group.words.length)

/-- The next PC, with the loop registers (06 R170): a body group of the first pass decrements LREM, and the k-th sets LEND to
its own PC; at the group at LEND with LREM 0, LCNT is decremented and the body begins again while it is not 0. The spec does not say whether
a body group of the first pass that traps and that the handler steps past counts toward LREM (R170 counts decoded groups, R173 has the loop
go on as if no trap had come): here only groups that complete count (log 46). -/
def Ctx.advance (c : Ctx) (bytes : Word) : Ctx :=
  let c1 : Ctx :=
    if c.lact && c.lrem != 0 then
      { c with lrem := c.lrem - 1, lend := if c.lrem = 1 then c.pcLow else c.lend }
    else c
  if c1.lact && c1.lrem == 0 && c1.lend == c1.pcLow then
    let n := c1.lcnt - 1
    if n ≠ 0 then { c1 with lcnt := n }.setPc c1.lstart
    else { c1 with lcnt := n, lact := false }.setPc (c1.pcLow + bytes)
  else c1.setPc (c1.pcLow + bytes)

/-- The wait of a context is over. Where its group had issued before, a miss already counted is that of the next group (04 R117). -/
def Ctx.ready (c : Ctx) : Ctx :=
  { c with wait := .none, pend := .none, missed := c.missed && c.inIssue ≠ [], stepping := false, inIssue := [] }

/-- The PC of the next group to be fetched: behind the group at the PC, when that has issued and waits (04 R116). -/
def Ctx.nextPc (c : Ctx) : BitVec 48 := if c.inIssue = [] then c.pc else (c.advance (BitVec.ofNat 32 (2 * c.inIssue.length))).pc

/-- The loop buffer is free once its holder has no active LOOP (06 R172); a body group of the first pass is kept in it. -/
def State.loopBuffer (s : State) (a : AgentId) (before after : Ctx) : State :=
  match (s.coreOf a).loopBuf with
  | none => s
  | some b =>
    if b.holder ≠ ctxIndex a then s
    else if !after.lact then s.updCore a (fun k => { k with loopBuf := none })
    else if before.lact && before.lrem != 0 then
      s.updCore a (fun k => { k with loopBuf := some { b with groups := b.groups ++ [(before.pcLow, s.group.words)] } })
    else s

/-- Complete the group of the current context: its PC and loop state move on, and then its effect `f` is made. -/
def State.complete (s : State) (f : Ctx → Ctx) : State :=
  let c := s.ctx
  let c' := f (c.advance s.groupBytes).ready
  (s.setCtxOf s.cur c').loopBuffer s.cur c c'

/-- A context halted by HALT wakes: HALT completes, and the group after it follows (18 R501). -/
def State.wake (s : State) (a : AgentId) : State :=
  let c := s.ctxOf a
  let c' := { c.advance (BitVec.ofNat 32 (2 * c.haltGroup.length)) with halted := false, wait := .none, inIssue := [] }
  ({ s with group := ⟨c.haltGroup, 0, 0⟩ }.setCtxOf a c').loopBuffer a c c'

abbrev Res := Host.Outcome State Fault Refusal

/-- A group completes with an effect on its context alone. -/
def State.done (s : State) (f : Ctx → Ctx) : Res := .next (s.complete f)

/-- The group waits: nothing of it is done, and it is tried again when the context is next chosen. -/
def State.waits (s : State) (w : Wait) : Res := .next (s.upd (fun c => { c with wait := w }))

/-! ### Tracing (18 R492-R494) -/

/-- Record an entry in the trace buffer of the agent's core, unless it is frozen; after a trigger the buffer freezes when LEFT
runs out. -/
def State.traceEntry (s : State) (a : AgentId) (kind : Nat) (low : Nat) (pc w3 : Word) : State :=
  s.updCore a (fun k =>
    if k.frozen then k
    else
      let e : TraceEntry := ⟨(s.coreClock a).setWidth 32, BitVec.ofNat 32 (kind * 2 ^ 28 + ctxIndex a * 2 ^ 26 + low), pc, w3⟩
      let k := { k with trace := assign k.trace k.head e, head := (k.head + 1) % 1024 }
      if k.trigd then { k with left := k.left - 1, frozen := k.left ≤ 1 } else k)

/-- Record an event of kind bit `b` of TRACECTL.KINDS. -/
def State.traceIf (s : State) (a : AgentId) (b : Nat) (kind low : Nat) (pc w3 : Word) : State :=
  if (s.ctxOf a).kinds.getLsbD b then s.traceEntry a kind low pc w3 else s

/-- A trigger of a context, unless one has occurred: it is recorded, POST further entries follow, then the buffer freezes. -/
def State.trigger (s : State) (a : AgentId) (b : Nat) : State :=
  let c := s.ctxOf a
  if c.trigon.getLsbD b && !(s.coreOf a).trigd && !(s.coreOf a).frozen then
    let s := s.traceEntry a 7 0 c.pcLow 0
    s.updCore a (fun k => { k with trigd := true, left := c.post.toNat, frozen := c.post = 0 })
  else s

/-! ### Traps (06 R179-R186) -/

namespace Cause
def illegal : BitVec 8 := 0x01
def priv : BitVec 8 := 0x02
def align : BitVec 8 := 0x03
def loadWindow : BitVec 8 := 0x04
def storeWindow : BitVec 8 := 0x05
def peerAbsent : BitVec 8 := 0x06
def postedRefused : BitVec 8 := 0x07
def ecc : BitVec 8 := 0x08
def protoMismatch : BitVec 8 := 0x10
def connectDual : BitVec 8 := 0x11
def chanClosed : BitVec 8 := 0x12
def epDelegated : BitVec 8 := 0x13
def epStale : BitVec 8 := 0x14
def causality : BitVec 8 := 0x18
def emitWithdrawn : BitVec 8 := 0x19
def domain : BitVec 8 := 0x1A
def watchdog : BitVec 8 := 0x1B
def matrixOperand : BitVec 8 := 0x20
def matrixNan : BitVec 8 := 0x21
def matrixFormat : BitVec 8 := 0x22
def vectorLanes : BitVec 8 := 0x28
def fpTrap : BitVec 8 := 0x30
def rationalTrap : BitVec 8 := 0x31
def brk : BitVec 8 := 0x40
def syscall : BitVec 8 := 0x41
def jobFault : BitVec 8 := 0x50
end Cause

/-- The classes of traps (06 R179). -/
inductive TrapClass where
  | precise | async | deferred
  deriving DecidableEq, Repr

/-- CAUSE (06 R151, R186). -/
def causeWord (cls : TrapClass) (glen : Nat) (code : BitVec 8) : Word :=
  BitVec.ofNat 32 ((if cls = .deferred then 2 ^ 13 else 0) + (if cls = .async then 2 ^ 12 else 0) + glen % 8 * 2 ^ 8
    + code.toNat)

/-- What trap entry does to the registers of the context (06 R182), for a trap taken at the group at `epc`. A context whose
TVEC is zero or that is in trap service retires instead of entering its handler. -/
def Ctx.enterTrap (c : Ctx) (cls : TrapClass) (glen : Nat) (code : BitVec 8) (tval epc : Word) : Ctx :=
  let fatal := c.tvec == 0 || c.intrap
  let c : Ctx := { c with
    epc := epc, cause := causeWord cls glen code, tval := tval, pprv := c.prv, pie := c.ie, plact := c.lact
    ptimeh := c.timeh, pinsth := c.insth, pswh := c.swh, prv := true, ie := false, lact := false, intrap := true
    wait := .none, pend := .none, vloop := none, halted := false, missed := false, stepping := false, inIssue := [] }
  if fatal then { c with retiring := some (.fatal code), flushing := true } else { c with flushing := false }.setPc c.tvec

/-- A wait in the queue of a bell, a mutex or the lane pool is abandoned: the context leaves the queue (15 R439, 10 R292). -/
def State.leaveQueues (s : State) (a : AgentId) : State :=
  let u := s.unitOf a
  if u.bells.any (fun b => b.2.waiters.contains a) || u.mutexes.any (fun m => m.2.queue.contains a) ||
      u.claims.any (fun c => c.ctx = a) then
    s.setUnitOf a { u with
      bells := u.bells.map (fun b => (b.1, { b.2 with waiters := b.2.waiters.filter (· ≠ a) }))
      mutexes := u.mutexes.map (fun m => (m.1, { m.2 with queue := m.2.queue.filter (· ≠ a) }))
      claims := u.claims.filter (fun c => c.ctx ≠ a) }
  else s

/-- Take a trap in a context, with EPC at `epc`: trap entry of 06 R182 and the trace entries and triggers of 18 R493. -/
def State.takeTrapAt (s : State) (a : AgentId) (cls : TrapClass) (glen : Nat) (code : BitVec 8) (tval epc : Word) : State :=
  let before := s.ctxOf a
  let s := s.leaveQueues a
  let s := s.traceIf a 4 5 code.toNat epc tval
  let s := s.trigger a 2
  let s := if code = Cause.brk then s.trigger a 1 else s
  let s := if code = Cause.matrixNan then s.trigger a 3 else s
  let s := if code = Cause.fpTrap then s.trigger a 4 else s
  let after := (s.ctxOf a).enterTrap cls glen code tval epc
  (s.setCtxOf a after).loopBuffer a { before with lrem := 0 } after

/-- Take a trap at the group where the context stands. A precise or deferred-precise trap in the body of a VLOOP that is being
collected is taken at the VLOOP group, with the length of that group and the loop registers as they stood at it (10 R265). So is a fetch
fault of a body group, to which 06 R186 and 18 R475 give GLEN 0 and 10 R265, which speaks of faults at issue, the VLOOP group's length: the
latter stands here (log 46). -/
def State.takeTrap (s : State) (a : AgentId) (cls : TrapClass) (glen : Nat) (code : BitVec 8) (tval : Word) : State :=
  match (s.ctxOf a).vloop with
  | none => s.takeTrapAt a cls glen code tval (s.ctxOf a).pcLow
  | some l =>
    (s.updOf a (fun c => { c with lcnt := l.lcnt, lend := l.lend, lrem := l.lrem, lact := l.lact })).takeTrapAt a cls l.len code
      tval l.start

/-- The group in issue raises a precise trap: nothing of it is done (06 R179). -/
def State.trap (s : State) (code : BitVec 8) (tval : Word) : Res :=
  .next (s.takeTrap s.cur .precise s.group.words.length code tval)

/-- ILLEGAL found by the instruction itself at its base word (04 R101). -/
def State.illegal (s : State) (reason : BitVec 4) : Res :=
  s.trap Cause.illegal (illegalTval reason (s.group.words.length - 1) s.group.base s.group.page)

/-- PRIV with a system register number or 0 (06 R185). -/
def State.privTrap (s : State) (reg : Nat) : Res :=
  s.trap Cause.priv (BitVec.ofNat 32 (reg * 2 ^ 16 + s.group.base.toNat))

/-- The registers after ERET at kernel privilege (06 R183); the shadow of INSTANTH has 16 bits (15 R430). -/
def Ctx.eret (c : Ctx) : Ctx :=
  { c with prv := c.pprv, ie := c.pie, lact := c.plact, intrap := false, timeh := c.ptimeh, insth := c.pinsth &&& 0xFFFF
           swh := c.pswh, resumable := false }.setPc c.epc

/-- A taken transfer of control to an address in the text segment, with the group's own effect `f` on the registers; the loop
registers are untouched, since no transfer stands in a LOOP body (06 R171). -/
def State.jump (s : State) (target : Word) (f : Ctx → Ctx) : Res :=
  let s := s.traceIf s.cur 0 0 0 s.ctx.pcLow target
  .next (s.upd (fun c => (f c.ready).setPc target))

/-- A group that must not stand in a LOOP body (06 R171): ILLEGAL with reason 0x9 when LACT is 1. -/
def State.outsideLoop (s : State) (k : Res) : Res := if s.ctx.lact then s.illegal 9 else k

/-- Instructions that a hart does not execute (01 R24): ILLEGAL with reason 0xA. -/
def State.coreOnly (s : State) (k : Res) : Res := if isHart s.cur then s.illegal 0xA else k

/-- A kernel-only instruction: PRIV at program privilege (18 R496). -/
def State.kernelOnly (s : State) (k : Res) : Res := if s.ctx.prv then k else s.privTrap 0

end Sys2Proof.Machine
end

