-- ==== Sys2Proof/Machine/Num.lean ====
section
/-!
DEFINITION. Machine/Num.lean: the floating formats, exact values, and rounding (07 R187-R199, R209-R213).
-/
namespace Sys2Proof.Machine

/-! ### Flags (07 R200) -/

namespace Flag
def nv : BitVec 5 := 16
def dz : BitVec 5 := 8
def ov : BitVec 5 := 4
def un : BitVec 5 := 2
def nx : BitVec 5 := 1
end Flag

/-- A flag raised or not. -/
def flagIf (b : Bool) (f : BitVec 5) : BitVec 5 := if b then f else 0

/-! ### Exact values -/

/-- An operand or an exact result: a NaN, signalling or not; an infinity; or the finite value n ÷ d with its sign, where n = 0
is a signed zero and d is not 0. -/
inductive Num where
  | nan (sig : Bool)
  | inf (neg : Bool)
  | fin (neg : Bool) (n d : Nat)
  deriving DecidableEq, Repr

def Num.isNan : Num → Bool
  | .nan _ => true
  | .inf _ => false
  | .fin _ _ _ => false

def Num.sig : Num → Bool
  | .nan s => s
  | .inf _ => false
  | .fin _ _ _ => false

def Num.neg : Num → Num
  | .nan s => .nan s
  | .inf b => .inf (!b)
  | .fin b n d => .fin (!b) n d

/-- Sign of a number; a NaN counts as positive. -/
def Num.sign : Num → Bool
  | .nan _ => false
  | .inf b => b
  | .fin b _ _ => b

/-- The value n × 2^e of a sign. -/
def Num.scaled (neg : Bool) (n : Nat) (e : Int) : Num :=
  if e < 0 then .fin neg n (2 ^ (-e).toNat) else .fin neg (n * 2 ^ e.toNat) 1

/-! ### Formats (07 R187, R188) -/

/-- A floating format: widths of exponent and fraction, bias, and whether it has infinities. -/
structure FpFormat where
  eb : Nat
  fb : Nat
  bias : Nat
  hasInf : Bool
  deriving DecidableEq, Repr

def fp32 : FpFormat := ⟨8, 23, 127, true⟩
def bf16 : FpFormat := ⟨8, 7, 127, true⟩
def e4m3 : FpFormat := ⟨4, 3, 7, false⟩
def e5m2 : FpFormat := ⟨5, 2, 15, true⟩

/-- The default NaN (07 R188, R190). -/
def FpFormat.nanBits (f : FpFormat) : Nat :=
  if f.hasInf then (2 ^ f.eb - 1) * 2 ^ f.fb + 2 ^ (f.fb - 1) else 2 ^ (f.eb + f.fb) - 1
/-- The sign bit in place. -/
def FpFormat.signBits (f : FpFormat) (neg : Bool) : Nat := if neg then 2 ^ (f.eb + f.fb) else 0
/-- An infinity; in a format without one, the default NaN (07 R199). -/
def FpFormat.infBits (f : FpFormat) (neg : Bool) : Nat :=
  if f.hasInf then f.signBits neg + (2 ^ f.eb - 1) * 2 ^ f.fb else f.nanBits
/-- Magnitude bits of the largest finite value. -/
def FpFormat.maxBits (f : FpFormat) : Nat :=
  if f.hasInf then (2 ^ f.eb - 1) * 2 ^ f.fb - 1 else 2 ^ (f.eb + f.fb) - 2
/-- Exponent of the unit in the last place of a subnormal. -/
def FpFormat.lowExp (f : FpFormat) : Int := 1 - (f.bias : Int) - (f.fb : Int)

/-- The value that bits encode. -/
def FpFormat.decode (f : FpFormat) (w : Nat) : Num :=
  let neg := w / 2 ^ (f.eb + f.fb) % 2 = 1
  let e := w / 2 ^ f.fb % 2 ^ f.eb
  let m := w % 2 ^ f.fb
  if f.hasInf ∧ e = 2 ^ f.eb - 1 then
    if m = 0 then .inf neg else .nan (m / 2 ^ (f.fb - 1) % 2 = 0)
  else if !f.hasInf ∧ w % 2 ^ (f.eb + f.fb) = 2 ^ (f.eb + f.fb) - 1 then .nan false
  else if e = 0 then .scaled neg m f.lowExp
  else .scaled neg (2 ^ f.fb + m) (f.lowExp + (e - 1 : Nat))

/-! ### Rounding (07 R194, R195) -/

/-- Round n ÷ d of a sign to an integer in a mode: the magnitude, and whether it is inexact. -/
def roundNat (rnd : BitVec 2) (neg : Bool) (n d : Nat) : Nat × Bool :=
  let m := n / d
  let r := n % d
  let up : Bool :=
    match rnd.toNat with
    | 0 => 2 * r > d || (2 * r = d && m % 2 = 1)
    | 1 => false
    | 2 => r ≠ 0 && !neg
    | _ => r ≠ 0 && neg
  (if up then m + 1 else m, r ≠ 0)

/-- n ÷ d in units of 2^q, as a fraction. -/
def inUnits (n d : Nat) (q : Int) : Nat × Nat :=
  if q < 0 then (n * 2 ^ (-q).toNat, d) else (n, d * 2 ^ q.toNat)

/-- The exponent e with 2^e ≤ n ÷ d < 2^(e+1), for n and d not 0. -/
def exponentOf (n d : Nat) : Int :=
  let k : Int := (Nat.log2 n : Int) - (Nat.log2 d : Int)
  let u := inUnits n d k
  if u.2 ≤ u.1 then k else k - 1

/-- Round n ÷ d of a sign to a format (07 R195): bits and flags. The units of the result are those of its own exponent, or of
the subnormals; magnitude bits above the largest finite overflow. Tininess is judged on the rounding with an unbounded
exponent. -/
def FpFormat.round (f : FpFormat) (rnd : BitVec 2) (neg : Bool) (n d : Nat) : Nat × BitVec 5 :=
  if n = 0 then (f.signBits neg, 0)
  else
    let e := exponentOf n d
    let qu := e - (f.fb : Int)
    let q := if qu < f.lowExp then f.lowExp else qu
    let u := inUnits n d q
    let r := roundNat rnd neg u.1 u.2
    let mag := (q - f.lowExp).toNat * 2 ^ f.fb + r.1
    if f.maxBits < mag then
      let toInf : Bool :=
        match rnd.toNat with
        | 0 => true
        | 1 => false
        | 2 => !neg
        | _ => neg
      (if toInf then f.infBits neg else f.signBits neg + f.maxBits, Flag.ov ||| Flag.nx)
    else
      let v := inUnits n d qu
      let free := (roundNat rnd neg v.1 v.2).1
      let tiny : Bool := qu + 1 < f.lowExp || (qu < f.lowExp && free < 2 ^ (f.fb + 1))
      (f.signBits neg + mag, flagIf r.2 Flag.nx ||| flagIf (r.2 && tiny) Flag.un)

/-- Deliver an exact result in a format: a NaN becomes the default NaN (07 R190). -/
def FpFormat.deliver (f : FpFormat) (rnd : BitVec 2) : Num → Nat × BitVec 5
  | .nan _ => (f.nanBits, 0)
  | .inf b => (f.infBits b, 0)
  | .fin b n d => f.round rnd b n d

/-- Deliver with the flags of the operation. -/
def FpFormat.deliverF (f : FpFormat) (rnd : BitVec 2) (r : Num × BitVec 5) : Nat × BitVec 5 :=
  ((f.deliver rnd r.1).1, r.2 ||| (f.deliver rnd r.1).2)

/-! ### Exact operations (07 R209, R210, R212) -/

/-- Signed numerator over a common denominator. -/
def signed (neg : Bool) (n : Nat) : Int := if neg then -(n : Int) else n

/-- The sum of two finite values; an exact zero of operands of opposite sign is −0 in RDN only (07 R195), and one of like signs
keeps the sign. -/
def addFin (rnd : BitVec 2) (a : Bool) (n d : Nat) (b : Bool) (m e : Nat) : Num :=
  let t := signed a (n * e) + signed b (m * d)
  if t = 0 then .fin (if a = b then a else rnd = 3) 0 1 else .fin (t < 0) t.natAbs (d * e)

/-- y + z (07 R209). -/
def Num.add (rnd : BitVec 2) (y z : Num) : Num × BitVec 5 :=
  match y, z with
  | .fin a n d, .fin b m e => (addFin rnd a n d b m e, 0)
  | .inf a, .inf b => if a = b then (.inf a, 0) else (.nan false, Flag.nv)
  | .inf a, .fin _ _ _ => (.inf a, 0)
  | .fin _ _ _, .inf b => (.inf b, 0)
  | .nan s, z => (.nan false, flagIf (s || z.sig) Flag.nv)
  | y, .nan s => (.nan false, flagIf (s || y.sig) Flag.nv)

/-- y × z (07 R209). -/
def Num.mul (y z : Num) : Num × BitVec 5 :=
  let neg := y.sign != z.sign
  match y, z with
  | .fin _ n d, .fin _ m e => (.fin neg (n * m) (d * e), 0)
  | .inf _, .inf _ => (.inf neg, 0)
  | .inf _, .fin _ m _ => if m = 0 then (.nan false, Flag.nv) else (.inf neg, 0)
  | .fin _ n _, .inf _ => if n = 0 then (.nan false, Flag.nv) else (.inf neg, 0)
  | .nan s, z => (.nan false, flagIf (s || z.sig) Flag.nv)
  | y, .nan s => (.nan false, flagIf (s || y.sig) Flag.nv)

/-- y ÷ z (07 R209). -/
def Num.div (y z : Num) : Num × BitVec 5 :=
  let neg := y.sign != z.sign
  match y, z with
  | .fin _ n d, .fin _ m e =>
    if m = 0 then (if n = 0 then (.nan false, Flag.nv) else (.inf neg, Flag.dz)) else (.fin neg (n * e) (d * m), 0)
  | .inf _, .inf _ => (.nan false, Flag.nv)
  | .inf _, .fin _ _ _ => (.inf neg, 0)
  | .fin _ _ _, .inf _ => (.fin neg 0 1, 0)
  | .nan s, z => (.nan false, flagIf (s || z.sig) Flag.nv)
  | y, .nan s => (.nan false, flagIf (s || y.sig) Flag.nv)

/-- b × c + addend, negated after the sum where asked (07 R210). -/
def Num.fma (rnd : BitVec 2) (negate : Bool) (b c addend : Num) : Num × BitVec 5 :=
  let p := Num.mul b c
  let t := Num.add rnd p.1 addend
  (if negate then t.1.neg else t.1, p.2 ||| t.2)

/-- Integer square root, rounded down, built bit by bit: `i` bits remain. -/
def isqrtFrom (n : Nat) : Nat → Nat → Nat
  | 0, r => r
  | i + 1, r => isqrtFrom n i (if (r + 2 ^ i) * (r + 2 ^ i) ≤ n then r + 2 ^ i else r)
def isqrt (n : Nat) : Nat := isqrtFrom n (Nat.log2 n / 2 + 1) 0

/-- √(n ÷ d) for rounding: in units of 2^−160, with a last odd unit when it is not exact. Any rounding to fewer than 60 bits of a
value above 2^−100 is that of the exact root. -/
def sqrtSticky (n d : Nat) : Nat × Nat :=
  let a := isqrt (n * 2 ^ 320 / d)
  (2 * a + (if a * a * d = n * 2 ^ 320 then 0 else 1), 2 ^ 161)

/-- √y (07 R212). -/
def Num.sqrt : Num → Num × BitVec 5
  | .nan s => (.nan false, flagIf s Flag.nv)
  | .inf b => if b then (.nan false, Flag.nv) else (.inf false, 0)
  | .fin b n d =>
    if n = 0 then (.fin b 0 1, 0)
    else if b then (.nan false, Flag.nv)
    else (.fin false (sqrtSticky n d).1 (sqrtSticky n d).2, 0)

/-- y < z on numbers, zeros of either sign equal; false where one is a NaN. -/
def Num.lt (y z : Num) : Bool :=
  match y, z with
  | .fin a n d, .fin b m e => signed a (n * e) < signed b (m * d)
  | .inf a, .inf b => a && !b
  | .inf a, .fin _ _ _ => a
  | .fin _ _ _, .inf b => !b
  | .nan _, _ => false
  | _, .nan _ => false

/-- y = z on numbers; false where one is a NaN. -/
def Num.eq (y z : Num) : Bool := !y.isNan && !z.isNan && !y.lt z && !z.lt y

/-- y before z in the order of FMIN, in which −0 stands below +0 (07 R211). -/
def Num.before (y z : Num) : Bool := y.lt z || (y.eq z && y.sign && !z.sign)

/-! ### FP32 operations on bits -/

def num32 (w : Word) : Num := fp32.decode w.toNat
def word32 (n : Nat) : Word := BitVec.ofNat 32 n

/-- Round an FP32 operation's exact result. -/
def round32 (rnd : BitVec 2) (r : Num × BitVec 5) : Word × BitVec 5 :=
  (word32 (fp32.deliverF rnd r).1, (fp32.deliverF rnd r).2)

def addF (rnd : BitVec 2) (y z : Word) : Word × BitVec 5 := round32 rnd (Num.add rnd (num32 y) (num32 z))
def subF (rnd : BitVec 2) (y z : Word) : Word × BitVec 5 := round32 rnd (Num.add rnd (num32 y) (num32 z).neg)
def mulF (rnd : BitVec 2) (y z : Word) : Word × BitVec 5 := round32 rnd (Num.mul (num32 y) (num32 z))
def divF (rnd : BitVec 2) (y z : Word) : Word × BitVec 5 := round32 rnd (Num.div (num32 y) (num32 z))
def sqrtF (rnd : BitVec 2) (y : Word) : Word × BitVec 5 := round32 rnd (Num.sqrt (num32 y))

/-- FMA, FMS, FNMA, FNMS (07 R210): `sub` takes the addend negated, `negate` negates the sum. -/
def fmaF (rnd : BitVec 2) (sub negate : Bool) (addend b c : Word) : Word × BitVec 5 :=
  let a := if sub then (num32 addend).neg else num32 addend
  round32 rnd (Num.fma rnd negate (num32 b) (num32 c) a)

/-- FMIN, or FMAX (07 R211). -/
def minMaxF (max : Bool) (y z : Word) : Word × BitVec 5 :=
  let p := num32 y
  let q := num32 z
  let flags := flagIf (p.sig || q.sig) Flag.nv
  if p.isNan then ((if q.isNan then word32 fp32.nanBits else z), flags)
  else if q.isNan then (y, flags)
  else if max then ((if p.before q then z else y), 0)
  else ((if q.before p then z else y), 0)

/-- The compares (07 R213): answer and flags. -/
def eqF (y z : Word) : Bool × BitVec 5 := ((num32 y).eq (num32 z), flagIf ((num32 y).sig || (num32 z).sig) Flag.nv)
def ltF (y z : Word) : Bool × BitVec 5 := ((num32 y).lt (num32 z), flagIf ((num32 y).isNan || (num32 z).isNan) Flag.nv)
def leF (y z : Word) : Bool × BitVec 5 :=
  ((num32 y).lt (num32 z) || (num32 y).eq (num32 z), flagIf ((num32 y).isNan || (num32 z).isNan) Flag.nv)
def unordF (y z : Word) : Bool × BitVec 5 :=
  ((num32 y).isNan || (num32 z).isNan, flagIf ((num32 y).sig || (num32 z).sig) Flag.nv)

/-- The class code (07 R214). -/
def classF (y : Word) : Word :=
  let cls : Nat :=
    match num32 y with
    | .nan s => if s then 5 else 4
    | .inf _ => 3
    | .fin _ n _ => if n = 0 then 0 else if y.toNat / 2 ^ 23 % 256 = 0 then 1 else 2
  BitVec.ofNat 32 (cls + 8 * (y.toNat / 2 ^ 31))

/-! ### Conversions (07 R196-R199) -/

/-- To an integer between two bounds (07 R198). -/
def Num.toIntIn (rnd : BitVec 2) (lo hi : Int) : Num → Int × BitVec 5
  | .nan _ => (0, Flag.nv)
  | .inf b => (if b then lo else hi, Flag.nv)
  | .fin b n d =>
    let r := roundNat rnd b n d
    let v := signed b r.1
    if hi < v then (hi, Flag.nv) else if v < lo then (lo, Flag.nv) else (v, flagIf r.2 Flag.nx)

def Num.toI32 (rnd : BitVec 2) (y : Num) : Word × BitVec 5 :=
  let r := y.toIntIn rnd (-(2 ^ 31)) (2 ^ 31 - 1)
  (wordOf r.1, r.2)
def Num.toN32 (rnd : BitVec 2) (y : Num) : Word × BitVec 5 :=
  let r := y.toIntIn rnd 0 (2 ^ 32 - 1)
  (wordOf r.1, r.2)

/-- To a narrow format (07 R196, R199): bits, flags, and whether a .SAT form clamped. -/
def FpFormat.narrow (f : FpFormat) (rnd : BitVec 2) (sat : Bool) (y : Num) : Word × BitVec 5 × Bool :=
  match y with
  | .nan s => (word32 f.nanBits, flagIf s Flag.nv, false)
  | .inf b =>
    if sat then (word32 (f.signBits b + f.maxBits), Flag.ov, true)
    else (word32 (f.infBits b), flagIf (!f.hasInf) Flag.nv, false)
  | .fin b n d =>
    let r := f.round rnd b n d
    if sat && r.2.getLsbD 2 then (word32 (f.signBits b + f.maxBits), r.2, true) else (word32 r.1, r.2, false)

/-- From a narrow format to FP32, exactly (07 R197). -/
def FpFormat.widen (f : FpFormat) (w : Nat) : Word × BitVec 5 :=
  let y := f.decode (w % 2 ^ (f.eb + f.fb + 1))
  (word32 (fp32.deliver 0 y).1, flagIf y.sig Flag.nv)

/-- From an integer to FP32 (07 R198, R216). -/
def ofInt32 (rnd : BitVec 2) (v : Int) : Word × BitVec 5 :=
  let r := fp32.round rnd (v < 0) v.natAbs 1
  (word32 r.1, r.2)

end Sys2Proof.Machine
end

