-- ==== Sys2Proof/Machine/Slash.lean ====
section
/-!
DEFINITION. Machine/Slash.lean: slash words, rounding by descent, and the operations of rational mode (08 R218-R243).
-/
namespace Sys2Proof.Machine

/-! ### The slash word (08 R218-R220) -/

/-- The value of a slash word: the NaN, an invalid code, an infinity, or a finite fraction with its sign. -/
inductive Slash where
  | nan
  | invalid
  | inf (neg : Bool)
  | fin (neg : Bool) (p q : Nat)
  deriving DecidableEq, Repr

def slashB (w : Word) : Nat := bitsOf w.toNat 30 26
def slashP (w : Word) : Nat := bitsOf w.toNat 25 0 / 2 ^ slashB w
def slashQ (w : Word) : Nat := 2 ^ slashB w + bitsOf w.toNat 25 0 % 2 ^ slashB w
def slashS (w : Word) : Bool := w.getLsbD 31

def Slash.ofWord (w : Word) : Slash :=
  if slashB w < 26 then .fin (slashS w) (slashP w) (slashQ w)
  else if slashB w = 26 then .inf (slashS w)
  else if slashB w = 27 then .nan
  else .invalid

/-- Bits of a number without leading zeros. -/
def bitLen (n : Nat) : Nat := if n = 0 then 0 else Nat.log2 n + 1

/-- p ÷ q is representable (08 R219). -/
def rep (p q : Nat) : Bool := p = 0 || bitLen p + bitLen q ≤ 27

/-- The canonical words (08 R220). -/
def slashNan : Word := 0x6C000000
def slashInf (neg : Bool) : Word := if neg then 0xE8000000 else 0x68000000
/-- The word of a representable fraction in lowest terms; 1 ÷ 0 is an infinity. -/
def slashWord (neg : Bool) (p q : Nat) : Word :=
  if p = 0 then 0
  else if q = 0 then slashInf neg
  else
    let b := bitLen q - 1
    BitVec.ofNat 32 ((if neg then 2 ^ 31 else 0) + b * 2 ^ 26 + p * 2 ^ b + (q - 2 ^ b))

/-! ### Descent (08 R225-R228) -/

/-- The magnitude that is rounded: P ÷ Q, or its square root. -/
structure Target where
  P : Nat
  Q : Nat
  root : Bool

/-- How a fraction a ÷ b, of which b may be 0, compares with the target. -/
def Target.cmp (x : Target) (a b : Nat) : Ordering :=
  if x.root then compare (a * a * x.Q) (x.P * (b * b)) else compare (a * x.Q) (x.P * b)

/-- The largest k below 2^n for which a downward closed test holds, found bit by bit. -/
def largestK (ok : Nat → Bool) : Nat → Nat → Nat
  | 0, k => k
  | n + 1, k => largestK ok n (if ok (k + 2 ^ n) then k + 2 ^ n else k)

/-- Where a descent ends, with its runs: on an exact fraction, or between two neighbours. -/
inductive Descent where
  | exact (p q runs : Nat)
  | between (lp lq hp hq runs : Nat)

/-- The loop of 08 R226 with its two runs; a descent takes no more than 28 runs, and so 14 rounds. -/
def descend (x : Target) : Nat → Nat → Nat → Nat → Nat → Nat → Descent
  | 0, lp, lq, hp, hq, runs => .between lp lq hp hq runs
  | n + 1, lp, lq, hp, hq, runs =>
    let k := largestK (fun k => x.cmp (lp + k * hp) (lq + k * hq) ≠ .gt && rep (lp + k * hp) (lq + k * hq)) 28 0
    let lp := lp + k * hp
    let lq := lq + k * hq
    if x.cmp lp lq = .eq then .exact lp lq (runs + 1)
    else if !rep (lp + hp) (lq + hq) then .between lp lq hp hq (runs + 1)
    else
      let k := largestK (fun k => x.cmp (hp + k * lp) (hq + k * lq) ≠ .lt && rep (hp + k * lp) (hq + k * lq)) 28 0
      let hp := hp + k * lp
      let hq := hq + k * lq
      if x.cmp hp hq = .eq then .exact hp hq (runs + 2)
      else if !rep (lp + hp) (lq + hq) then .between lp lq hp hq (runs + 2)
      else descend x n lp lq hp hq (runs + 2)

/-- The higher neighbour is chosen (08 R227); RMODE values 5 to 7 are never held (08 R222). -/
def chooseHigh (x : Target) (rmode : BitVec 3) (neg : Bool) (lp lq hp hq : Nat) : Bool :=
  let tie : Bool := if lq = hq then hp % 2 = 0 else hq < lq
  let against (a b : Nat) : Bool :=
    match x.cmp a b with
    | .gt => false
    | .lt => true
    | .eq => tie
  match rmode.toNat with
  | 0 => against (lp * hq + hp * lq) (2 * lq * hq)
  | 1 => against (lp + hp) (lq + hq)
  | 2 => false
  | 3 => neg
  | _ => !neg

/-- An operation's result: word, flags and runs. -/
structure SlashOut where
  word : Word
  flags : BitVec 5
  runs : Nat
  deriving DecidableEq, Repr

/-- Round a magnitude that is not 0 (08 R225-R228), with the flags of 08 R223. -/
def Target.round (x : Target) (rmode : BitVec 3) (neg : Bool) : SlashOut :=
  match descend x 15 0 1 1 0 0 with
  | .exact p q runs => ⟨slashWord neg p q, 0, runs⟩
  | .between lp lq hp hq runs =>
    let w := if chooseHigh x rmode neg lp lq hp hq then slashWord neg hp hq else slashWord neg lp lq
    ⟨w, Flag.nx ||| flagIf (x.cmp 67108863 1 = .lt) Flag.ov ||| flagIf (x.cmp 1 67108863 = .gt) Flag.un, runs⟩

def slashOut (w : Word) (flags : BitVec 5) : SlashOut := ⟨w, flags, 0⟩

/-- Round n ÷ d of a sign, d not 0. -/
def roundRat (rmode : BitVec 3) (neg : Bool) (n d : Nat) : SlashOut :=
  if n = 0 then slashOut 0 0 else Target.round ⟨n, d, false⟩ rmode neg

/-! ### Arithmetic (08 R232-R236) -/

/-- An exact result before rounding. -/
inductive SlashRes where
  | nan
  | inf (neg : Bool)
  | rat (neg : Bool) (n d : Nat)

def SlashRes.deliver (rmode : BitVec 3) (r : SlashRes × BitVec 5) : SlashOut :=
  match r.1 with
  | .nan => slashOut slashNan r.2
  | .inf b => slashOut (slashInf b) r.2
  | .rat b n d =>
    let o := roundRat rmode b n d
    { o with flags := o.flags ||| r.2 }

def Slash.isNan : Slash → Bool
  | .nan => true
  | .invalid => true
  | .inf _ => false
  | .fin _ _ _ => false

def Slash.isInvalid : Slash → Bool
  | .invalid => true
  | .nan => false
  | .inf _ => false
  | .fin _ _ _ => false

def Slash.neg : Slash → Slash
  | .nan => .nan
  | .invalid => .invalid
  | .inf b => .inf (!b)
  | .fin b p q => .fin (!b) p q

/-- Sign, with zero positive (08 R232). -/
def Slash.sign : Slash → Bool
  | .nan => false
  | .invalid => false
  | .inf b => b
  | .fin b p _ => b && p ≠ 0

/-- A NaN result: NV when an operand is an invalid code. -/
def slashNanOf (y z : Slash) : SlashRes × BitVec 5 := (.nan, flagIf (y.isInvalid || z.isInvalid) Flag.nv)

def Slash.add (y z : Slash) : SlashRes × BitVec 5 :=
  match y, z with
  | .fin a n d, .fin b m e =>
    let t := signed a (n * e) + signed b (m * d)
    (.rat (t < 0) t.natAbs (d * e), 0)
  | .inf a, .inf b => if a = b then (.inf a, 0) else (.nan, Flag.nv)
  | .inf a, .fin _ _ _ => (.inf a, 0)
  | .fin _ _ _, .inf b => (.inf b, 0)
  | .nan, z => slashNanOf .nan z
  | .invalid, z => slashNanOf .invalid z
  | y, .nan => slashNanOf y .nan
  | y, .invalid => slashNanOf y .invalid

def Slash.mul (y z : Slash) : SlashRes × BitVec 5 :=
  let neg := y.sign != z.sign
  match y, z with
  | .fin _ n d, .fin _ m e => (.rat neg (n * m) (d * e), 0)
  | .inf _, .inf _ => (.inf neg, 0)
  | .inf _, .fin _ m _ => if m = 0 then (.nan, Flag.nv) else (.inf neg, 0)
  | .fin _ n _, .inf _ => if n = 0 then (.nan, Flag.nv) else (.inf neg, 0)
  | .nan, z => slashNanOf .nan z
  | .invalid, z => slashNanOf .invalid z
  | y, .nan => slashNanOf y .nan
  | y, .invalid => slashNanOf y .invalid

def Slash.div (y z : Slash) : SlashRes × BitVec 5 :=
  let neg := y.sign != z.sign
  match y, z with
  | .fin a n d, .fin _ m e =>
    if m = 0 then (if n = 0 then (.nan, Flag.nv) else (.inf a, Flag.dz)) else (.rat neg (n * e) (d * m), 0)
  | .inf _, .inf _ => (.nan, Flag.nv)
  | .inf _, .fin _ _ _ => (.inf neg, 0)
  | .fin _ _ _, .inf _ => (.rat false 0 1, 0)
  | .nan, z => slashNanOf .nan z
  | .invalid, z => slashNanOf .invalid z
  | y, .nan => slashNanOf y .nan
  | y, .invalid => slashNanOf y .invalid

/-- A result as an operand of a following operation. -/
def SlashRes.toSlash : SlashRes → Slash
  | .nan => .nan
  | .inf b => .inf b
  | .rat b n d => .fin b n d

def SlashRes.neg : SlashRes → SlashRes
  | .nan => .nan
  | .inf b => .inf (!b)
  | .rat b n d => .rat (!b) n d

/-- b × c + addend, negated after the sum where asked (08 R233). -/
def Slash.fma (negate : Bool) (b c addend : Slash) : SlashRes × BitVec 5 :=
  let p := Slash.mul b c
  let t := Slash.add p.1.toSlash addend
  (if negate then t.1.neg else t.1, p.2 ||| t.2)

/-- FSQRT (08 R234). -/
def slashSqrt (rmode : BitVec 3) (y : Word) : SlashOut :=
  match Slash.ofWord y with
  | .nan => slashOut slashNan 0
  | .invalid => slashOut slashNan Flag.nv
  | .inf b => if b then slashOut slashNan Flag.nv else slashOut (slashInf false) 0
  | .fin b p q =>
    if p = 0 then slashOut 0 0
    else if b then slashOut slashNan Flag.nv
    else Target.round ⟨p, q, true⟩ rmode false

/-- y < z on slash numbers; false where one is not a number. -/
def Slash.lt (y z : Slash) : Bool :=
  match y, z with
  | .fin a n d, .fin b m e => signed a (n * e) < signed b (m * d)
  | .inf a, .inf b => a && !b
  | .inf a, .fin _ _ _ => a
  | .fin _ _ _, .inf b => !b
  | .nan, _ => false
  | .invalid, _ => false
  | _, .nan => false
  | _, .invalid => false

def Slash.eq (y z : Slash) : Bool := !y.isNan && !z.isNan && !y.lt z && !z.lt y

/-- The canonical word of a value (08 R220). -/
def Slash.canonical : Slash → Word
  | .nan => slashNan
  | .invalid => slashNan
  | .inf b => slashInf b
  | .fin b p q => slashWord b (p / Nat.gcd p q) (q / Nat.gcd p q)

/-- FMIN, or FMAX (08 R235). -/
def slashMinMax (max : Bool) (y z : Word) : SlashOut :=
  let p := Slash.ofWord y
  let q := Slash.ofWord z
  let flags := flagIf (p.isInvalid || q.isInvalid) Flag.nv
  if p.isNan then slashOut q.canonical flags
  else if q.isNan then slashOut p.canonical flags
  else if max then slashOut (if p.lt q then q else p).canonical flags
  else slashOut (if q.lt p then q else p).canonical flags

/-- The compares (08 R236): answer and flags. -/
def slashEq (y z : Word) : Bool × BitVec 5 :=
  let p := Slash.ofWord y
  let q := Slash.ofWord z
  (p.eq q, flagIf (p.isInvalid || q.isInvalid) Flag.nv)
def slashLt (y z : Word) : Bool × BitVec 5 :=
  let p := Slash.ofWord y
  let q := Slash.ofWord z
  (p.lt q, flagIf (p.isNan || q.isNan) Flag.nv)
def slashLe (y z : Word) : Bool × BitVec 5 :=
  let p := Slash.ofWord y
  let q := Slash.ofWord z
  (p.lt q || p.eq q, flagIf (p.isNan || q.isNan) Flag.nv)
def slashUnord (y z : Word) : Bool × BitVec 5 :=
  let p := Slash.ofWord y
  let q := Slash.ofWord z
  (p.isNan || q.isNan, flagIf (p.isInvalid || q.isInvalid) Flag.nv)

/-- FCLASS (08 R236). -/
def slashClass (y : Word) : Word :=
  match Slash.ofWord y with
  | .nan => 4
  | .invalid => 6
  | .inf b => if b then 11 else 3
  | .fin b p _ => if p = 0 then 0 else if b then 10 else 2

/-- FNEG, FABS: bit 31 inverted or cleared; a zero becomes the canonical zero, and an invalid code passes unchanged (08 R231). -/
def slashSign (y : Word) (w : Word) : Word :=
  match Slash.ofWord y with
  | .fin _ p _ => if p = 0 then 0 else w
  | .nan => w
  | .invalid => y
  | .inf _ => w

/-! ### Conversions (08 R237, R242, R243) -/

/-- RMODE as an integer rounding mode (08 R237). -/
def rmodeInt (rmode : BitVec 3) : BitVec 2 :=
  match rmode.toNat with
  | 2 => 1
  | 3 => 3
  | 4 => 2
  | _ => 0

/-- A slash value as a number that converts as a floating one would; NV for an invalid code. -/
def Slash.toNum : Slash → Num
  | .nan => .nan false
  | .invalid => .nan true
  | .inf b => .inf b
  | .fin b p q => .fin (b && p ≠ 0) p q

/-- A number to slash (08 R242). -/
def Num.toSlash (rmode : BitVec 3) : Num → SlashOut
  | .nan s => slashOut slashNan (flagIf s Flag.nv)
  | .inf b => slashOut (slashInf b) 0
  | .fin b n d => roundRat rmode b n d

/-- An integer to slash (08 R237). -/
def intToSlash (rmode : BitVec 3) (v : Int) : SlashOut := roundRat rmode (v < 0) v.natAbs 1

/-! ### Slash-specific operations (08 R238-R241) -/

/-- SMK (08 R238). -/
def slashMake (rmode : BitVec 3) (n d : Int) : SlashOut :=
  if d = 0 then
    if n = 0 then slashOut slashNan Flag.nv else slashOut (slashInf (n < 0)) Flag.dz
  else roundRat rmode ((n < 0) != (d < 0)) n.natAbs d.natAbs

/-- SNUM, SDEN, SBND (08 R239). -/
def slashNum (y : Word) : Word :=
  if slashB y < 26 then wordOf (signed (slashS y) (slashP y))
  else if slashB y = 26 then wordOf (signed (slashS y) 1) else 0
def slashDen (y : Word) : Word := if slashB y < 26 then BitVec.ofNat 32 (slashQ y) else 0
def slashBnd (y : Word) : Word := BitVec.ofNat 32 (slashB y)

/-- Numerator and denominator in lowest terms, an infinity as ±1/0 (08 R240). -/
def Slash.lowest : Slash → Option (Int × Nat)
  | .nan => none
  | .invalid => none
  | .inf b => some (signed b 1, 0)
  | .fin b p q => if p = 0 then some (0, 1) else some (signed b (p / Nat.gcd p q), q / Nat.gcd p q)

/-- SMED (08 R240). -/
def slashMediant (rmode : BitVec 3) (y z : Word) : SlashOut :=
  let p := Slash.ofWord y
  let q := Slash.ofWord z
  match p.lowest, q.lowest with
  | some (a, b), some (c, d) =>
    let n := a + c
    let m := b + d
    if m = 0 then (if n = 0 then slashOut slashNan Flag.nv else slashOut (slashInf (n < 0)) 0)
    else roundRat rmode (n < 0) n.natAbs m
  | none, _ => slashOut slashNan (flagIf (p.isInvalid || q.isInvalid) Flag.nv)
  | some _, none => slashOut slashNan (flagIf (p.isInvalid || q.isInvalid) Flag.nv)

/-- SREC (08 R241). -/
def slashRec (y : Word) : SlashOut :=
  match Slash.ofWord y with
  | .nan => slashOut slashNan 0
  | .invalid => slashOut slashNan Flag.nv
  | .inf _ => slashOut 0 0
  | .fin b p q =>
    if p = 0 then slashOut (slashInf false) Flag.dz
    else slashOut (slashWord b (q / Nat.gcd p q) (p / Nat.gcd p q)) 0

def slashBin (f : Slash → Slash → SlashRes × BitVec 5) (rmode : BitVec 3) (y z : Word) : SlashOut :=
  SlashRes.deliver rmode (f (Slash.ofWord y) (Slash.ofWord z))

/-- FMA, FMS, FNMA, FNMS (08 R233). -/
def slashFma (rmode : BitVec 3) (sub negate : Bool) (addend b c : Word) : SlashOut :=
  let a := if sub then (Slash.ofWord addend).neg else Slash.ofWord addend
  SlashRes.deliver rmode (Slash.fma negate (Slash.ofWord b) (Slash.ofWord c) a)

end Sys2Proof.Machine
end

