-- ==== Sys2Proof/Machine/Uses.lean ====
section
/-!
DEFINITION. Machine/Uses.lean: which scalar registers, and whether the T flag, each instruction reads and writes, for the interlock of
06 R139 and R143.
-/
namespace Sys2Proof.Machine

/-- The x and f registers an instruction reads and those it writes, and whether it reads and writes T. x0, which holds no value, may be
listed. Registers that a trap or a wait of the instruction reads are the same. -/
structure Uses where
  rx : List XReg
  rf : List FReg
  wx : List XReg
  wf : List FReg
  rt : Bool
  wt : Bool
  deriving DecidableEq, Repr

/-- The operands of optional c (04 R93): a and b without it, b and c with it. -/
def optRegs (a b : BitVec 5) : Option (BitVec 5) → List (BitVec 5)
  | none => [a, b]
  | some c => [b, c]

/-- Every x register: SPAWN copies them (06 R178). -/
def allX : List XReg := (List.range 32).map (BitVec.ofNat 5)

/-- The registers of an instruction, as the opcode map and the rule of each instruction name them; an event names none. -/
def usesOf : Instr → Uses
  | .add a b c | .sub a b c | .andX a b c | .orX a b c | .xorX a b c | .sll a b c | .srl a b c | .sra a b c | .mul a b c
  | .mulh a b c | .mulhn a b c | .minX a b c | .maxX a b c | .minn a b c | .maxn a b c | .andn a b c
  | .orn a b c | .rol a b c | .ror a b c =>
      ⟨(optRegs a b c), [], [a], [], false, false⟩
  | .gcd a b c | .div a b c | .divn a b c | .rem a b c | .remn a b c =>
      ⟨(optRegs a b c), [], [a], [], false, true⟩
  | .mov a b | .neg a b | .notX a b | .clz a b | .ctz a b | .popc a b | .sextb a b | .sexth a b | .ldw a b _ | .ldb a b _
  | .ldbn a b _ | .ldh a b _ | .ldhn a b _ | .jalr a b _ | .vclaim a b | .mcrd a b | .msatrd a b | .lda a b _ | .raucfg a b
  | .winget a b =>
      ⟨[b], [], [a], [], false, false⟩
  | .ceq a b | .cne a b | .clt a b | .cge a b | .cltn a b | .cgen a b | .tst a b | .winset a b =>
      ⟨[a, b], [], [], [], false, true⟩
  | .srd a _ =>
      ⟨[], [], [a], [], false, true⟩
  | .srdf a _ =>
      ⟨[], [], [], [a], false, true⟩
  | .movt a =>
      ⟨[], [], [a], [], true, false⟩
  | .addi a _ | .andi a _ | .ori a _ | .xori a _ | .shi a _ _ =>
      ⟨[a], [], [a], [], false, false⟩
  | .li a _ | .pca a _ | .vredaddI a _ _ | .vredmaxI a _ _ | .vredminI a _ _ | .vpopc a _ _ | .epname a _
  | .estat a _ | .dlyr a _ =>
      ⟨[], [], [a], [], false, false⟩
  | .ceqi a _ | .clti a _ =>
      ⟨[a], [], [], [], false, true⟩
  | .stw a b _ | .stb a b _ | .sth a b _ | .vloop a b | .mma a b | .mmar a b _ | .mcwr a b | .mquant a b | .stl a b _
  | .accI a b =>
      ⟨[a, b], [], [], [], false, false⟩
  | .ldf a b _ | .fcvtfI32 a b | .fcvtfN32 a b | .fmvF a b | .fcvtfBf16 a b | .fcvtfE4m3 a b | .fcvtfE5m2 a b | .fld a b _
  | .scvtf a b =>
      ⟨[b], [], [], [a], false, false⟩
  | .ldd a b _ =>
      ⟨[b], [], [a, a + 1], [], false, false⟩
  | .stf a b _ | .fst a b _ | .accF a b | .accsq a b =>
      ⟨[b], [a], [], [], false, false⟩
  | .std a b _ =>
      ⟨[a, a + 1, b], [], [], [], false, false⟩
  | .bf _ | .bt _ =>
      ⟨[], [], [], [], true, false⟩
  | .jmp _ | .endCtx | .endFail | .yield | .trap _ | .eret | .nop | .ipref _ | .vaddI _ _ _ _ | .vsubI _ _ _ _
  | .vmulI _ _ _ _ | .vminI _ _ _ _ | .vmaxI _ _ _ _ | .vand _ _ _ _ | .vor _ _ _ _ | .vxor _ _ _ _ | .vsll _ _ _ _
  | .vsrl _ _ _ _ | .vsra _ _ _ _ | .vaddsI _ _ _ _ | .vsubsI _ _ _ _ | .vaddF _ _ _ _ | .vsubF _ _ _ _ | .vmulF _ _ _ _
  | .vdivF _ _ _ _ | .vminF _ _ _ _ | .vmaxF _ _ _ _ | .vfma _ _ _ _ | .vfms _ _ _ _ | .vsel _ _ _ _ | .vceqI _ _ _ _
  | .vcltI _ _ _ _ | .vcltnI _ _ _ _ | .vceqF _ _ _ _ | .vcltF _ _ _ _ | .vcleF _ _ _ _ | .vcunF _ _ _ _ | .vcvtFI _ _ _
  | .vcvtIF _ _ _ | .vcvtBf16F _ _ _ | .vcvtFBf16 _ _ _ | .vcvtE4m3F _ _ _ | .vcvtE5m2F _ _ _ | .vcvtFE4m3 _ _ _
  | .vcvtFE5m2 _ _ _ | .vcvtBf16FSat _ _ _ | .vcvtE4m3FSat _ _ _ | .vcvtE5m2FSat _ _ _ | .viota _ _ | .vperm _ _ _ _
  | .vzip _ _ _ _ | .vunzip _ _ _ _ | .vrev _ _ _ | .vcompress _ _ _ | .vexpand _ _ _ | .vyield | .vsync | .vexp _ _ _
  | .vlog _ _ _ | .vrcp _ _ _ | .vrsqrt _ _ _ | .vtanh _ _ _ | .vsigm _ _ _ | .mring | .mwait | .msync | .mcswap
  | .fence _ _ | .jdrain | .flushr | .close _ | .sunbind _ | .noemit _ | .absb _ _ | .pres _ _ | .pause
  | .pauseUp | .brk _ | .trig | .icinva | .halt =>
      ⟨[], [], [], [], false, false⟩
  | .jal _ =>
      ⟨[], [], [1], [], false, false⟩
  | .jr b _ | .vbcastX _ b _ | .vld _ b _ _ | .vst _ b _ _ | .vldb _ b _ _ | .vldx _ b _ _ _ | .vstx _ b _ _ _ | .epset _ b
  | .epmod _ b | .sbinda _ b | .dlyw _ b | .bell b | .tracem b | .icinv b =>
      ⟨[b], [], [], [], false, false⟩
  | .loop a _ | .swr a _ | .mlatb a | .mzero a | .emit a _ =>
      ⟨[a], [], [], [], false, false⟩
  | .vredaddF a _ _ | .vredmaxF a _ _ | .vredminF a _ _ =>
      ⟨[], [], [], [a], false, false⟩
  | .swrf a _ =>
      ⟨[], [a], [], [], false, false⟩
  | .spawn a _ =>
      ⟨allX, [], [a], [], false, true⟩
  | .srr a reg =>
      ⟨[], [], [a], [], (reg == 0), false⟩
  | .srw a reg =>
      ⟨[a], [], [], [], false, (reg == 0)⟩
  | .fadd a b c | .fsub a b c | .fmul a b c | .fdiv a b c | .fmin a b c | .fmax a b c | .smed a b c =>
      ⟨[], (optRegs a b c), [], [a], false, false⟩
  | .fma a b c | .fms a b c | .fnma a b c | .fnms a b c =>
      ⟨[], [a, b, c], [], [a], false, false⟩
  | .fsqrt a b | .fneg a b | .fabs a b | .fmov a b | .srec a b =>
      ⟨[], [b], [], [a], false, false⟩
  | .feq a b | .flt a b | .fle a b | .funord a b =>
      ⟨[], [a, b], [], [], false, true⟩
  | .fclass a b | .fcvtI32 a b | .fcvtN32 a b | .fmvX a b | .fcvtBf16 a b | .fcvtE4m3 a b | .fcvtE5m2 a b
  | .fcvtBf16Sat a b | .fcvtE4m3Sat a b | .fcvtE5m2Sat a b | .snum a b | .sden a b | .sbnd a b | .fcvts a b =>
      ⟨[], [b], [a], [], false, false⟩
  | .smk a b c =>
      ⟨[b, c], [], [], [a], false, false⟩
  | .vaddFs _ _ c _ | .vmulFs _ _ c _ | .vfmaFs _ _ c _ =>
      ⟨[], [c], [], [], false, false⟩
  | .vbcastF _ b _ =>
      ⟨[], [b], [], [], false, false⟩
  | .vextX a _ c =>
      ⟨[c], [], [a], [], false, false⟩
  | .vinsX _ b c | .vlds _ b c _ _ | .vsts _ b c _ _ | .waiteq b c | .waitne b c =>
      ⟨[b, c], [], [], [], false, false⟩
  | .vslideup _ _ c _ | .vslidedn _ _ c _ | .vtopk _ _ c _ | .vtnorm _ _ c | .vquant _ _ c | .vdequant _ _ c =>
      ⟨[c], [], [], [], false, false⟩
  | .vfirst a _ _ | .offer a _ | .sval a _ =>
      ⟨[], [], [a], [], false, true⟩
  | .vsetvl a b | .job a b | .aload a b | .alahead a b | .domnew a b =>
      ⟨[b], [], [a], [], false, true⟩
  | .aadd a b c | .aswap a b c | .aand a b c | .aor a b c | .amax a b c =>
      ⟨[b, c], [], [a], [], false, false⟩
  | .faddb a b c | .acas a b c =>
      ⟨[b, c, c + 1], [], [a], [], false, true⟩
  | .incw a b c =>
      ⟨[b, c], [], [a], [], false, true⟩
  | .pollj b | .waitj b | .afree b | .send _ b _ | .recv _ b _ | .sendx _ b | .domfree b | .scrub b =>
      ⟨[b], [], [], [], false, true⟩
  | .connect _ b c | .accept _ b c =>
      ⟨[b, c], [], [], [], false, true⟩
  | .sbind _ _ | .sendv _ _ | .recvv _ _ | .select _ _ | .dsend _ _ | .drecv _ _ | .vksend _ _ _ =>
      ⟨[], [], [], [], false, true⟩
  | .recvx _ b =>
      ⟨[], [], [b], [], false, true⟩
  | _ => ⟨[], [], [], [], false, false⟩

end Sys2Proof.Machine
end

