-- ==== Sys2Proof/Machine/Flags.lean ====
section
/-!
DEFINITION. Machine/Flags.lean: the flag registers and what an instruction does with the flags it raises (07 R200-R202, 08 R222-R224,
07 R204).
-/
namespace Sys2Proof.Machine

/-- FPCSR as read (07 R200). -/
def Fpcsr.toWord (f : Fpcsr) : Word :=
  BitVec.ofNat 32 (f.rnd.toNat * 2 ^ 16 + f.en.toNat * 2 ^ 8 + bit f.sat * 2 ^ 5 + f.flags.toNat)

/-- FPCSR as written: every field is writable (07 R200). -/
def Fpcsr.ofWord (w : Word) : Fpcsr :=
  ⟨w.extractLsb' 16 2, w.extractLsb' 8 5, w.getLsbD 5, w.extractLsb' 0 5⟩

/-- RCSR as read (08 R222). -/
def Rcsr.toWord (r : Rcsr) : Word :=
  BitVec.ofNat 32 (r.runs.toNat * 2 ^ 24 + r.rmode.toNat * 2 ^ 16 + r.en.toNat * 2 ^ 8 + r.flags.toNat)

/-- RCSR as written: RUNS is read-only, and a reserved RMODE keeps the field (08 R222, 00 R6). -/
def Rcsr.write (r : Rcsr) (w : Word) : Rcsr :=
  { r with
    rmode := if (w.extractLsb' 16 3).toNat ≤ 4 then w.extractLsb' 16 3 else r.rmode
    en := w.extractLsb' 8 5
    flags := w.extractLsb' 0 5 }

/-- Flags and SAT enter the sticky set (07 R201). -/
def Ctx.orFp (c : Ctx) (flags : BitVec 5) (sat : Bool) : Ctx :=
  { c with fpcsr := { c.fpcsr with flags := c.fpcsr.flags ||| flags, sat := c.fpcsr.sat || sat } }

/-- Flags and RUNS of a rational group (08 R224). -/
def Ctx.orRat (c : Ctx) (flags : BitVec 5) (runs : Nat) : Ctx :=
  { c with rcsr := { c.rcsr with flags := c.rcsr.flags ||| flags, runs := BitVec.ofNat 6 runs } }

/-! ### Groups in flight (06 R142-R144; 07 R203, R208; 08 R224, R229) -/

/-- The flags NV, DZ, OF, UF and NX that a page 1 group can raise in its register, in either mode (07 R196-R198, R209-R216; 08 R232-R243). -/
def mayRaise (rm : Bool) : Instr → BitVec 5
  | .fadd _ _ _ | .fsub _ _ _ => if rm then 0b10111 else 0b10101
  | .fmul _ _ _ | .fma _ _ _ | .fms _ _ _ | .fnma _ _ _ | .fnms _ _ _ | .smed _ _ _ | .scvtf _ _ => 0b10111
  | .fdiv _ _ _ | .smk _ _ _ => 0b11111
  | .fsqrt _ _ | .fcvtI32 _ _ | .fcvtN32 _ _ | .fcvts _ _ => 0b10001
  | .fmin _ _ _ | .fmax _ _ _ | .feq _ _ | .flt _ _ | .fle _ _ | .funord _ _ | .fcvtfE5m2 _ _ => 0b10000
  | .fcvtBf16 _ _ | .fcvtBf16Sat _ _ => if rm then 0b10001 else 0b10111
  | .fcvtE4m3 _ _ | .fcvtE5m2 _ _ | .fcvtE4m3Sat _ _ | .fcvtE5m2Sat _ _ => 0b10111
  | .fcvtfI32 _ _ | .fcvtfN32 _ _ => if rm then 0b00101 else 0b00001
  | .fcvtfBf16 _ _ => if rm then 0b10111 else 0b10000
  | .srec _ _ => 0b11000
  | _ => 0

/-- A group for which the divide unit is busy as long as its latency (06 R144, 07 R208, 08 R229). -/
def hasDivider (rm : Bool) : Instr → Bool
  | .div _ _ _ | .divn _ _ _ | .rem _ _ _ | .remn _ _ _ | .gcd _ _ _ | .fdiv _ _ _ | .fsqrt _ _ | .smk _ _ _ | .smed _ _ _ | .scvtf _ _
  | .fcvts _ _ => true
  | .fadd _ _ _ | .fsub _ _ _ | .fmul _ _ _ | .fma _ _ _ | .fms _ _ _ | .fnma _ _ _ | .fnms _ _ _ | .fcvtfI32 _ _ | .fcvtfN32 _ _
  | .fcvtfBf16 _ _ | .fcvtfE4m3 _ _ | .fcvtfE5m2 _ _ | .fcvtI32 _ _ | .fcvtN32 _ _ | .fcvtBf16 _ _ | .fcvtE4m3 _ _ | .fcvtE5m2 _ _
  | .fcvtBf16Sat _ _ | .fcvtE4m3Sat _ _ | .fcvtE5m2Sat _ _ => rm
  | _ => false

/-- The result latency of a page 1 group whose descent took `runs` runs (07 R208, 08 R229). -/
def fpLatency (rm : Bool) (runs : Nat) : Instr → Nat
  | .smk _ _ _ | .smed _ _ _ | .scvtf _ _ => 4 + 2 * runs
  | .fcvts _ _ => 14
  | .srec _ _ => 2
  | .fadd _ _ _ | .fsub _ _ _ | .fmul _ _ _ | .fma _ _ _ | .fms _ _ _ | .fnma _ _ _ | .fnms _ _ _ => 4 + 2 * runs
  | .fdiv _ _ _ => if rm then 4 + 2 * runs else 14
  | .fsqrt _ _ => if rm then 4 + 2 * runs else 16
  | .fcvtfI32 _ _ | .fcvtfN32 _ _ | .fcvtfBf16 _ _ | .fcvtfE4m3 _ _ | .fcvtfE5m2 _ _ => if rm then 4 + 2 * runs else 2
  | .fcvtI32 _ _ | .fcvtN32 _ _ | .fcvtBf16 _ _ | .fcvtE4m3 _ _ | .fcvtE5m2 _ _ | .fcvtBf16Sat _ _ | .fcvtE4m3Sat _ _
  | .fcvtE5m2Sat _ _ => if rm then 14 else 2
  | .fmin _ _ _ | .fmax _ _ _ => if rm then 2 else 1
  | _ => 1

/-- The groups still in flight after `n` cycles. -/
def afterCycles (n : Nat) (l : List Flying) : List Flying :=
  (l.filter (fun e => n < e.left)).map (fun e => { e with left := e.left - n })

/-- A group issues that reads the result of a group in flight, or needs the divide unit that one has: the latency of that one has run out
(06 R143, R144). -/
def Flying.awaited (e : Flying) (u : Uses) (divider : Bool) : Bool :=
  e.wx.any (fun r => r ≠ 0 && u.rx.contains r) || e.wf.any u.rf.contains || (e.wt && u.rt) || (divider && e.divider)

/-- What is still in flight when a further group issues: `n` cycles have passed since the last, and for those older than a group that it waited
for as many as that had left. -/
def stillFlying (u : Uses) (divider : Bool) : Nat → List Flying → List Flying
  | _, [] => []
  | n, e :: rest =>
    if e.awaited u divider then stillFlying u divider (max n e.left) rest
    else afterCycles n [{ e with
        wx := e.wx.filter (fun r => !u.wx.contains r), wf := e.wf.filter (fun r => !u.wf.contains r), wt := e.wt && !u.wt }] ++
      stillFlying u divider n rest

/-- A group issues, `n` cycles after the last. -/
def Ctx.passes (c : Ctx) (i : Instr) (n : Nat) : Ctx := { c with flight := stillFlying (usesOf i) (hasDivider c.rm i) n c.flight }

/-- A page 1 group that raised flags may be in flight from now on. One that can raise an enabled flag holds the next group until its latency
has run out (07 R203, 08 R224). -/
def Ctx.fly (c : Ctx) (i : Instr) (runs : Nat) (en fp : BitVec 5) (sat : Bool) (rat : BitVec 5) : Ctx :=
  let n := fpLatency c.rm runs i
  let u := usesOf i
  if en &&& mayRaise c.rm i ≠ 0 then { c with flight := afterCycles (n - 1) c.flight }
  else if n ≤ 1 ∨ (fp = 0 ∧ !sat ∧ rat = 0) then c
  else { c with flight := ⟨fp, sat, rat, n, u.wx, u.wf, u.wt, hasDivider c.rm i⟩ :: c.flight }

/-- The groups that a write of FPCSR or RCSR finds still in flight, so many cycles later as the draw says (log 49). -/
def State.inFlight (s : State) (a : AgentId) : List Flying := afterCycles (Config.choice s.draws) (s.ctxOf a).flight

/-- FPCSR as written, with what groups in flight OR into it (07 R203). -/
def Ctx.writeFp (c : Ctx) (late : List Flying) (w : Word) : Ctx :=
  { late.foldl (fun c x => c.orFp x.fp x.sat) { c with fpcsr := .ofWord w } with flight := late }

/-- RCSR as written, with what groups in flight OR into it (08 R224). -/
def Ctx.writeRat (c : Ctx) (late : List Flying) (w : Word) : Ctx :=
  let r := c.rcsr.write w
  { c with rcsr := { r with flags := late.foldl (fun f x => f ||| x.rat) r.flags }, flight := late }

/-- Flags that come back while the member is paused count as those it paused with (16 R442). -/
def Ctx.orLate (c : Ctx) (flags : BitVec 5) : Ctx :=
  { c.orFp flags false with pauseFlags := if c.pause = .no then c.pauseFlags else c.pauseFlags ||| flags.setWidth 13 }

/-- The flags of a context as DFLAGS merges them: RFLAGS, SAT and FLAGS in their places (07 R204, R205). -/
def Ctx.mergeFlags (c : Ctx) : BitVec 13 :=
  BitVec.ofNat 13 (c.rcsr.flags.toNat * 2 ^ 8 + bit c.fpcsr.sat * 2 ^ 5 + c.fpcsr.flags.toNat)

/-- A page 1 group that raises floating flags: FP_TRAP when one is enabled, and nothing of the group takes effect; otherwise the
flags are recorded (07 R202). -/
def State.fpDone (s : State) (i : Instr) (flags : BitVec 5) (sat : Bool) (f : Ctx → Ctx) : Res :=
  let hit := flags &&& s.ctx.fpcsr.en
  if hit ≠ 0 then s.trap Cause.fpTrap (hit.setWidth 32)
  else s.done (fun k => ((f k).orFp flags sat).fly i 0 k.fpcsr.en flags sat 0)

/-- A rational group: RATIONAL_TRAP when an enabled flag is raised; otherwise flags and RUNS are recorded (08 R224). -/
def State.ratDone (s : State) (i : Instr) (flags : BitVec 5) (runs : Nat) (f : Ctx → Ctx) : Res :=
  let hit := flags &&& s.ctx.rcsr.en
  if hit ≠ 0 then s.trap Cause.rationalTrap (hit.setWidth 32)
  else s.done (fun k => ((f k).orRat flags runs).fly i runs k.rcsr.en 0 false flags)

end Sys2Proof.Machine
end

