-- ==== Sys2Proof/Machine/EventUnit.lean ====
section
/-!
DEFINITION. Machine/EventUnit.lean: bells, barriers and mutexes at the event-unit addresses (15 R434-R437), and the waits that a
release or an arrival makes (12 R353, R369).
-/
namespace Sys2Proof.Machine

/-- What a load does: it has data; or it waits; or it faults with a cause and TVAL. -/
inductive Loaded where
  | got (s : State) (bytes : List Byte)
  | wait (s : State)
  | bad (code : BitVec 8) (tval : Word)

/-- What a store does. -/
inductive Stored where
  | done (s : State)
  | wait (s : State)
  | bad (code : BitVec 8) (tval : Word)

def State.marks (s : State) (a : AgentId) (w : Wait) : State := s.updOf a (fun c => { c with wait := w })

/-- A store of the context that its home slice has neither performed and acknowledged nor refused on record (12 R350, R353). -/
def JEntry.unacked (e : JEntry) : Bool :=
  match e.verdict with
  | .posted => true
  | .performed => true
  | .rejected _ => true
  | .record _ => false

def State.unacked (s : State) (a : AgentId) : Bool := (s.coreOf a).journal.any (fun p => p.2.ctx = a && p.2.unacked)

/-- An entry of the context stands in the vector sequencer of its core (10 R256). -/
def SeqItem.ctx : SeqItem → AgentId
  | .one e => e.ctx
  | .loop a _ _ _ _ => a

def State.seqBusy (s : State) (a : AgentId) : Bool := (s.coreOf a).seq.any (fun e => e.ctx = a)

/-- A copy job of the context has not written its mailbox (12 R362). -/
def State.jobBusy (s : State) (a : AgentId) : Bool :=
  match clusterOf a with
  | some (st, c) => (s.unitOf (.core st c 0 0)).jobs.any (fun j => j.ctx = a)
  | none => false

/-- What STL waits for: every earlier load and store has performed and the journal holds no unacknowledged entry of the
context (12 R369); vector loads and stores perform from the sequencer (10 R260). -/
def State.released (s : State) (a : AgentId) : Bool := !s.unacked a && !s.seqBusy a

/-- The scope of two agents of the module (17 R467). -/
def scopeOf (a b : AgentId) : Nat :=
  if a = b then 0
  else if coreKey a = coreKey b then 1
  else if (clusterOf a).isSome ∧ clusterOf a = clusterOf b then 2
  else if stackOf a = stackOf b ∧ a ≠ .secureCore ∧ b ≠ .secureCore then 3
  else 4

def bellOf (u : Cluster) (n : Nat) : Bell := lookupD ⟨0, []⟩ u.bells n
def barOf (u : Cluster) (k : Nat) : BarCfg := lookupD ⟨0, 0⟩ u.barriers k
def mutexOf (u : Cluster) (m : Nat) : Mutex := lookupD ⟨none, [], false⟩ u.mutexes m

/-- BARCFG as read (15 R436). -/
def BarCfg.toWord (b : BarCfg) : Word := BitVec.ofNat 32 (b.word.toNat * 65536 + b.count)

/-- A write of BARCFG: COUNT values 33 to 63 are reserved and keep the previous COUNT (15 R436, 00 R6). -/
def BarCfg.write (b : BarCfg) (v : Word) : BarCfg :=
  ⟨v.extractLsb' 16 16, if v.toNat % 64 ≤ 32 then v.toNat % 64 else b.count⟩

/-- Store BARCFG k. -/
def State.barcfgStore (s : State) (a : AgentId) (k : Nat) (v : Word) : State :=
  s.updUnit a (fun u => { u with barriers := assign u.barriers k ((barOf u k).write v) })

/-- Load BELLWAIT n (15 R435): take one ring, in the order of waiting; otherwise wait at the tail. -/
def State.bellwait (s : State) (a : AgentId) (n : Nat) : Loaded :=
  let u := s.unitOf a
  let b := bellOf u n
  let others := b.waiters.filter (· ≠ a)
  let first : Bool := match b.waiters with
    | [] => true
    | w :: _ => w = a
  if b.count ≠ 0 && first then
    .got (s.setUnitOf a { u with bells := assign u.bells n ⟨b.count - 1, others⟩ }) (bytesOf b.count 4)
  else
    let ws := if b.waiters.contains a then b.waiters else b.waiters ++ [a]
    .wait ((s.setUnitOf a { u with bells := assign u.bells n ⟨b.count, ws⟩ }).marks a .event)

/-- A ring reaches its bell (15 R435). -/
def Bell.ring (b : Bell) : Bell := { b with count := min (b.count + 1) 0xFFFF }

/-- Load BARARR k (15 R436). COUNT is looked at when the load is issued, and no more while it is clock-gated or once it is released. A
barrier word with an uncorrectable error is a scalar load's fault (12 R372; log 29). -/
def State.bararr (s : State) (a : AgentId) (st c : Nat) (k : Nat) (ea : Word) : Loaded :=
  let cfg := barOf (s.unitOf a) k
  let wordAt := scratchAt st c (4 * cfg.word.toNat)
  let word := s.wordAt wordAt
  let gen := word.toNat / 65536
  let reply (s : State) (g i : Nat) : Loaded :=
    .got (s.updOf a (fun x => { x with arrival := none, barrierFree := false })) (wordBytes4 (BitVec.ofNat 32 (g * 65536 + i)))
  let c := s.ctxOf a
  -- the wait on a record: what a load that is clock-gated, or has been issued again, does
  let again (g i : Nat) : Loaded :=
    if s.hasBad wordAt 4 then .bad Cause.ecc ea
    else if gen = g then .wait ((s.correct wordAt 4).marks a .event)
    else reply (s.correct wordAt 4) g i
  let arrive : Loaded :=
    if s.hasBad wordAt 4 then .bad Cause.ecc ea
    else if !s.released a then .wait (s.marks a .interlock)
    else
      let i := word.toNat % 65536
      let s := s.correct wordAt 4
      if i + 1 ≥ cfg.count then
        reply (s.storeWord wordAt (BitVec.ofNat 32 ((gen + 1) % 65536 * 65536))) gen i
      else
        let s := s.storeWord wordAt (BitVec.ofNat 32 (gen * 65536 + i + 1))
        .wait (s.updOf a (fun x => { x with arrival := some (k, gen, i), barrierFree := false, wait := .event }))
  match c.arrival with
  | some (k', g, i) =>
    if k' = k ∧ c.barrierFree then reply s g i
    else if k' = k ∧ (c.inIssue ≠ [] ∨ c.wait = .event) then again g i
    else if cfg.count = 0 then .bad Cause.loadWindow ea
    else if k' = k then again g i
    else arrive
  | none => if cfg.count = 0 then .bad Cause.loadWindow ea else arrive

/-- Load MUTEX m (15 R437): 1 on acquiring, 2 when already owned, otherwise wait in the queue. -/
def State.mutexLoad (s : State) (a : AgentId) (m : Nat) : Loaded :=
  let u := s.unitOf a
  let x := mutexOf u m
  if x.owner = none then .got (s.setUnitOf a { u with mutexes := assign u.mutexes m ⟨some a, x.queue, false⟩ }) (bytesOf 1 4)
  else if x.owner = some a then
    -- the wait ended with the hand-over, or the context already owned the mutex
    .got (s.setUnitOf a { u with mutexes := assign u.mutexes m { x with handed := false } }) (bytesOf (if x.handed then 1 else 2) 4)
  else
    let q := if x.queue.contains a then x.queue else x.queue ++ [a]
    .wait ((s.setUnitOf a { u with mutexes := assign u.mutexes m ⟨x.owner, q, x.handed⟩ }).marks a .event)

/-- A mutex goes to the head of its queue, or to no one (15 R437). -/
def Mutex.handOver (x : Mutex) : Mutex :=
  match x.queue with
  | [] => ⟨none, [], false⟩
  | h :: rest => ⟨some h, rest, true⟩

/-- Store MUTEX m (15 R437). -/
def State.mutexStore (s : State) (a : AgentId) (m : Nat) (ea : Word) : Stored :=
  let u := s.unitOf a
  let x := mutexOf u m
  if x.owner ≠ some a then .bad Cause.storeWindow ea
  else if !s.released a then .wait (s.marks a .interlock)
  else .done (s.setUnitOf a { u with mutexes := assign u.mutexes m x.handOver })

/-- The context has been handed a mutex that it waits for; its load is about to return. -/
def State.handedMutex (s : State) (a : AgentId) : Bool :=
  (s.ctxOf a).wait = .event && (s.unitOf a).mutexes.any (fun m => m.2.owner = some a && m.2.handed)

/-- A write that changes GEN frees the contexts that wait in the barrier's clock-gated loads, whatever is written later (15 R436). Where
BARCFG names another word meanwhile they watch that one (DESIGN CHOICE: R436 speaks of COUNT alone; log 46). -/
def State.noteBarriers (s : State) : State :=
  let gen (a : AgentId) (k : Nat) : Nat :=
    match a with
    | .core st c _ _ => (s.wordAt (scratchAt st c (4 * (barOf (s.unitOf a) k).word.toNat))).toNat / 65536
    | _ => 0
  let freed (p : AgentId × Ctx) : Bool :=
    match p.2.arrival with
    | some (k, g, _) => p.2.wait = .event && gen p.1 k ≠ g
    | none => false
  if s.ctxs.any freed then { s with ctxs := s.ctxs.map (fun p => if freed p then (p.1, { p.2 with barrierFree := true }) else p) } else s

/-- MUTSTAT m (15 R437). -/
def Mutex.stat (x : Mutex) : Word :=
  let owner := match x.owner with
    -- a swapped-out owner goes by a context number from 4 on (Machine/Switch.lean)
    | some (.core _ _ k c) => k * 4 + c % 4
    | _ => 0
  BitVec.ofNat 32 (bit x.owner.isSome * 2 ^ 31 + min x.queue.length 255 * 65536 + owner)

/-- Harts named in 01 R15 have bells; the copy units, save engines and the secure control core have none (15 R434). -/
def hasBells (a : AgentId) : Bool := (clusterField a).isSome

/-- A 4-byte load at an event-unit offset (15 R434). -/
def State.eventLoad (s : State) (a : AgentId) (off : Nat) (ea : Word) : Loaded :=
  if off < 0x80 then
    if hasBells a then s.bellwait a (off / 4) else .bad Cause.loadWindow ea
  else if off < 0x100 then
    if hasBells a then .got s (bytesOf (bellOf (s.unitOf a) (off / 4 - 0x20)).count 4) else .bad Cause.loadWindow ea
  else
    match a with
    | .core st c _ _ =>
      if off < 0x140 then .got s (wordBytes4 (barOf (s.unitOf a) (off / 4 - 0x40)).toWord)
      else if off < 0x180 then s.bararr a st c (off / 4 - 0x50) ea
      else if off < 0x1C0 then s.mutexLoad a (off / 4 - 0x60)
      else if off < 0x200 then .got s (wordBytes4 (mutexOf (s.unitOf a) (off / 4 - 0x70)).stat)
      else .bad Cause.loadWindow ea
    | _ => .bad Cause.loadWindow ea

/-- A 4-byte store at an event-unit offset (15 R434). -/
def State.eventStore (s : State) (a : AgentId) (off : Nat) (ea : Word) (v : Word) : Stored :=
  if 0x80 ≤ off ∧ off < 0x100 then
    if hasBells a then
      .done (s.updUnit a (fun u => { u with
        bells := assign u.bells (off / 4 - 0x20) { bellOf u (off / 4 - 0x20) with count := v.toNat % 65536 } }))
    else .bad Cause.storeWindow ea
  else
    match a with
    | .core _ _ _ _ =>
      if 0x100 ≤ off ∧ off < 0x140 then .done (s.barcfgStore a (off / 4 - 0x40) v)
      else if 0x180 ≤ off ∧ off < 0x1C0 then s.mutexStore a (off / 4 - 0x60) ea
      else .bad Cause.storeWindow ea
    | _ => .bad Cause.storeWindow ea

end Sys2Proof.Machine
end

