-- ==== Sys2Proof/Machine/Access.lean ====
section
/-!
DEFINITION. Machine/Access.lean: the local address map, windows, loads and stores (06 R162-R165; 12 R338-R353, R357, R358).
-/
namespace Sys2Proof.Machine

/-- Contexts of one team, or started by active messages of one queue in one cluster, count as one team (12 R342). -/
def Origin.sameTeam : Origin → Origin → Bool
  | .member q l t _, .member q' l' t' _ => q = q' && l = l' && t = t'
  | .message q, .message q' => q = q'
  | .firmware, .firmware => true
  | .none, .none => true
  | .loader q, .loader q' => q = q'
  | _, _ => false

/-- A core is present to a context when it holds a live context of the same team (12 R342). A copy unit runs for service
firmware, to which any live core of its cluster is present. -/
def State.present (s : State) (a : AgentId) (st c k : Nat) : Bool :=
  s.ctxs.any (fun p =>
    match p.1 with
    | .core st' c' k' _ =>
      st' = st && c' = c && k' = k && p.2.phase = .live && (isHart a || p.2.origin.sameTeam (s.ctxOf a).origin)
    | _ => false)

/-- The registers with which a switched-out context was saved. -/
def State.savedCtx? (s : State) (a : AgentId) : Option Ctx :=
  s.switches.findSome? (fun w => if w.2.phase = .saved then (w.2.ctxs.find? (fun x => x.ag = a)).map (·.ctx) else none)

/-- Byte `o` of a core's TCM lies in the channel buffer region of a context (12 R340). -/
def Ctx.inBuffer (c : Ctx) (o : Nat) : Bool := c.basek.toNat * 1024 ≤ o && o < (c.basek.toNat + c.sizek.toNat) * 1024

/-- The channel buffer region of a context is hardware-managed at byte `o` (12 R339): the context is live or holds a saved team. A seat
whose team is swapped out holds that team. -/
def State.bufferManaged (s : State) (a : AgentId) (c : Ctx) (o : Nat) : Bool :=
  match c.phase with
  | .live | .saved => c.inBuffer o
  | .reserved =>
    match s.savedCtx? a with
    | some k => k.inBuffer o
    | none => false
  | .idle => false

/-- Byte `o` of the agent's TCM lies in a hardware-managed range (12 R339): a residual tile, or the channel buffer region of a
context that is live or holds a saved team. -/
def State.hwManaged (s : State) (a : AgentId) (o : Nat) : Bool :=
  (match a with
    | .core _ _ _ _ => 0x1F000 ≤ o
    | h => tcmSize h - 0x400 ≤ o) ||
  s.ctxs.any (fun p =>
    coreKey p.1 = coreKey a && s.bufferManaged p.1 p.2 o)

/-- The tenant under which an agent's accesses are checked: a context's tenant, or TENANT of a hart (22 R540). -/
def State.tenantOf (s : State) (a : AgentId) : Nat :=
  if isHart a then (s.hartOf a).tenant.toNat else (s.ctxOf a).tenant

/-! ### Windows (12 R346, R347) -/

def Window.base (w : Window) : Nat := w.w0.toNat / 4096
def Window.limit (w : Window) : Nat := w.w1.toNat / 4096
def Window.valid (w : Window) : Bool := w.w3.getLsbD 3
def Window.r (w : Window) : Bool := w.w3.getLsbD 2
def Window.w (w : Window) : Bool := w.w3.getLsbD 1
def Window.a (w : Window) : Bool := w.w3.getLsbD 0

/-- The lowest-numbered valid window that serves an address. -/
def windowFor (ws : Vector Window 8) (ea : Nat) : Option Window :=
  ws.toList.find? (fun w => w.valid && w.base * 4096 ≤ ea && ea ≤ w.limit * 4096 + 0xFFF)

/-- Stack, slice and offset a window gives an address; none where o or s reaches its limit. -/
def Window.home (w : Window) (ea : Nat) : Option (Nat × Nat × Nat) :=
  let d := ea - w.base * 4096
  let off := bitsOf w.w2.toNat 26 12
  let stack := bitsOf w.w2.toNat 31 28
  if w.w2.getLsbD 27 then
    let p := off * 4096 + d
    if p < 100663296 then some (stack, p / 256 % 64, p / 16384 * 256 + p % 256) else none
  else
    let o := off % 512 * 4096 + d
    if o < 1572864 then some (stack, off / 512, o) else none

/-- The permission a kind of access needs of its window. -/
inductive Perm where
  | load | store | atomic
  deriving DecidableEq, Repr

def Window.permits (w : Window) : Perm → Bool
  | .load => w.r
  | .store => w.w
  | .atomic => w.a

/-- The home word of a shared SRAM address under given windows; none where the access faults (12 R347). -/
def homeOf (ws : Vector Window 8) (ea : Nat) (p : Perm) : Option (Nat × Nat × Nat) :=
  match windowFor ws ea with
  | none => none
  | some w => if w.permits p then w.home ea else none

/-! ### The local address map (12 R338) -/

/-- What a local address names. -/
inductive Place where
  | ownTcm (o : Nat)
  | scratch (flat : Nat)
  | peer (st c k o : Nat)
  | matrix (flat : Nat)
  | shared
  | event (off : Nat)
  | aperture (o : Nat)
  | port (write : Bool)
  | unmapped
  deriving DecidableEq, Repr

/-- The range of the local map that an address lies in. -/
def place (a : AgentId) (ea : Nat) : Place :=
  if ea < tcmSize a then .ownTcm ea
  else if 0x40000000 ≤ ea ∧ ea < 0x80000000 then .shared
  else if 0x80000000 ≤ ea ∧ ea < 0x80010000 then .event (ea - 0x80000000)
  else
    match clusterOf a with
    | some (st, c) =>
      if 0x00100000 ≤ ea ∧ ea < 0x00140000 then .scratch (scratchAt st c (ea - 0x00100000))
      else if 0x01000000 ≤ ea ∧ ea < 0x01100000 then
        .peer st c ((ea - 0x01000000) / 0x20000) ((ea - 0x01000000) % 0x20000)
      else if 0x03000000 ≤ ea ∧ ea < 0x03020000 then .matrix (matrixAt st c (ea - 0x03000000))
      else .unmapped
    | none =>
      match a with
      | .memoryCore _ _ =>
        if 0xC0000000 ≤ ea then .aperture (ea - 0xC0000000)
        else if ea = 0xA0000000 then .port false
        else if ea = 0xA0000008 then .port true
        else .unmapped
      | _ => .unmapped

/-- The number of a byte of cluster memory that needs no further check: own TCM, scratchpad, matrix-side memory, peer TCM. -/
def Place.local? (a : AgentId) : Place → Option Nat
  | .ownTcm o => some (ownTcmAt a o)
  | .scratch f => some f
  | .peer st c k o => some (tcmAt st c k o)
  | .matrix f => some f
  | .shared => none
  | .event _ => none
  | .aperture _ => none
  | .port _ => none
  | .unmapped => none

/-- The channel of a memory core, by module channel number (12 R354). -/
def channelOf : AgentId → Nat
  | .memoryCore st c => st * 64 + c
  | _ => 0

/-- The row of an aperture offset belongs to the tenant held in TENANT (12 R357). -/
def State.rowOwned (s : State) (a : AgentId) (o : Nat) : Bool :=
  lookup? (s.hartOf a).owners (o / 2 ^ 21) = some (s.hartOf a).tenant.toNat

/-! ### Loads -/

/-- The bytes of memory, with the context's own unacknowledged stores over them, latest last (06 R165, 12 R350). -/
def State.forwarded (s : State) (a : AgentId) (flat n : Nat) : List Byte :=
  let own := (s.coreOf a).journal.filter (fun p => p.2.ctx = a && p.2.unacked)
  (List.range n).map (fun i =>
    let b := flat + i
    (own.foldl (fun (best : Nat × Byte) p =>
      let e := p.2
      if e.home ≤ b && b < e.home + 4 && e.be.getLsbD (b - e.home) && best.1 ≤ e.seqNo then
        (e.seqNo, e.data.extractLsb' (8 * (b - e.home)) 8)
      else best) (0, s.byteAt b)).2)

/-- What the home of a word answers to a load (12 R348, R372): the tag and ECC checks, then the bytes, with which `put` goes on. -/
def State.homeRead (s : State) (a : AgentId) (home size : Nat) (ea : Word) (put : List Byte → Pend) : State :=
  let set (s : State) (p : Pend) : State := s.updOf a (fun c => { c with pend := p })
  let slice := home / 2 ^ 44 = 3
  let st := (home - space 3) / 0x180000 / 64
  let sl := (home - space 3) / 0x180000 % 64
  let o := (home - space 3) % 0x180000
  if slice && s.sliceTenant st sl o ≠ some (s.tenantOf a) then set s (.bad Cause.loadWindow ea)
  else if s.hasBad home size then set s (.bad Cause.ecc ea)
  else set (s.correct home size) (put (s.forwarded a home size))

/-- A load of a waiting context returns (12 R348). -/
def State.loadReturn (s : State) (a : AgentId) : State :=
  match (s.ctxOf a).pend with
  | .asked home size ea => s.homeRead a home size ea .got
  | .half home ea true bs => s.homeRead a home 4 ea (fun lo => .got (lo ++ bs))
  | .half home ea false bs => s.homeRead a (home + 4) 4 ea (fun hi => .got (bs ++ hi))
  | .none => s
  | .rmw _ _ _ _ _ => s
  | .port => s
  | .got _ => s
  | .bad _ _ => s
  | .payload _ _ _ _ => s

/-- One word of a load of 8 bytes is read before the other (17 R464). -/
def State.loadHalf (s : State) (a : AgentId) (high : Bool) : State :=
  match (s.ctxOf a).pend with
  | .asked home size ea =>
    if size = 8 then s.homeRead a (if high then home + 4 else home) 4 ea (.half home ea high) else s
  | .none => s
  | .half _ _ _ _ => s
  | .rmw _ _ _ _ _ => s
  | .port => s
  | .got _ => s
  | .bad _ _ => s
  | .payload _ _ _ _ => s

/-- A load from shared SRAM or the aperture: asked for, then waited for (06 R138). -/
def State.farLoad (s : State) (a : AgentId) (home size : Nat) (ea : Word) : Loaded :=
  match (s.ctxOf a).pend with
  | .none => .wait (s.updOf a (fun c => { c with pend := .asked home size ea, wait := .load }))
  | .asked _ _ _ => .wait s
  | .half _ _ _ _ => .wait s
  | .rmw _ _ _ _ _ => .wait s
  | .port => .wait s
  | .payload _ _ _ _ => .wait s
  | .got bs => .got s bs
  | .bad code tval => .bad code tval

/-- Loads at a local address (06 R162, R163). `size` is 1, 2, 4 or 8. -/
def State.load (s : State) (a : AgentId) (ea : Word) (size : Nat) : Loaded :=
  let n := ea.toNat
  let trace (s : State) : State := s.traceIf a 2 2 0 (s.ctxOf a).pcLow ea
  if n % size ≠ 0 then .bad Cause.align ea
  else
    let near (flat : Nat) (own : Bool) : Loaded :=
      if s.hasBad flat size then .bad Cause.ecc ea
      else
        let s := s.correct flat size
        .got (if own then s else trace s) (s.bytesAt flat size)
    match place a n with
    | .ownTcm o => near (ownTcmAt a o) true
    | .scratch f => near f false
    | .matrix f => near f false
    | .peer st c k o => if s.present a st c k then near (tcmAt st c k o) false else .bad Cause.peerAbsent ea
    | .shared =>
      match homeOf (s.ctxOf a).windows n .load with
      | none => .bad Cause.loadWindow ea
      | some (st, sl, o) =>
        match s.farLoad a (sliceAt st sl o) size ea with
        | .got s bs => .got (trace s) bs
        | .wait s => .wait s
        | .bad c t => .bad c t
    | .event off =>
      if size ≠ 4 then .bad Cause.loadWindow ea
      else
        match s.eventLoad a off ea with
        | .got s bs => .got (trace s) bs
        | .wait s => .wait s
        | .bad c t => .bad c t
    | .aperture o =>
      if s.rowOwned a o then
        match s.farLoad a (dramAt (channelOf a) o) size ea with
        | .got s bs => .got (trace s) bs
        | .wait s => .wait s
        | .bad c t => .bad c t
      else .bad Cause.loadWindow ea
    | .port w =>
      if size ≠ 4 then .bad Cause.loadWindow ea
      else if (s.ctxOf a).port.any (fun p => p.1 = w) then .wait (s.updOf a (fun c => { c with pend := .port, wait := .load }))
      else .got (trace s) (wordBytes4 ((s.ctxOf a).portResult[bit w]!))
    | .unmapped => .bad Cause.loadWindow ea

/-! ### Stores -/

/-- The lowest free entries of a journal of 16 (12 R350). -/
def freeEntries (j : List (Nat × JEntry)) : List Nat := (List.range 16).filter (fun n => (lookup? j n).isNone)

/-- Post one word store, with its place in the order of stores: byte enables and data stand in their places of the word (12 R350). -/
def State.post (s : State) (a : AgentId) (entry seqNo : Nat) (ea : Word) (flat : Nat) (bs : List Byte) (stl : Bool) : State :=
  let lane := ea.toNat % 4
  let be := BitVec.ofNat 4 ((2 ^ bs.length - 1) * 2 ^ lane)
  let data := BitVec.ofNat 32 (natOfBytes bs * 2 ^ (8 * lane))
  s.updCore a (fun k => { k with
    journal := assign k.journal entry ⟨a, BitVec.ofNat 32 (ea.toNat / 4 * 4), flat - lane, be, data, stl, .posted, false,
      seqNo, 0⟩
    jseq := seqNo })

/-- A posted store takes one entry, or two for 8 bytes, neither of them the older; without a free entry the group waits (12 R350). -/
def State.postStore (s : State) (a : AgentId) (ea : Word) (flat : Nat) (bs : List Byte) (stl : Bool) : Stored :=
  let no := (s.coreOf a).jseq + 1
  match freeEntries (s.coreOf a).journal with
  | e1 :: rest =>
    if bs.length ≤ 4 then .done (s.post a e1 no ea flat bs stl)
    else
      match rest with
      | e2 :: _ => .done ((s.post a e1 no ea flat (bs.take 4) stl).post a e2 no (ea + 4) (flat + 4) (bs.drop 4) stl)
      | [] => .wait (s.marks a .interlock)
  | [] => .wait (s.marks a .interlock)

/-- What follows a store that has been made. -/
def Stored.andThen (r : Stored) (f : State → State) : Stored :=
  match r with
  | .done s => .done (f s)
  | .wait s => .wait s
  | .bad code tval => .bad code tval

/-- Stores at a local address (06 R162, R164), of 1, 2, 4 or 8 bytes. Each address of the translation port has its own translations and
result, which an access to the other does not touch (DESIGN CHOICE: 12 R358 speaks of one port with two addresses; log 46). -/
def State.store (s : State) (a : AgentId) (ea : Word) (bs : List Byte) (stl : Bool) : Stored :=
  let n := ea.toNat
  let size := bs.length
  let trace (s : State) : State := s.traceIf a 2 3 0 (s.ctxOf a).pcLow ea
  if n % size ≠ 0 then .bad Cause.align ea
  else
    let near (flat : Nat) (own : Bool) : Stored :=
      if size < 4 && s.hasBad flat size then .bad Cause.ecc ea
      else .done ((if own then s else trace s).storeBytes flat bs)
    let managed (b : AgentId) (o : Nat) : Bool := !(s.ctxOf a).prv && s.hwManaged b o
    match place a n with
    | .ownTcm o => if managed a o then .bad Cause.storeWindow ea else near (ownTcmAt a o) true
    | .scratch f => near f false
    | .matrix f => near f false
    | .peer st c k o =>
      if managed (.core st c k 0) o then .bad Cause.storeWindow ea
      else if s.present a st c k then near (tcmAt st c k o) false
      else .bad Cause.peerAbsent ea
    | .shared =>
      match homeOf (s.ctxOf a).windows n .store with
      | none => .bad Cause.storeWindow ea
      | some (st, sl, o) => (s.postStore a ea (sliceAt st sl o) bs stl).andThen trace
    | .event off => if size ≠ 4 then .bad Cause.storeWindow ea else (s.eventStore a off ea (wordOfBytes bs)).andThen trace
    | .aperture o =>
      if s.rowOwned a o then (s.postStore a ea (dramAt (channelOf a) o) bs stl).andThen trace else .bad Cause.storeWindow ea
    | .port w =>
      if size ≠ 8 then .bad Cause.storeWindow ea
      else
        .done (trace (s.updOf a (fun c => { c with
          port := c.port.filter (fun p => p.1 ≠ w) ++ [(w, BitVec.ofNat 48 (natOfBytes bs))] })))
    | .unmapped => .bad Cause.storeWindow ea

/-- 4-byte aligned block of `n` bytes wholly in own TCM or the scratchpad, as descriptors must lie (12 R360, R364): the number
of its first byte. -/
def tcmOrScratch (a : AgentId) (ea n : Nat) : Option Nat :=
  if ea + n ≤ tcmSize a then some (ownTcmAt a ea)
  else
    match clusterOf a with
    | some (st, c) => if 0x00100000 ≤ ea ∧ ea + n ≤ 0x00140000 then some (scratchAt st c (ea - 0x00100000)) else none
    | none => none

/-- The words of a descriptor. -/
def State.wordsAt (s : State) (flat : Nat) : Nat → List Word
  | 0 => []
  | n + 1 => s.wordAt flat :: s.wordsAt (flat + 4) n

/-! ### Performing posted stores (12 R348, R350, R351; 17 R466) -/

/-- The verdict of the home slice, or of the memory core for an aperture store, on a store that reaches it. The tenant tag of a hart's store is
its TENANT as it then stands (DESIGN CHOICE: 12 R348 does not say when an access takes its tag; log 46). -/
def State.judge (s : State) (e : JEntry) : Option (BitVec 3) :=
  if e.home / 2 ^ 44 = 3 then
    let st := (e.home - space 3) / 0x180000 / 64
    let sl := (e.home - space 3) / 0x180000 % 64
    let o := (e.home - space 3) % 0x180000
    if s.sliceTenant st sl o ≠ some (s.tenantOf e.ctx) then some 1
    else if e.be ≠ 15 && s.hasBad e.home 4 then some 2
    else none
  else if s.hasBad e.home 4 then some 2
  else none

/-- Store the enabled bytes of an entry. -/
def State.storeEnabled (s : State) (e : JEntry) : State :=
  if e.be = 15 then s.storeBytes e.home (wordBytes4 e.data)
  else
    (List.range 4).foldl (fun s i =>
      if e.be.getLsbD i then s.storeBytes (e.home + i) [e.data.extractLsb' (8 * i) 8] else s) s

/-- Record a performed access in the trace ring of a slice, within its filter (18 R495). -/
def State.ringEntry (s : State) (st sl o kind : Nat) (src : AgentId) (host : Bool) (tenant : Nat) (be : Nat) (w : Word) : State :=
  let x := s.sliceOf st sl
  if x.en && (!x.filt || x.ten.toNat = tenant) && x.lo.toNat ≤ o && o ≤ x.hi.toNat then
    let e : TraceEntry := ⟨(s.sliceClock st sl).setWidth 32, BitVec.ofNat 32 (kind * 2 ^ 28 + (if host then 0xFFFFF else agentNo src)),
      BitVec.ofNat 32 (be * 2 ^ 21 + o), w⟩
    s.updSlice st sl (fun x => { x with ring := assign x.ring x.headR e, wrap := x.wrap || (lookup? x.ring x.headR).isSome
                                        headR := (x.headR + 1) % 1024 })
  else s

/-- The home slice of a shared SRAM number, or the channel of an aperture number. -/
def homeUnit (flat : Nat) : Nat × Nat :=
  if flat / 2 ^ 44 = 3 then (3, (flat - space 3) / 0x180000) else (4, (flat - space 4) / 2 ^ 30)

/-- No entry of its context toward its home slice, or its aperture, that is still on its way is older (17 R466). The two words of one STD are
performed in either order (12 R350, 17 R464). -/
def oldest (j : List (Nat × JEntry)) (e : JEntry) : Bool :=
  j.all (fun p => !(p.2.ctx = e.ctx && p.2.verdict = .posted && p.2.seqNo < e.seqNo &&
    homeUnit p.2.home = homeUnit e.home))

/-- A posted store reaches its home slice: performed, or refused. -/
def State.perform (s : State) (core : AgentId) (n : Nat) : State :=
  match lookup? (s.coreOf core).journal n with
  | none => s
  | some e =>
    if e.verdict = .posted && oldest (s.coreOf core).journal e then
      let put (s : State) (v : Verdict) : State :=
        s.updCore core (fun k => { k with journal := assign k.journal n { e with verdict := v } })
      match s.judge e with
      | some r => put s (.rejected r)
      | none =>
        let s := (put s .performed).storeEnabled e
        if e.home / 2 ^ 44 = 3 then
          s.ringEntry ((e.home - space 3) / 0x180000 / 64) ((e.home - space 3) / 0x180000 % 64)
            ((e.home - space 3) % 0x180000) (bit e.stl) e.ctx false (s.tenantOf e.ctx) e.be.toNat (s.wordAt e.home)
        else s
    else s

/-! ### Scopes (12 R370, 15 R420; 17 R467, R470) -/

/-- A store on its way is acknowledged at a scope below 5 before it is performed (12 R370): it will be performed before any agent within
the scope makes another access, and agents beyond it may see later accesses of the context first (17 R470). One that its home would refuse
is not. -/
def State.mayPass (s : State) (e : JEntry) : Bool :=
  match e.verdict with
  | .posted => (s.judge e).isNone
  | .performed => true
  | .rejected _ => false
  | .record _ => true

/-- The stores of a context are acknowledged at a scope. -/
def State.acknowledgeAt (s : State) (a : AgentId) (scope : Nat) : State :=
  s.updCore a (fun k => { k with journal := k.journal.map (fun p =>
    if p.2.ctx = a && p.2.unacked then (p.1, { p.2 with past := max p.2.past scope }) else p) })

/-- What a release or FENCE of a scope waits for: nothing at scope 0; at scopes 1 to 4 that every earlier store is acknowledged at that
scope, which the draw says of those still on their way; at 5 that the context has none (12 R353, R370; log 47). None where it must wait. -/
def State.passStores (s : State) (scope : Nat) (a : AgentId) : Option State :=
  if scope = 0 ∨ !s.unacked a then some s
  else if scope < 5 ∧ Config.choice s.draws % 2 = 1 ∧
      (s.coreOf a).journal.all (fun p => p.2.ctx ≠ a || s.mayPass p.2) then some (s.acknowledgeAt a scope)
  else none

/-- A release at a scope, which vector loads and stores of the context precede too (10 R260, 15 R420). JOB kicks are performed at once. -/
def State.passRelease (s : State) (scope : Nat) (a : AgentId) : Option State :=
  if scope ≠ 0 ∧ s.seqBusy a then none else s.passStores scope a

/-- Insert by place in the order of stores. -/
def insertStore (x : AgentId × Nat × JEntry) : List (AgentId × Nat × JEntry) → List (AgentId × Nat × JEntry)
  | [] => [x]
  | y :: rest => if x.2.2.seqNo ≤ y.2.2.seqNo then x :: y :: rest else y :: insertStore x rest

/-- Stores of other contexts that are acknowledged at their scope with an agent and not yet performed, each core's in order. -/
def State.lagging (s : State) (b : AgentId) : List (AgentId × Nat × JEntry) :=
  s.cores.flatMap (fun p =>
    ((p.2.journal.filter (fun e => e.2.past ≠ 0 && e.2.verdict = .posted && e.2.ctx ≠ b && scopeOf e.2.ctx b ≤ e.2.past)).map
      (fun e => (p.1, e.1, e.2))).foldr insertStore [])

/-- An agent is about to make accesses: stores acknowledged at a scope that holds it are performed first (17 R470). -/
def State.orderFor (s : State) (b : AgentId) : State := (s.lagging b).foldl (fun s x => s.perform x.1 x.2.1) s

/-- The acknowledgment frees the entry (12 R350). -/
def State.acknowledge (s : State) (core : AgentId) (n : Nat) : State :=
  match lookup? (s.coreOf core).journal n with
  | none => s
  | some e =>
    if e.verdict = .performed then s.updCore core (fun k => { k with journal := erase k.journal n }) else s

/-- The refusal arrives: the entry holds a refusal record (12 R351). -/
def State.refuseStore (s : State) (core : AgentId) (n : Nat) : State :=
  match lookup? (s.coreOf core).journal n with
  | none => s
  | some e =>
    match e.verdict with
    | .rejected r =>
      s.updCore core (fun k => { k with journal := assign k.journal n { e with verdict := .record r } })
    | .posted => s
    | .performed => s
    | .record _ => s

/-- A handler clears the refusal record of an entry of its own context (12 R352). A POSTED_REFUSED not yet taken for it stays pending
(18 R474). -/
def State.clearRecord (s : State) (a : AgentId) (n : Nat) : State :=
  match lookup? (s.coreOf a).journal n with
  | none => s
  | some e =>
    match e.verdict with
    | .record _ =>
      if e.ctx = a then
        (s.updCore a (fun k => { k with journal := erase k.journal n })).updOf a (fun c => { c with
          clearedRefusals := if e.delivered then c.clearedRefusals else c.clearedRefusals ++ [n] })
      else s
    | .posted => s
    | .performed => s
    | .rejected _ => s

end Sys2Proof.Machine
end

