-- ==== Sys2Proof/Machine/Operands.lean ====
section
/-!
DEFINITION. Machine/Operands.lean: the operand forms (04 R93, 06 R154, R162).
-/
namespace Sys2Proof.Machine

/-- Optional c over x registers: y and z are x[a] and x[b] without PFR, x[b] and x[c] with it (04 R93, 06 R154). -/
def Ctx.xOperands (k : Ctx) (a b : XReg) : Option XReg → Word × Word
  | none => (k.getX a, k.getX b)
  | some c => (k.getX b, k.getX c)

/-- Optional c over f registers (04 R93). -/
def Ctx.fOperands (k : Ctx) (a b : FReg) : Option FReg → Word × Word
  | none => (k.getF a, k.getF b)
  | some c => (k.getF b, k.getF c)

/-- Optional c over v registers: the numbers of the two operand registers (04 R93). -/
def vOperands (a b : VReg) : Option VReg → VReg × VReg
  | none => (a, b)
  | some c => (b, c)

/-- The effective address x[b] + imm × scale, modulo 2^32 (06 R162). -/
def Ctx.ea (k : Ctx) (b : XReg) (imm : Imm) (scale : Nat) : Word := k.getX b + imm * BitVec.ofNat 32 scale

/-- The target of a B, BS, J or PCA word: PC[31:0] + imm × 2 (04 R98). -/
def Ctx.target (k : Ctx) (imm : Imm) : Word := k.pcLow + imm * 2

/-- A load of `size` bytes whose data change the context by `put`. -/
def State.loadInto (s : State) (ea : Word) (size : Nat) (put : List Byte → Ctx → Ctx) : Res :=
  match s.load s.cur ea size with
  | .got s' bs => s'.done (put bs)
  | .wait s' => .next s'
  | .bad code tval => s.trap code tval

/-- A store of bytes; the group completes when the store has been made or posted. -/
def State.storeFrom (s : State) (ea : Word) (bs : List Byte) (stl : Bool) : Res :=
  match s.store s.cur ea bs stl with
  | .done s' => s'.done id
  | .wait s' => .next s'
  | .bad code tval => s.trap code tval

end Sys2Proof.Machine
end

