-- ==== Sys2Proof/Machine/Report.lean ====
section
/-!
DEFINITION. Machine/Report.lean: MSI-X vectors (02 R47, 22 R523) and machine reports (22 R539, R540).
-/
namespace Sys2Proof.Machine

def State.funcOf (s : State) (f : Nat) : Func := lookupD .reset s.funcs f
def State.updFunc (s : State) (f : Nat) (g : Func → Func) : State := { s with funcs := assign s.funcs f (g (s.funcOf f)) }

/-- The mask of one vector. -/
def vecBit (v : Nat) : BitVec 32 := (1 : BitVec 32) <<< v

/-- The message of a vector: its number, with the address and data that its table entry holds. -/
def Func.message (f : Func) (v : Nat) : Nat × BitVec 64 × Word := (v, f.vecAddr.toList.getD v 0, f.vecData.toList.getD v 0)

/-- Raise a vector (02 R47): a message is sent when MSI-X is enabled and neither the function nor the vector is masked; a masked one
is pending; a disabled one is lost. -/
def Func.raise (f : Func) (v : Nat) : Func :=
  if !f.msixEnable then f
  else if f.msixMask || f.vecMask.getLsbD v then { f with vecPend := f.vecPend ||| vecBit v }
  else { f with sent := f.message v :: f.sent }

/-- Unmask: pending vectors of the function that are no longer masked are sent (02 R47). -/
def Func.unmask (f : Func) (v : Nat) : Func :=
  let f := { f with vecMask := f.vecMask &&& ~~~(vecBit v) }
  if f.msixEnable && !f.msixMask && f.vecPend.getLsbD v then
    { f with vecPend := f.vecPend &&& ~~~(vecBit v), sent := f.message v :: f.sent }
  else f

/-- The service core of quadrant 0 of a stack, which holds the ring of the stack's machine reports (22 R539). -/
def reportCore (st : Nat) : AgentId := .serviceCore st 0

/-- The 32 bytes of a machine report (22 R539). The unit kind is a free value (log 8). -/
def State.reportBytes (s : State) (st no addr : Nat) : List Byte :=
  [Config.unitKind s.draws, 0, 0, 0x0A] ++ bytesOf no 4 ++ bytesOf addr 4 ++ bytesOf (s.coreClock (reportCore st)).toNat 8 ++ List.replicate 12 0

/-- Make a machine report on a stack (22 R539): written at HEAD mod 64 of the ring, vector 17 of the PF raised; dropped and counted
in LOST while 64 entries are unread. -/
def State.report (s : State) (st no addr : Nat) : State :=
  let core := reportCore st
  let h := s.hartOf core
  if (h.headM + 128 - h.tailM) % 128 = 64 then
    s.updHart core (fun h => { h with lost := min (h.lost + 1) 0xFFFF })
  else
    let s := { s with draws := s.draws + 1 }.storeBytes (ownTcmAt core (h.mrbase.toNat * 2 ^ 11 + h.headM % 64 * 32)) (s.reportBytes st no addr)
    let s := s.updHart core (fun h => { h with headM := (h.headM + 1) % 128 })
    s.updFunc 0 (fun f => f.raise 17)

/-- A machine report about an agent, made by a unit of a given stack. -/
def State.reportFrom (s : State) (st : Nat) (a : AgentId) (addr : Nat) : State := s.report st (agentNo a) addr

/-- A machine report about an agent, made on its own stack. -/
def State.reportOf (s : State) (a : AgentId) (addr : Nat) : State := s.report (stackOf a) (agentNo a) addr

/-- Words of a block that an instruction reads from its own TCM or the scratchpad, with single-bit errors corrected; none when a
word holds an uncorrectable error, which the group reports as a load does (12 R372). -/
def State.readBlock (s : State) (flat n : Nat) : Option (State × List Word) :=
  if s.hasBad flat (4 * n) then none else some (s.correct flat (4 * n), s.wordsAt flat n)

/-- The first word of a block that can be read and fails a test: its fault comes before ECC_UNCORRECTABLE of another word (06 R180). -/
def State.firstWrong (s : State) (flat n : Nat) (ok : Nat → Word → Bool) : Option Nat :=
  (List.range n).find? (fun i => !s.hasBad (flat + 4 * i) 4 && !ok i (s.wordAt (flat + 4 * i)))

end Sys2Proof.Machine
end

