-- ==== Sys2Proof/Machine/Accum.lean ====
section
/-!
DEFINITION. Machine/Accum.lean: accumulates, residual tiles and returning atomics (16 R441-R462).
-/
namespace Sys2Proof.Machine

/-! ### Domain tags (02 R32) -/

/-! ### The residual tile (16 R448) -/

/-- Number of the first byte of an agent's residual tile. -/
def tileBase (a : AgentId) : Nat :=
  match a with
  | .core s c k x => tcmAt s c k (0x1F000 + x * 0x400)
  | h => ownTcmAt h (tcmSize h - 0x400)

/-- An entry as an addend: its kind, home word, value, and domain tag. -/
structure Addend where
  fp : Bool
  stack : Nat
  slice : Nat
  off : Nat
  value : Word
  dom : Option (BitVec 10)
  deriving DecidableEq, Repr

/-- Entry `n` of the tile, when it holds an addend. The hardware uses its bytes as they stand, with an uncorrectable error too (DESIGN
CHOICE: 16 R448 and 12 R372 name no fate; log 46). -/
def State.tileEntry (s : State) (a : AgentId) (n : Nat) : Option Addend :=
  let w0 := (s.wordAt (tileBase a + 16 * n)).toNat
  let w2 := s.wordAt (tileBase a + 16 * n + 8)
  if bitsOf w0 31 31 = 1 then
    some ⟨bitsOf w0 30 30 = 1, bitsOf w0 29 26, bitsOf w0 25 20, 4 * bitsOf w0 19 0, s.wordAt (tileBase a + 16 * n + 4),
      if w2.getLsbD 31 then some (w2.setWidth 10) else none⟩
  else none

/-- Reading entry `n` of the tile corrects its single-bit errors (12 R371). -/
def State.noteEntry (s : State) (a : AgentId) (n : Nat) : State := s.correct (tileBase a + 16 * n) 16

/-- The words of an entry. -/
def Addend.words (x : Addend) (stamp : Word) : List Word :=
  [BitVec.ofNat 32 (2 ^ 31 + bit x.fp * 2 ^ 30 + x.stack * 2 ^ 26 + x.slice * 2 ^ 20 + x.off / 4), x.value,
   match x.dom with
     | some d => BitVec.ofNat 32 (2 ^ 31 + d.toNat)
     | none => 0,
   stamp]

def State.storeWords (s : State) (flat : Nat) : List Word → State
  | [] => s
  | w :: rest => (s.storeWord flat w).storeWords (flat + 4) rest

def State.putTile (s : State) (a : AgentId) (n : Nat) (x : Addend) (stamp : Word) : State :=
  s.storeWords (tileBase a + 16 * n) (x.words stamp)

def State.clearTile (s : State) (a : AgentId) (n : Nat) : State := s.storeWords (tileBase a + 16 * n) [0, 0, 0, 0]

/-- Valid entries of the tile: RESV of ACCSTAT (16 R457). -/
def State.resv (s : State) (a : AgentId) : Nat := (List.range 64).countP (fun n => (s.tileEntry a n).isSome)

/-- The index of a home word (16 R448). -/
def Addend.index (x : Addend) : Nat := x.off / 4 % 64

/-- Two addends combine in a tile: same tag, kind and domain tag (16 R449, R450). -/
def Addend.joins (x y : Addend) : Bool :=
  x.fp = y.fp && x.stack = y.stack && x.slice = y.slice && x.off = y.off && x.dom = y.dom

/-- The combination of 16 R442, with its flags. -/
def combine (fp : Bool) (y z : Word) : Word × BitVec 5 := if fp then addF 0 y z else (y + z, 0)

/-! ### Sending (16 R443, R450, R451) -/

/-- The message of an addend of an owner. -/
def State.accMsg (s : State) (a : AgentId) (x : Addend) (must : Bool) : Acc :=
  let g := (s.unitOf a).acccfg
  { dir := .toHome, stack := x.stack, slice := x.slice, off := x.off, fp := x.fp, value := x.value, tenant := s.tenantOf a
    dom := x.dom, owner := a, must := must, quota := g.quota.toNat, qwx := g.qwx.toNat, mwin := g.mwin.toNat
    waited := s.time.toNat, flags := 0, dropped := false }

/-- Send an addend: it becomes outstanding. -/
def State.sendAcc (s : State) (a : AgentId) (x : Addend) (must : Bool) : State :=
  let s := { s with accs := s.accs ++ [s.accMsg a x must] }
  s.updOf a (fun c => { c with out := c.out + 1, mustOut := c.mustOut + bit must })

/-- One more must-accept message may be sent: at most 4 of them, and 64 in all, are unacknowledged (16 R443, R451). -/
def Ctx.mustFree (c : Ctx) : Bool := c.mustOut < 4 && c.out < 64

/-- Send the entries from `64 - n` on as must-accept messages while that is allowed. -/
def State.flushFrom (s : State) (a : AgentId) : Nat → State
  | 0 => s
  | n + 1 =>
    let s := s.noteEntry a (63 - n)
    let s :=
      match s.tileEntry a (63 - n) with
      | some x => if (s.ctxOf a).mustFree then (s.clearTile a (63 - n)).sendAcc a x true else s
      | none => s
    State.flushFrom s a n

/-- Go on with the flush of a tile, four messages at a time (16 R451). -/
def State.flushTile (s : State) (a : AgentId) : State := s.flushFrom a 64

/-- Begin a flush: until it ends, refusals return as must-accept messages (16 R453). -/
def State.startFlush (s : State) (a : AgentId) : State := (s.updOf a (fun c => { c with flushing := true })).flushTile a

/-- Every accumulate of the context is acknowledged and its tile is empty. -/
def State.flushed (s : State) (a : AgentId) : Bool := (s.ctxOf a).out = 0 && s.resv a = 0

/-- Issue one accumulate (16 R458): the entry of its home word joins it. -/
def State.accumulate (s : State) (a : AgentId) (x : Addend) : State :=
  let s := s.noteEntry a x.index
  match s.tileEntry a x.index with
  | some y =>
    if x.joins y then
      let r := combine x.fp y.value x.value
      ((s.clearTile a x.index).updOf a (fun c => c.orFp r.2 false)).sendAcc a { x with value := r.1 } false
    else s.sendAcc a x false
  | none => s.sendAcc a x false

/-- The checks of 16 R441: the home word, or the trap. -/
def State.accHome (s : State) (ea : Word) (size : Nat) : Except (BitVec 8) (Nat × Nat × Nat) :=
  if ea.toNat % size ≠ 0 then .error Cause.align
  else
    match place s.cur ea.toNat with
    | .shared =>
      match homeOf s.ctx.windows ea.toNat .atomic with
      | some h => .ok h
      | none => .error Cause.storeWindow
    | _ => .error Cause.storeWindow

/-- ACC.I and ACC.F (16 R458). -/
def State.accOne (s : State) (ea value : Word) (fp : Bool) : Res :=
  match s.accHome ea 4 with
  | .error code => s.trap code ea
  | .ok (st, sl, o) =>
    if s.ctx.out ≥ 64 then s.waits .interlock
    else (s.accumulate s.cur ⟨fp, st, sl, o, value, s.ctx.innermost⟩).done id

/-- ACC.I (16 R458). -/
def execAccI (a b : XReg) (s : State) : Res := s.accOne (s.ctx.getX b) (s.ctx.getX a) false
/-- ACC.F (16 R458). -/
def execAccF (a : FReg) (b : XReg) (s : State) : Res := s.accOne (s.ctx.getX b) (s.ctx.getF a) true

/-- ACCSQ (16 R459): ACC.F of f[a] at ea and of its square at ea + 4. -/
def execAccsq (a : FReg) (b : XReg) (s : State) : Res :=
  let ea := s.ctx.getX b
  match s.accHome ea 8, s.accHome (ea + 4) 4 with
  | .error code, _ => s.trap code ea
  | .ok _, .error code => s.trap code (ea + 4)
  | .ok (st, sl, o), .ok (st', sl', o') =>
    if s.ctx.out ≥ 63 then s.waits .interlock
    else
      let y := s.ctx.getF a
      let sq := mulF 0 y y
      let d := s.ctx.innermost
      let s := s.upd (fun c => c.orFp sq.2 false)
      ((s.accumulate s.cur ⟨true, st, sl, o, y, d⟩).accumulate s.cur ⟨true, st', sl', o', sq.1, d⟩).done id

/-- FLUSHR (16 R460). -/
def execFlushr (s : State) : Res :=
  let s := s.startFlush s.cur
  if s.flushed s.cur then s.done (fun c => { c with flushing := false }) else s.waits .interlock

/-- The stop time of the context's switch set has come, or the context is stopped (16 R453, R455; 18 R477). -/
def State.pastStop (s : State) (a : AgentId) : Bool :=
  let c := s.ctxOf a
  c.stopped || (c.switchat ≠ BitVec.allOnes 64 && c.switchat ≤ s.coreClock a)

/-! ### At the home slice (16 R442, R444, R446, R447) -/

/-- The source cluster of a message: the cluster of its owner, of which a copy unit is part; each other hart counts for itself. -/
def sourceOf : AgentId → Nat
  | .core s c _ _ | .copyUnit s c => clusterNo s c
  | h => 20480 + hartNo h

/-- The window that holds the present TIME begins at this multiple of 2^QWX. -/
def windowStart (time qwx : Nat) : Nat := time / 2 ^ qwx * 2 ^ qwx

/-- Accumulates that a slice has accepted from a source in the window that begins at `start`. -/
def Slice.accepted (x : Slice) (src start : Nat) : Nat := x.quota.countP (fun q => q.1 = src && start ≤ q.2)

/-- The stop time of a gang switch of the owner's partition, or team, has come by the slice's TIME, and the set has not resumed (16 R455). -/
def State.gangStopped (s : State) (tenant : Nat) (owner : AgentId) (time : Nat) : Bool :=
  s.switches.any (fun w => w.2.stop ≤ time &&
    (match w.2.team, (s.ctxOf owner).origin with
      | none, _ => w.2.tenant = tenant
      | some t, .member q lid n _ => t = (q, lid, n)
      | some _, .none | some _, .message _ | some _, .loader _ | some _, .firmware => false))

/-- Replace the n-th message in flight. -/
def State.setAcc (s : State) (n : Nat) (m : Acc) : State := { s with accs := s.accs.set n m }
def State.dropAcc (s : State) (n : Nat) : State := { s with accs := s.accs.eraseIdx n }

/-- An accumulate arrives at its home slice: dropped, refused, or applied; each answers its owner. What is to be dropped is not refused, and
the report names the home word by the low 32 bits of its byte number in the model (DESIGN CHOICES: 16 R444, R447 and 22 R539 do not say; log
46). -/
def State.accArrive (s : State) (n : Nat) (m : Acc) : State :=
  let flat := sliceAt m.stack m.slice m.off
  if s.sliceTenant m.stack m.slice m.off ≠ some m.tenant ∨ s.hasBad flat 4 then
    (s.reportFrom m.stack m.owner flat).setAcc n { m with dir := .ack, dropped := true }
  else
    let now := (s.sliceClock m.stack m.slice).toNat
    let start := windowStart now m.qwx
    let src := sourceOf m.owner
    let count := (s.sliceOf m.stack m.slice).accepted src start
    let free := m.must || m.quota = 0 || s.gangStopped m.tenant m.owner now
    if !free && m.quota ≤ count then s.setAcc n { m with dir := .refusal }
    else
      let r := combine m.fp (s.wordAt flat) m.value
      let s := (s.correct flat 4).storeWord flat r.1
      let s := s.ringEntry m.stack m.slice m.off 3 m.owner false m.tenant 15 r.1
      let s := if m.must then s else
        s.updSlice m.stack m.slice (fun x => { x with quota := (src, now) :: x.quota })
      s.setAcc n { m with dir := .ack, flags := m.flags ||| r.2 }

/-- ACCUMULATE_ARRIVAL (16 R442, R444, R447). -/
def execAccumulateArrival (n : Nat) (s : State) : Res :=
  match s.accs[n]? with
  | some m => if m.dir = .toHome then .next (s.accArrive n m) else .next s
  | none => .next s

/-- QUOTA_WINDOW (16 R447): what was accepted in windows that have passed, the longest among them, is forgotten. -/
def execQuotaWindow (stack slice : Nat) (s : State) : Res :=
  .next (s.updSlice stack slice (fun x => { x with quota := x.quota.filter (fun q => windowStart (s.sliceClock stack slice).toNat 15 ≤ q.2) }))

/-- A message on its way joins the output queue of the next router (01 R17): it stands behind those that wait there, and its wait there
begins. The list of messages keeps the order of arrival at their routers. -/
def State.hopAcc (s : State) (n : Nat) : State :=
  match s.accs[n]? with
  | some m => { s with accs := s.accs.eraseIdx n ++ [{ m with waited := s.time.toNat }] }
  | none => s

/-- Two messages may merge (16 R445): `m` waited longer. -/
def Acc.merges (m k : Acc) (time : Nat) : Bool :=
  m.dir = .toHome && k.dir = .toHome && m.stack = k.stack && m.slice = k.slice && m.off = k.off && m.fp = k.fp &&
    m.tenant = k.tenant && m.dom = k.dom && !m.must && !k.must && 2 * (time - m.waited) < m.mwin

/-- ACC_MERGE (16 R445): the messages with these places; the one that arrived first keeps its place and owner, and the other is
acknowledged. -/
def execAccMerge (i j : Nat) (s : State) : Res :=
  let first := min i j
  let later := max i j
  match s.accs[first]?, s.accs[later]? with
  | some m, some k =>
    if first < later ∧ m.merges k s.time.toNat then
      let r := combine m.fp m.value k.value
      let s := s.setAcc first { m with value := r.1, flags := m.flags ||| k.flags ||| r.2 }
      .next (s.setAcc later { k with dir := .ack, flags := 0 })
    else .next s
  | none, _ => .next s
  | some _, none => .next s

/-! ### Back at the owner (16 R443, R449, R453) -/

/-- ACC_ACK: the message is no longer outstanding; flags and a drop mark are recorded; a flush in progress goes on. -/
def execAccAck (n : Nat) (s : State) : Res :=
  match s.accs[n]? with
  | some m =>
    if m.dir = .ack then
      let s := (s.dropAcc n).updOf m.owner (fun c => { c.orLate m.flags with
        out := c.out - 1, mustOut := c.mustOut - bit m.must, drop := c.drop || m.dropped, evictWaits := c.evictWaits && !m.must })
      .next (if (s.ctxOf m.owner).flushing then s.flushTile m.owner else s)
    else .next s
  | none => .next s

/-- The partition of an agent's tenant is restored and has not resumed: a re-injected refusal enters its tile (16 R455). -/
def State.resuming (s : State) (a : AgentId) : Bool :=
  match lookup? s.switches (s.tenantOf a) with
  | some w => w.phase = .restored
  | none => false

/-- The age limit of the tile entries of a context (16 R446, R452). -/
def State.ageLimit (s : State) (a : AgentId) : Nat := 2 ^ ((s.unitOf a).acccfg.agex.toNat + 8)

/-- Entry `n` of a tile has reached its age limit (16 R452). -/
def State.aged (s : State) (a : AgentId) (n : Nat) : Bool :=
  (s.tileEntry a n).isSome && s.ageLimit a ≤ ((s.coreClock a).setWidth 32 - s.wordAt (tileBase a + 16 * n + 12)).toNat

/-- An eviction or an ageing of the context waits for a fifth must-accept message: refusals that return to it are held (16 R451). -/
def State.holdsRefusals (s : State) (a : AgentId) : Bool :=
  let c := s.ctxOf a
  4 ≤ c.mustOut && (c.evictWaits || (List.range 64).any (s.aged a))

/-- A refusal returns (16 R449, R453): it is counted and no longer outstanding; then it goes on as a must-accept message during a
flush, or enters, joins or evicts its entry. A message that needs a must-accept message while four are unacknowledged is held. One that
comes back on resume to a paused owner goes on (DESIGN CHOICE between 16 R453 and R455; log 46). -/
def State.refusalBack (s : State) (n : Nat) (m : Acc) : State :=
  let x : Addend := ⟨m.fp, m.stack, m.slice, m.off, m.value, m.dom⟩
  let a := m.owner
  let c := s.ctxOf a
  let room := c.mustOut < 4
  let back (s : State) : State := (s.dropAcc n).updOf a (fun c => { c.orLate m.flags with
    out := c.out - 1, refused := min (c.refused + 1) 0xFFFF })
  if s.holdsRefusals a then s
  else if c.flushing || (s.pastStop a && !s.resuming a) then (if room then (back s).sendAcc a x true else s)
  else
    let s := s.noteEntry a x.index
    match s.tileEntry a x.index with
    | none => (back s).putTile a x.index x ((s.coreClock a).setWidth 32)
    | some y =>
      if x.joins y then
        let r := combine x.fp y.value x.value
        (((back s).updOf a (fun c => c.orLate r.2))).storeWord (tileBase a + 16 * x.index + 4) r.1
      else if room then (((back s).sendAcc a y true)).putTile a x.index x ((s.coreClock a).setWidth 32)
      else s.updOf a (fun c => { c with evictWaits := true })

/-- REFUSAL_RETURN (16 R449, R453). -/
def execRefusalReturn (n : Nat) (s : State) : Res :=
  match s.accs[n]? with
  | some m => if m.dir = .refusal then .next (s.refusalBack n m) else .next s
  | none => .next s

/-- RESIDUAL_AGEING (16 R452): an entry whose age has reached AGE is sent as a must-accept message. -/
def execResidualAgeing (ag : AgentId) (entry : BitVec 6) (s : State) : Res :=
  let n := entry.toNat
  let s := s.noteEntry ag n
  match s.tileEntry ag n with
  | some x =>
    if s.aged ag n && (s.ctxOf ag).mustFree then .next ((s.clearTile ag n).sendAcc ag x true)
    else .next s
  | none => .next s

/-! ### Returning atomics (16 R461, R462) -/

/-- What an atomic does with the old value: the new word if it stores, and T if it writes T. -/
structure AtomicOut where
  store : Option Word
  t : Option Bool
  deriving DecidableEq, Repr

/-- The table of 16 R462, by fn; y is x[c] and z is x[c+1]. -/
def atomicOp (fn : BitVec 3) (old y z : Word) : AtomicOut :=
  match fn.toNat with
  | 0 => ⟨some (old + y), none⟩
  | 1 =>
    let ok := old.toNat + y.toNat ≤ z.toNat
    ⟨if ok then some (old + y) else none, some ok⟩
  | 2 => if y ≤ old then ⟨some 0, some false⟩ else ⟨some (old + 1), some true⟩
  | 3 => ⟨some y, none⟩
  | 4 => ⟨if old = y then some z else none, some (old = y)⟩
  | 5 => ⟨some (old &&& y), none⟩
  | 6 => ⟨some (old ||| y), none⟩
  | _ => ⟨some (if old.slt y then y else old), none⟩

/-- The result of an atomic: x[a] := old, and T. -/
def Ctx.atomicResult (k : Ctx) (a : XReg) (fn : BitVec 3) (old y z : Word) : Ctx :=
  let k := k.setX a old
  match (atomicOp fn old y z).t with
  | some b => k.setT b
  | none => k

/-- A returning atomic (16 R461): its checks, the wait of a store-release, then in one step at the scratchpad bank, or at the home
slice. ECC_UNCORRECTABLE of a scratchpad word is among the checks, before the wait (DESIGN CHOICE: R461 does not order them; log 46). -/
def State.atomic (s : State) (a b c : XReg) (fn : BitVec 3) : Res :=
  let ea := s.ctx.getX b
  let y := s.ctx.getX c
  let z := s.ctx.getX (c + 1)
  if ea.toNat % 4 ≠ 0 then s.trap Cause.align ea
  else
    match place s.cur ea.toNat with
    | .scratch flat =>
      if s.hasBad flat 4 then s.trap Cause.ecc ea
      else if !s.released s.cur then s.waits .interlock
      else
        let s := s.correct flat 4
        let old := s.wordAt flat
        let s := match (atomicOp fn old y z).store with
          | some w => s.storeWord flat w
          | none => s
        s.done (fun k => k.atomicResult a fn old y z)
    | .shared =>
      match homeOf s.ctx.windows ea.toNat .atomic with
      | none => s.trap Cause.storeWindow ea
      | some (st, sl, o) =>
        match s.ctx.pend with
        | .none =>
          if !s.released s.cur then s.waits .interlock
          else .next (s.upd (fun k => { k with pend := .rmw (sliceAt st sl o) ea fn y z, wait := .load }))
        | .asked _ _ _ => s.waits .load
        | .half _ _ _ _ => s.waits .load
        | .port => s.waits .load
        | .rmw _ _ _ _ _ => s.waits .load
        | .payload _ _ _ _ => s.waits .load
        | .got bs => s.done (fun k => k.atomicResult a fn (wordOfBytes bs) y z)
        | .bad code tval => s.trap code tval
    | _ => s.trap Cause.storeWindow ea

/-- AADD (16 R462). -/
def execAadd (a b c : XReg) (s : State) : Res := s.atomic a b c 0
/-- FADDB (16 R462). -/
def execFaddb (a b c : XReg) (s : State) : Res := s.atomic a b c 1
/-- INCW (16 R462). -/
def execIncw (a b c : XReg) (s : State) : Res := s.atomic a b c 2
/-- ASWAP (16 R462). -/
def execAswap (a b c : XReg) (s : State) : Res := s.atomic a b c 3
/-- ACAS (16 R462). -/
def execAcas (a b c : XReg) (s : State) : Res := s.atomic a b c 4
/-- AAND (16 R462). -/
def execAand (a b c : XReg) (s : State) : Res := s.atomic a b c 5
/-- AOR (16 R462). -/
def execAor (a b c : XReg) (s : State) : Res := s.atomic a b c 6
/-- AMAX (16 R462). -/
def execAmax (a b c : XReg) (s : State) : Res := s.atomic a b c 7

/-- REMOTE_ATOMIC (16 R461): the atomic of a waiting context executes at its home slice. -/
def execRemoteAtomic (ag : AgentId) (s : State) : Res :=
  match (s.ctxOf ag).pend with
  | .rmw home ea fn y z =>
    let st := (home - space 3) / 0x180000 / 64
    let sl := (home - space 3) / 0x180000 % 64
    let o := (home - space 3) % 0x180000
    let answer (s : State) (p : Pend) : Res := .next (s.updOf ag (fun c => { c with pend := p }))
    if s.sliceTenant st sl o ≠ some (s.tenantOf ag) then answer s (.bad Cause.storeWindow ea)
    else if s.hasBad home 4 then answer s (.bad Cause.ecc ea)
    else
      let s := s.correct home 4
      let old := s.wordAt home
      let s := match (atomicOp fn old y z).store with
        | some w => s.storeWord home w
        | none => s
      answer (s.ringEntry st sl o 2 ag false (s.tenantOf ag) 15 (s.wordAt home)) (.got (wordBytes4 old))
  | .none => .next s
  | .asked _ _ _ => .next s
  | .half _ _ _ _ => .next s
  | .port => .next s
  | .got _ => .next s
  | .bad _ _ => .next s
  | .payload _ _ _ _ => .next s

end Sys2Proof.Machine
end

