-- ==== Sys2Proof/Machine/Automata.lean ====
section
/-!
DEFINITION. Machine/Automata.lean: protocol automata: images, shapes, counters, look-aheads, the checks of ALOAD, and duality (13
R378-R384, R388).
-/
namespace Sys2Proof.Machine

/-! ### Reading an image (13 R378) -/

def Auto.word (a : Auto) (i : Nat) : Nat := ((a.words[i]?).getD 0).toNat
def headNstate (w : Nat) : Nat := bitsOf w 20 16 + 1
def headNedge (w : Nat) : Nat := bitsOf w 14 8
def Auto.nstate (a : Auto) : Nat := headNstate (a.word 0)
def Auto.nedge (a : Auto) : Nat := headNedge (a.word 0)
def Auto.window (a : Auto) : Nat := bitsOf (a.word 0) 7 0
def Auto.stateWord (a : Auto) (s : Nat) : Nat := a.word (2 + s)
def Auto.hc (a : Auto) (s : Nat) : Bool := bitsOf (a.stateWord s) 31 31 = 1
def Auto.init (a : Auto) (s : Nat) : Nat := bitsOf (a.stateWord s) 23 16
def Auto.first (a : Auto) (s : Nat) : Nat := bitsOf (a.stateWord s) 13 8
def Auto.ne (a : Auto) (s : Nat) : Nat := bitsOf (a.stateWord s) 6 0

/-- An edge. -/
structure Edge where
  kind : Nat
  cond : Nat
  next : Nat
  tag : Nat
  label : Nat
  shape : Nat
  deriving DecidableEq, Repr

def edgeOf (w : Nat) : Edge := ⟨bitsOf w 31 28, bitsOf w 27 26, bitsOf w 25 21, bitsOf w 19 16, bitsOf w 15 10, bitsOf w 9 0⟩
def Auto.edge (a : Auto) (j : Nat) : Edge := edgeOf (a.word (2 + a.nstate + j))
/-- Indices of the edges of a state. -/
def Auto.edgesOf (a : Auto) (s : Nat) : List Nat := (List.range (a.ne s)).map (a.first s + ·)

namespace Kind
def send : Nat := 0
def recv : Nat := 1
def select : Nat := 2
def offer : Nat := 3
def dsend : Nat := 4
def drecv : Nat := 5
def fin : Nat := 6
end Kind

def outbound (k : Nat) : Bool := k = Kind.send || k = Kind.select || k = Kind.dsend
def inbound (k : Nat) : Bool := k = Kind.recv || k = Kind.offer || k = Kind.drecv

/-! ### Shapes (05 R128, 13 R379) -/

/-- Payload bytes of a shape. -/
def shapeBytes (sh : Nat) : Nat :=
  let f := bitsOf sh 9 6
  let n := 2 ^ bitsOf sh 5 3 * 2 ^ bitsOf sh 2 0
  if 8 ≤ f ∧ f ≤ 14 then 32 + 128 * (f - 6)
  else if f = 1 ∨ f = 3 then 2 * n
  else if f = 2 ∨ f = 4 ∨ f = 7 then 4 * n
  else n

/-- Row and column codes 0 to 5, and (32, 32) for the BFP formats. -/
def shapeOk (sh : Nat) : Bool :=
  let f := bitsOf sh 9 6
  bitsOf sh 5 3 ≤ 5 && bitsOf sh 2 0 ≤ 5 && (!(8 ≤ f && f ≤ 14) || (bitsOf sh 5 3 = 5 && bitsOf sh 2 0 = 5)) && shapeBytes sh ≤ 4096

/-! ### Counters and moves (13 R380) -/

def decAt (l : List Nat) (s : Nat) : List Nat := l.set s ((l[s]?).getD 0 - 1)

/-- The counters when the channel is made: INIT, and state 0 is entered. -/
def Auto.startCtrs (a : Auto) : List Nat :=
  let l := (List.range a.nstate).map (fun s => if a.hc s then a.init s else 0)
  if a.hc 0 then decAt l 0 else l

/-- The enabled edges of a state under counters. -/
def Auto.enabled (a : Auto) (s : Nat) (ctrs : List Nat) : List Nat :=
  if a.hc s then
    let want := if (ctrs[s]?).getD 0 = 0 then 2 else 1
    (a.edgesOf s).filter (fun j => (a.edge j).cond = want)
  else a.edgesOf s

/-- Taking edge `j` of state `s`: a Z edge reloads the counter, and entering NEXT decrements its counter. -/
def Auto.take (a : Auto) (s j : Nat) (ctrs : List Nat) : Nat × List Nat :=
  let e := a.edge j
  let c := if e.cond = 2 then ctrs.set s (a.init s) else ctrs
  (e.next, if a.hc e.next then decAt c e.next else c)

/-! ### Look-ahead (13 R381) -/

abbrev Config_ := Nat × List Nat

/-- Moves from a configuration: direction (true outbound) and the next configuration. -/
def Auto.moves (a : Auto) (c : Config_) : List (Bool × Config_) :=
  (a.enabled c.1 c.2).filterMap (fun j =>
    if (a.edge j).kind = Kind.fin then Option.none else some (outbound (a.edge j).kind, a.take c.1 j c.2))

/-- Explore the reachable configurations in breadth, at most `n` of them expanded: those found, and whether more remain (DESIGN CHOICE: 13
R383 gives the exploration no order, which decides between refusals 6 and 7 of an image with both faults; log 46). -/
def Auto.explore (a : Auto) : Nat → List Config_ → List Config_ → List Config_ × Bool
  | _, [], seen => (seen, false)
  | 0, _ :: _, seen => (seen, true)
  | n + 1, c :: rest, seen =>
    let new := ((a.moves c).map (·.2)).eraseDups.filter (fun d => !seen.contains d)
    Auto.explore a n (rest ++ new) (seen ++ new)

/-- The configurations found, at most 4,096 of them, and whether there are more. -/
def Auto.configs (a : Auto) : List Config_ × Bool :=
  let start : Config_ := (0, a.startCtrs)
  let r := a.explore 4096 [start] [start]
  (r.1.take 4096, r.2 || 4096 < r.1.length)

/-- The configurations from which one more move of a direction leads into `alive`. -/
def Auto.longer (a : Auto) (out : Bool) (cs alive : List Config_) : List Config_ :=
  cs.filter (fun c => (a.moves c).any (fun m => m.1 = out && alive.contains m.2))

/-- The longest run of a direction, counted from `k` while runs of that length exist; none when it passes the number of
configurations, that is, when it is unbounded. -/
def Auto.runFrom (a : Auto) (out : Bool) (cs : List Config_) : Nat → Nat → List Config_ → Option Nat
  | 0, _, _ => Option.none
  | n + 1, k, alive =>
    match a.longer out cs alive with
    | [] => some k
    | more => Auto.runFrom a out cs n (k + 1) more

def Auto.run (a : Auto) (out : Bool) (cs : List Config_) : Option Nat := a.runFrom out cs (cs.length + 1) 0 cs

/-- Largest inbound payload (13 R379, R381). -/
def Auto.largestIn (a : Auto) : Nat :=
  ((List.range a.nedge).map (fun j =>
    let e := a.edge j
    if e.kind = Kind.recv then shapeBytes e.shape else if e.kind = Kind.offer then 32 else if e.kind = Kind.drecv then 512 else 0)).foldl
    max 0

/-! ### The checks of ALOAD (13 R383) -/

def headOk (w0 w1 : Nat) : Bool := bitsOf w0 31 24 = 6 && bitsOf w0 23 21 = 0 && bitsOf w0 15 15 = 0 && w1 = 0

/-- Check 2. -/
def Auto.firstsOk (a : Auto) : Bool :=
  let r := (List.range a.nstate).foldl (fun (p : Nat × Bool) s => (p.1 + a.ne s, p.2 && a.first s = p.1)) (0, true)
  r.2 && r.1 = a.nedge

/-- The state that an edge belongs to. -/
def Auto.owner (a : Auto) (j : Nat) : Nat := ((List.range a.nstate).find? (fun s => a.first s ≤ j && j < a.first s + a.ne s)).getD 0

/-- Check 3 for states and edges. -/
def Auto.fieldsOk (a : Auto) : Bool :=
  (List.range a.nstate).all (fun s =>
    let w := a.stateWord s
    bitsOf w 30 24 = 0 && bitsOf w 15 14 = 0 && bitsOf w 7 7 = 0 && (a.hc s || a.init s = 0)) &&
  (List.range a.nedge).all (fun j =>
    let e := a.edge j
    e.kind ≤ 6 && e.cond ≤ 2 && bitsOf (a.word (2 + a.nstate + j)) 20 20 = 0 && e.next < a.nstate &&
      (e.kind ≠ Kind.fin || e.next = 0) &&
      (e.tag = 0 || e.kind = Kind.send || e.kind = Kind.recv || e.kind = Kind.dsend || e.kind = Kind.drecv) &&
      (e.label = 0 || e.kind = Kind.select || e.kind = Kind.offer) &&
      (e.shape = 0 || e.kind = Kind.send || e.kind = Kind.recv) &&
      ((e.cond ≠ 0) = a.hc (a.owner j)))

/-- Check 4. -/
def Auto.shapesOk (a : Auto) : Bool :=
  (List.range a.nedge).all (fun j =>
    let e := a.edge j
    !(e.kind = Kind.send || e.kind = Kind.recv) || shapeOk e.shape)

/-- A set of edges is one operation, or one or more SELECT, or OFFER, with distinct labels (check 5). -/
def Auto.setOk (a : Auto) (js : List Nat) : Bool :=
  let es := js.map a.edge
  let labels := es.map (·.label)
  match es with
  | [] => false
  | e :: _ =>
    if e.kind = Kind.select ∨ e.kind = Kind.offer then es.all (fun x => x.kind = e.kind) && labels.eraseDups.length = labels.length
    else es.length = 1

/-- Check 5. -/
def Auto.setsOk (a : Auto) : Bool :=
  (List.range a.nstate).all (fun s =>
    let es := a.edgesOf s
    if a.hc s then
      a.setOk (es.filter (fun j => (a.edge j).cond = 2)) && (a.init s < 2 || a.setOk (es.filter (fun j => (a.edge j).cond = 1)))
    else a.setOk es)

/-- The image checked: the automaton with its look-aheads and reservation, or the number of the first failing check of 1 to 7. -/
def checkAuto (ws : List Word) : Except Nat Auto :=
  let a : Auto := ⟨ws, 0, 0, 0⟩
  if !headOk (a.word 0) (a.word 1) then .error 1
  else if !(1 ≤ a.nedge && a.nedge ≤ 64 && a.firstsOk) then .error 2
  else if !a.fieldsOk then .error 3
  else if !a.shapesOk then .error 4
  else if !a.setsOk then .error 5
  else
    let cs := a.configs
    let out := a.run true cs.1
    let inn := a.run false cs.1
    if a.window = 0 && (out.isNone || inn.isNone) then .error 6
    else if cs.2 then .error 7
    else
      let lo := out.getD a.window
      let li := inn.getD a.window
      if 255 < lo ∨ 255 < li then .error 7
      else .ok ⟨ws, lo, li, (li * a.largestIn + 31) / 32 * 32⟩

/-! ### Duality (13 R388) -/

def dualKind (k : Nat) : Nat :=
  match k with
  | 0 => 1 | 1 => 0 | 2 => 3 | 3 => 2 | 4 => 5 | 5 => 4 | k => k

/-- State `s` of two automata: its word and its edges agree under the exchange. -/
def dualState (a b : Auto) (s : Nat) : Bool :=
  a.stateWord s = b.stateWord s &&
    (a.edgesOf s).all (fun j =>
      let x := a.word (2 + a.nstate + j)
      let y := b.word (2 + b.nstate + j)
      x % 2 ^ 28 = y % 2 ^ 28 && dualKind (x / 2 ^ 28) = y / 2 ^ 28)

/-- The first state at which two automata fail to be dual; state 0 where the headers differ. -/
def dualFault (a b : Auto) : Option Nat :=
  if a.word 0 ≠ b.word 0 ∨ a.word 1 ≠ b.word 1 then some 0 else (List.range a.nstate).find? (fun s => !dualState a b s)

/-! ### The automaton store (13 R375, R383, R384) -/

/-- Slots of the store of an agent: 64 in a cluster, 8 on a hart. -/
def slotCount (a : AgentId) : Nat := if isHart a then 8 else 64
def stubCount (a : AgentId) : Nat := if isHart a then 8 else 64

/-- Slot numbers to which the automata of swapped-out teams come back (18 R485). -/
def State.slotsAway (s : State) (a : AgentId) : List Nat :=
  s.switches.flatMap (fun w =>
    if w.2.team.isSome then (w.2.units.filter (fun p => p.1 = unitKey a)).flatMap (fun p => p.2.slots.map (·.1)) else [])

/-- The lowest free slot; one to which a swapped-out team comes back only where there is no other (DESIGN CHOICE: 13 R383 says 'a free
slot'; log 15). -/
def State.freeSlot (s : State) (a : AgentId) : Option Nat :=
  let free := (List.range (slotCount a)).filter (fun n => (lookup? (s.unitOf a).slots n).isNone)
  match free.find? (fun n => !(s.slotsAway a).contains n) with
  | some n => some n
  | none => free.head?

/-- Put an automaton into a slot. -/
def State.fillSlot (s : State) (a : AgentId) (n : Nat) (auto : Auto) (installed : Bool) : State :=
  let t := s.tenantOf a
  s.updUnit a (fun u => { u with slots := assign u.slots n ⟨u.loadSeq, t, auto, installed, (s.ctxOf a).origin.queue?⟩, loadSeq := u.loadSeq + 1 })

/-- The slot a handle names. -/
def State.handle? (s : State) (a : AgentId) (h : Word) : Option (Nat × Auto) :=
  if bitsOf h.toNat 15 6 ≠ 0 then none
  else
    match lookup? (s.unitOf a).slots (h.toNat % 64) with
    | some x => if x.seqNo.toNat = h.toNat / 65536 && !x.installed then some (h.toNat % 64, x.auto) else none
    | none => none

/-- ALOAD (13 R383). -/
def execAload (a b : XReg) (s : State) : Res :=
  let d := s.ctx.getX b
  let refuse (s : State) (n : Nat) : Res := s.done (fun c => (c.setX a (BitVec.ofNat 32 n)).setT false)
  if d.toNat % 4 ≠ 0 then s.trap Cause.align d
  else
    match tcmOrScratch s.cur d.toNat 8 with
    | none => s.trap Cause.loadWindow d
    | some flat =>
      match s.readBlock flat 2 with
      | none =>
        -- the size that a readable first word gives comes before ECC_UNCORRECTABLE of the second (06 R180)
        let w0 := (s.wordAt flat).toNat
        let sized : Bool := !s.hasBad flat 4 && headOk w0 0 && 1 ≤ headNedge w0 && headNedge w0 ≤ 64
        let out : Bool := sized && (tcmOrScratch s.cur d.toNat (4 * (2 + headNstate w0 + headNedge w0))).isNone
        (s.correct flat 8).trap (if out then Cause.loadWindow else Cause.ecc) d
      | some (s1, hd) =>
        let w0 := ((hd[0]?).getD 0).toNat
        if !headOk w0 ((hd[1]?).getD 0).toNat then refuse s1 1
        else if headNedge w0 < 1 ∨ 64 < headNedge w0 then refuse s1 2
        else
          let n := 2 + headNstate w0 + headNedge w0
          match tcmOrScratch s.cur d.toNat (4 * n) with
          | none => s1.trap Cause.loadWindow d
          | some _ =>
            match s.readBlock flat n with
            | none => s.trap Cause.ecc d
            | some (s1, ws) =>
              match checkAuto ws with
              | .error k => refuse s1 k
              | .ok auto =>
                match s1.freeSlot s.cur with
                | none => refuse s1 8
                | some slot =>
                  let h := BitVec.ofNat 32 (s1.unit.loadSeq.toNat * 65536 + slot)
                  (s1.fillSlot s.cur slot auto false).done (fun c => (c.setX a h).setT true)

/-- ALAHEAD (13 R384). -/
def execAlahead (a b : XReg) (s : State) : Res :=
  match s.handle? s.cur (s.ctx.getX b) with
  | some (_, auto) =>
    s.done (fun c => (c.setX a (BitVec.ofNat 32 (auto.outLook * 2 ^ 24 + auto.inLook * 2 ^ 16 + auto.resv / 32))).setT true)
  | none => s.done (·.setT false)

/-- A slot is used by an OPEN, WAITING or CLOSED endpoint of the store's contexts. -/
def State.slotUsed (s : State) (a : AgentId) (n : Nat) : Bool :=
  s.ctxs.any (fun p => unitKey p.1 = unitKey a && p.2.eps.toList.any (fun e =>
    e.slot = some n && (e.st = .opened || e.st = .waiting || e.st = .closed)))

/-- AFREE (13 R384). -/
def execAfree (b : XReg) (s : State) : Res :=
  match s.handle? s.cur (s.ctx.getX b) with
  | some (n, _) =>
    if s.slotUsed s.cur n then s.done (·.setT false)
    else (s.updUnit s.cur (fun u => { u with slots := erase u.slots n })).done (·.setT true)
  | none => s.done (·.setT false)

end Sys2Proof.Machine
end

