-- ==== Sys2Proof/Machine/Channels.lean ====
section
/-!
DEFINITION. Machine/Channels.lean: endpoint registers, making and closing channels, and the traffic between them (13 R373-R377,
R385-R388, R394-R402).
-/
namespace Sys2Proof.Machine

/-! ### Names (13 R374) -/

/-- The name of an endpoint register with a generation; the agents of 01 R16 have none. -/
def epNameOf (a : AgentId) (e : EReg) (gen : BitVec 8) : Option Word :=
  let low := e.toNat * 2 ^ 8 + gen.toNat
  match a with
  | .core s c k x => some (BitVec.ofNat 32 (s * 2 ^ 28 + c * 2 ^ 17 + k * 2 ^ 14 + x * 2 ^ 12 + low))
  | h => (clusterField h).map (fun f => BitVec.ofNat 32 (stackOf h * 2 ^ 28 + f * 2 ^ 17 + low))

/-- The name of an endpoint register as other agents see it; 0 where it has none. -/
def State.nameOf (s : State) (a : AgentId) (e : EReg) : Word := (epNameOf a e ((s.ctxOf a).ep e).gen).getD 0

def nameEp (w : Word) : EReg := w.extractLsb' 8 4
def nameGen (w : Word) : BitVec 8 := w.setWidth 8

def State.updEp (s : State) (a : AgentId) (e : EReg) (f : Ep → Ep) : State := s.updOf a (fun c => c.updEp e f)

/-! ### The mesh -/

/-- The port by which a tenant reaches a module: one of its own ports, by its route table (22 R530). -/
def State.routePort (s : State) (tenant : Nat) (mod : BitVec 9) : Option Nat :=
  match lookup? s.partitions tenant with
  | some p => (p.routes.find? (fun r => r.1 = mod.toNat && p.ports.contains r.2)).map (·.2)
  | none => none

/-- Send to an agent of a module, by a port where it is another module. -/
def State.send (s : State) (mod : BitVec 9) (port : Option Nat) (m : Mesh) : State :=
  { s with mesh := s.mesh ++ [if mod = s.modnum then m else .away mod port m] }

/-- Messages that their sender has held for a switched-out peer go ahead of all that it has sent since (13 R389, R402). -/
def State.sendFirst (s : State) (mod : BitVec 9) (port : Option Nat) (ms : List Mesh) : State :=
  { s with mesh := ms.map (fun m => if mod = s.modnum then m else .away mod port m) ++ s.mesh }

/-- The destination of an item of a channel, with the mark of a stub: items of one channel toward one destination arrive in order (13
R389). -/
def Mesh.lane : Mesh → Option (Word × Bool)
  | .msg _ d _ _ _ f _ => some (d, f)
  | .credit _ d _ => some (d, false)
  | .close _ d _ _ _ f => some (d, f)
  | .moved _ d _ _ f => some (d, f)
  | .release _ d f => some (d, f)
  | .outcome d _ _ _ _ _ => some (d, false)
  | .movedStub d _ _ => some (d, true)
  | .request _ => none
  | .withdraw _ _ => none
  | .contribution _ _ _ _ _ _ _ => none
  | .ring _ _ _ _ => none
  | .away _ _ _ => none

/-- A withdrawal follows its request. -/
def Mesh.pairOf : Mesh → Option (Word × Word)
  | .request r => some (r.src, r.dst)
  | .withdraw a b => some (a, b)
  | _ => none

/-- A stub of a name is saved with its cluster. -/
def State.savedStub (s : State) (dst : Word) : Bool :=
  s.switches.any (fun p => p.2.units.any (fun u => u.2.stubs.any (fun t => t.name = dst)))

/-- A team that stands in the context that a name refers to has the register of that generation. -/
def State.livesHere (s : State) (a : AgentId) (dst : Word) : Bool :=
  (s.ctxOf a).phase = .live && ((s.ctxOf a).ep (nameEp dst)).gen = nameGen dst

/-- The endpoint that a name refers to, or its stub, is saved by a switch (13 R402). -/
def State.savedEnd (s : State) (dst : Word) : Bool :=
  s.savedStub dst ||
    match agentOfName dst with
    | some a => !s.livesHere a dst &&
        s.switches.any (fun p => p.2.ctxs.any (fun x => x.ag = a && (x.ctx.ep (nameEp dst)).gen = nameGen dst))
    | none => false

/-- The context that a name refers to is saved by a switch, and no other team is resident in it. -/
def State.savedCtx (s : State) (dst : Word) : Bool :=
  match agentOfName dst with
  | some a => (s.ctxOf a).phase ≠ .live && s.switches.any (fun p => p.2.ctxs.any (fun x => x.ag = a))
  | none => false

/-- What waits in the mesh while its destination is switched out: everything but a message, which its sender holds (13 R402). -/
def State.heldFor (s : State) : Mesh → Bool
  | .request r => s.savedEnd r.dst
  | .withdraw _ d => s.savedEnd d
  | .outcome d _ _ _ _ _ => s.savedEnd d
  | .credit _ d _ => s.savedEnd d
  | .close _ d _ _ _ _ => s.savedEnd d
  | .moved _ d _ _ _ => s.savedEnd d
  | .movedStub d _ _ => s.savedStub d
  | .release _ d _ => s.savedEnd d
  | .contribution _ _ d _ _ _ _ => s.savedCtx d
  | .msg _ _ _ _ _ _ _ => false
  | .ring _ _ _ _ => false
  | .away _ _ _ => false

/-- Item `n` may arrive now: nothing that must arrive before it is still on its way, and its destination is not switched out. -/
def State.arrives (s : State) (n : Nat) : Option Mesh :=
  match s.mesh[n]? with
  | some m =>
    let earlier := s.mesh.take n
    if s.heldFor m then none
    else if (m.lane.isSome && earlier.any (fun k => k.lane = m.lane)) || (m.pairOf.isSome && earlier.any (fun k => k.pairOf = m.pairOf)) then none
    else some m
  | none => none

def State.taken (s : State) (n : Nat) : State := { s with mesh := s.mesh.eraseIdx n }

/-! ### Buffer regions (12 R340, 13 R381) -/

/-- Two stretches overlap. -/
def overlap (a b : Nat × Nat) : Bool := a.1 < b.1 + b.2 && b.1 < a.1 + a.2

/-- The lowest fitting 32-byte granules of the context's region for a reservation. -/
def Ctx.allocate (c : Ctx) (n : Nat) : Option (Nat × Nat) :=
  let used := c.eps.toList.filterMap (·.res)
  let size := c.sizek.toNat * 1024
  (((List.range (size / 32 + 1)).map (· * 32)).find? (fun o => o + n ≤ size && !used.any (overlap (o, n)))).map (fun o => (o, n))

/-! ### Register states (13 R373, R376) -/

/-- A register that returns to NONE: its generation increments, and the modes persist (13 R373, R374). -/
def Ep.clear (e : Ep) : Ep :=
  { Ep.reset with cm := e.cm, cc := e.cc, pmod := e.pmod, gen := e.gen + 1, reason := e.reason }

/-- The register stands at END. -/
def Ep.atEnd (e : Ep) : Bool :=
  e.st = .opened && (e.auto.enabled e.state e.ctrs).any (fun j => (e.auto.edge j).kind = Kind.fin)

def Ep.ctr (e : Ep) : Nat := if e.auto.hc e.state then (e.ctrs[e.state]?).getD 0 else 0

/-- The cause of CLOSE before END (13 R377, R398). -/
def Ep.closeCause (e : Ep) : Nat := if e.cc = 0 then 6 else e.cc

/-- A slot that a delegation installed is freed when its register returns to NONE (13 R395). -/
def State.dropSlot (s : State) (a : AgentId) (e : Ep) : State :=
  match e.slot with
  | some n =>
    (match lookup? (s.unitOf a).slots n with
      | some x => if x.installed then s.updUnit a (fun u => { u with slots := erase u.slots n }) else s
      | none => s)
  | none => s

/-- A delegated end that is discarded closes its channel at its carried state, and its stub is gone (13 R398). -/
def State.discardEnd (s : State) (m : Msg) (cause : Nat) : State :=
  match m.ep with
  | none => s
  | some g =>
    let ctr := if g.auto.hc g.state then (g.ctrs[g.state]?).getD 0 else 0
    let s := if g.closed.isSome then s else s.send g.peerMod g.port (.close g.stub g.peer cause (some g.state) ctr false)
    { s with units := s.units.map (fun p => (p.1, { p.2 with stubs := p.2.stubs.filter (fun t => t.name ≠ g.stub) })) }

def StubItem.msg? : StubItem → Option Msg
  | .msg _ m => some m
  | .credit _ => none
  | .close _ _ _ => none
  | .moved _ _ => none
  | .release => none

/-- Discard what has arrived at a register and is not consumed (13 R398, R400). -/
def State.discardInbox (s : State) (e : Ep) (cause : Nat) : State :=
  (e.inbox ++ e.direct.filterMap StubItem.msg?).foldl (fun s m => s.discardEnd m cause) s

/-- A held request is answered with a reason. -/
def State.refuseHeld (s : State) (e : Ep) (reason : Nat) : State :=
  match e.held with
  | some r => s.send r.srcMod (s.routePort r.tenant r.srcMod) (.outcome r.src r.dst s.modnum 0 0 (.reason reason))
  | none => s

/-- What an end still holds for a switched-out peer goes to the mesh, in order and ahead of what it has sent since, when the end is left (13
R389, R397, R402). -/
def State.undefer (s : State) (a : AgentId) (e : EReg) : State :=
  let x := (s.ctxOf a).ep e
  let own := s.nameOf a e
  if x.deferred = [] then s
  else
    (s.updEp a e (fun x => { x with deferred := [] })).sendFirst x.peerMod x.port
      (x.deferred.map (fun d => .msg own d.1 s.modnum (s.tenantOf a) d.2.1 false d.2.2))

/-- Leave a channel, a request or a wait for good: what the peer and a held requester learn, by the state of the register (13 R386,
R398, R400). `cause` is that of a closure before END. -/
def State.abandon (s : State) (a : AgentId) (e : EReg) (cause exit held : Nat) : State :=
  let x := (s.ctxOf a).ep e
  let own := s.nameOf a e
  let s := s.refuseHeld x held
  match x.st with
  | .opened =>
    let s := s.undefer a e
    let s := if x.atEnd then s else s.send x.peerMod x.port (.close own x.peer cause (some x.state) x.ctr false)
    s.discardInbox x exit
  | .waiting =>
    match x.asking with
    | some (true, dst, _) => s.send x.pmod x.port (.withdraw own dst)
    | some (false, _, _) => s
    | none => s
  | .closed => (s.undefer a e).discardInbox x exit
  | .none => s
  | .delegated => s
  | .kr => s

/-! ### EPNAME, ESTAT, EPSET, EPMOD (13 R376, R377) -/

def EpSt.code : EpSt → Nat
  | .none => 0 | .waiting => 1 | .opened => 2 | .closed => 3 | .delegated => 4 | .kr => 5

/-- The status word (13 R376). -/
def Ep.status (e : Ep) : Word :=
  let cause := if e.st = .closed then e.closedAt.1 else 0
  let ten := if e.st = .opened ∨ e.st = .closed then e.peerTen else 0
  let state := match e.st with
    | .opened => e.state
    | .closed => e.closedAt.2.1
    | _ => 0
  let ctr := match e.st with
    | .opened => e.ctr
    | .closed => e.closedAt.2.2
    | _ => 0
  BitVec.ofNat 32 (e.st.code * 2 ^ 28 + bit e.cm * 2 ^ 27 + cause * 2 ^ 24 + e.reason * 2 ^ 20 + ten * 2 ^ 14
    + bit (e.lost && e.st = .kr) * 2 ^ 13 + state * 2 ^ 8 + ctr)

/-- ESTAT (13 R376). -/
def execEstat (a : XReg) (b : EReg) (s : State) : Res :=
  let w := (s.ctx.ep b).status
  s.done (fun c => c.setX a w)

/-- EPNAME (13 R377). The agents of 01 R16 have no cluster field: there the word is free (log 8). -/
def execEpname (a : XReg) (b : EReg) (s : State) : Res :=
  match epNameOf s.cur b (s.ctx.ep b).gen with
  | some w => s.done (fun c => c.setX a w)
  | none => { s with draws := s.draws + 1 }.done (fun c => c.setX a (Config.freeWord s.draws))

/-- What EPSET makes of a register (13 R377). An outcome not yet reported stays (13 R385); a request held at a register that becomes a KR
register finds it in use (13 R386). -/
def Ep.configure (e : Ep) (w : Word) : Ep :=
  let cc := bitsOf w.toNat 6 4
  let e := { e with cm := w.getLsbD 0, cc := if cc = 0 ∨ cc = 2 ∨ cc = 6 then cc else e.cc, lost := false }
  match e.st with
  | .none => if w.getLsbD 1 then { e with st := .kr, held := none, rtab := w.extractLsb' 8 24 } else e
  | .kr => if w.getLsbD 1 then { e with rtab := w.extractLsb' 8 24 } else { e.clear with pend := e.pend }
  | .waiting => e
  | .opened => e
  | .closed => e
  | .delegated => e

/-- EPSET (13 R377). -/
def execEpset (a : EReg) (b : XReg) (s : State) : Res :=
  let w := s.ctx.getX b
  let e := s.ctx.ep a
  (if e.st = .none && w.getLsbD 1 then s.refuseHeld e 2 else s).done (fun c => c.updEp a (·.configure w))

/-- EPMOD (13 R377). -/
def execEpmod (a : EReg) (b : XReg) (s : State) : Res :=
  let w := s.ctx.getX b
  s.done (fun c => c.updEp a (fun e => if e.st = .none ∨ e.st = .closed then { e with pmod := w.setWidth 9 } else e))

/-- CLOSE (13 R400). -/
def execClose (a : EReg) (s : State) : Res :=
  let e := s.ctx.ep a
  match e.st with
  | .none => s.done (fun c => c.updEp a (fun e => { e with pend := none }))
  | _ => ((s.abandon s.cur a e.closeCause 0 2).dropSlot s.cur e).done (fun c => c.updEp a Ep.clear)

/-! ### Making a channel (13 R385, R386, R388) -/

/-- A register that becomes OPEN at state 0 with its counters loaded. -/
def Ep.openWith (e : Ep) (auto : Auto) (peer : Word) (peerMod : BitVec 9) (peerTen peerLook : Nat) (port : Option Nat)
    (res : Option (Nat × Nat)) : Ep :=
  { e with st := .opened, port := port, former := [], peer := peer, peerMod := peerMod, peerTen := peerTen, peerLook := peerLook, auto := auto, state := 0
           ctrs := auto.startCtrs, res := res, sent := 0, freed := 0, inbox := [], readPos := 0, asking := none, pend := some .success
           direct := [], moving := false }

/-- A register whose request has failed: NONE, with the outcome not yet reported. -/
def Ep.failWith (e : Ep) (o : ChanOutcome) : Ep :=
  { e.clear with pend := some o, reason := match o with
      | .reason n => n
      | .success => e.reason
      | .dual _ => e.reason }

/-- TVAL of CONNECT_DUAL. -/
def dualTval (e : EReg) (st : Nat) : Word := BitVec.ofNat 32 (st * 2 ^ 8 + e.toNat)

/-- The other end learns the outcome of its request. -/
def State.answer (s : State) (r : Request) (ten look : Nat) (o : ChanOutcome) : State :=
  s.send r.srcMod (s.routePort r.tenant r.srcMod) (.outcome r.src r.dst s.modnum ten look o)

/-- A waiting ACCEPT meets a held request (13 R386): filter, duality, reservation. -/
def State.meet (s : State) (a : AgentId) (e : EReg) : State :=
  let x := (s.ctxOf a).ep e
  match x.held, x.asking with
  | some r, some (false, filter, _) =>
    if x.st ≠ .waiting then s
    else
      let s := s.updEp a e (fun x => { x with held := none })
      let ten := s.tenantOf a
      if filter ≠ 0xFFFFFFFF ∧ filter ≠ r.src then s.answer r ten 0 (.reason 4)
      else
        match dualFault x.auto r.auto with
        | some st => (s.updEp a e (fun x => x.failWith (.dual (dualTval e st)))).answer r ten 0 (.dual (dualTval (nameEp r.src) st))
        | none =>
          match (s.ctxOf a).allocate x.auto.resv with
          | none => (s.updEp a e (fun x => x.failWith (.reason 1))).answer r ten 0 (.reason 1)
          | some res =>
            (s.updEp a e (fun x => x.openWith x.auto r.src r.srcMod r.tenant r.auto.inLook (s.routePort ten r.srcMod) (some res))).answer r ten x.auto.inLook
              .success
  | none, _ => s
  | some _, none => s
  | some _, some (true, _, _) => s

/-- A tenant may reach an agent (13 R386). -/
def State.mayReach (s : State) (tenant : Nat) (a : AgentId) : Bool :=
  match a with
  | .core st c _ _ => s.clusterTenant st c = some tenant
  | h => match lookup? s.partitions tenant with
    | some p => p.agents.contains h
    | none => false

/-- A request arrives (13 R386). -/
def State.requestArrives (s : State) (r : Request) : State :=
  match agentOfName r.dst with
  | none => s.answer r 0 0 (.reason 3)
  | some a =>
    let e := nameEp r.dst
    let c := s.ctxOf a
    let x := c.ep e
    if !s.mayReach r.tenant a then s.answer r 0 0 (.reason 4)
    else if c.phase ≠ .live ∨ x.gen ≠ nameGen r.dst then s.answer r 0 0 (.reason 5)
    else
      let accepting := match x.asking with
        | some (k, _, _) => x.st = .waiting && !k
        | none => false
      if (x.st ≠ .none && !accepting) || x.held.isSome then s.answer r 0 0 (.reason 2)
      else (s.updEp a e (fun x => { x with held := some r })).meet a e

/-- CONNECT_REQUEST (13 R386): a request, or the withdrawal of one, arrives. -/
def execConnectRequest (n : Nat) (s : State) : Res :=
  match s.arrives n with
  | some (.request r) => .next ((s.taken n).requestArrives r)
  | some (.withdraw src dst) =>
    let s := s.taken n
    match agentOfName dst with
    | some a =>
      .next (s.updEp a (nameEp dst) (fun x =>
        match x.held with
        | some r => if r.src = src then { x with held := none } else x
        | none => x))
    | none => .next s
  | _ => .next s

/-- The outcome reaches the register that asked (13 R385, R386). -/
def State.outcomeArrives (s : State) (dst peer : Word) (mod : BitVec 9) (ten look : Nat) (o : ChanOutcome) : State :=
  match agentOfName dst with
  | none => s
  | some a =>
    let e := nameEp dst
    let x := (s.ctxOf a).ep e
    let asks := match x.asking with
      | some (k, _, _) => k
      | none => false
    if x.st = .waiting && asks && x.gen = nameGen dst then
      match o with
      | .success => s.updEp a e (fun x => x.openWith x.auto peer mod ten look x.port x.res)
      | .dual t => s.updEp a e (fun x => x.failWith (.dual t))
      | .reason n => s.updEp a e (fun x => x.failWith (.reason n))
    else
      match o with
      | .success => s.send mod (s.routePort (s.tenantOf a) mod) (.close dst peer 4 (some 0) 0 false)
      | .dual _ => s
      | .reason _ => s

/-- CONNECT_OUTCOME (13 R385). -/
def execConnectOutcome (n : Nat) (s : State) : Res :=
  match s.arrives n with
  | some (.outcome dst peer mod ten look o) => .next ((s.taken n).outcomeArrives dst peer mod ten look o)
  | _ => .next s

/-- A group completes with T = 0 and a reason on a register. -/
def State.failChan (s : State) (e : EReg) (reason : Nat) : Res :=
  s.done (fun c => (c.updEp e (fun x => { x with reason := reason })).setT false)

/-- CONNECT and ACCEPT up to the request (13 R385): `start` is what they do with a NONE register and a live handle. -/
def State.ask (s : State) (a : EReg) (connect : Bool) (xb xc : Word) (start : Nat → Auto → Res) : Res :=
  let e := s.ctx.ep a
  if (clusterField s.cur).isNone then s.failChan a 3
  else if e.st = .waiting && e.asking = some (connect, xb, xc) then s.waits .endpoint
  else
    match e.pend with
    | some .success => s.done (fun c => (c.updEp a (fun x => { x with pend := none })).setT true)
    | some (.dual t) => (s.updEp s.cur a (fun x => { x with pend := none })).trap Cause.connectDual t
    | some (.reason n) => s.done (fun c => (c.updEp a (fun x => { x with pend := none, reason := n })).setT false)
    | none =>
      if e.st ≠ .none then s.failChan a 2
      else
        match s.handle? s.cur xc with
        | none => s.failChan a 8
        | some (slot, auto) => start slot auto

/-- The route table of the agent's tenant reaches a module through a port that is not down (22 R529, R530). -/
def State.reaches (s : State) (a : AgentId) (mod : BitVec 9) : Bool :=
  mod = s.modnum ||
    (match s.routePort (s.tenantOf a) mod with
      | some p => (lookupD .reset s.ports p).state ≠ .down
      | none => false)

/-- CONNECT (13 R385). -/
def execConnect (a : EReg) (b c : XReg) (s : State) : Res :=
  let dst := s.ctx.getX b
  let xc := s.ctx.getX c
  s.ask a true dst xc (fun slot auto =>
    match s.ctx.allocate auto.resv with
    | none => s.failChan a 1
    | some res =>
      if !s.reaches s.cur (s.ctx.ep a).pmod then s.failChan a 3 else
      let e := s.ctx.ep a
      -- a request held at the register finds it in use
      let s := (s.refuseHeld e 2).updEp s.cur a (fun x => { x with
        st := .waiting, held := none, asking := some (true, dst, xc), slot := some slot, auto := auto, res := some res
        port := s.routePort (s.tenantOf s.cur) e.pmod })
      let s := s.send e.pmod (s.routePort (s.tenantOf s.cur) e.pmod) (.request ⟨s.nameOf s.cur a, s.modnum, dst, s.tenantOf s.cur, auto⟩)
      s.waits .endpoint)

/-- ACCEPT (13 R385). -/
def execAccept (a : EReg) (b c : XReg) (s : State) : Res :=
  let filter := s.ctx.getX b
  let xc := s.ctx.getX c
  s.ask a false filter xc (fun slot auto =>
    let s := s.updEp s.cur a (fun x => { x with st := .waiting, asking := some (false, filter, xc), slot := some slot, auto := auto })
    (s.meet s.cur a).waits .endpoint)

/-! ### Forwarding stubs (13 R394-R396) -/

/-- The stub of a name, with the unit that holds it. -/
def State.stubOf (s : State) (name : Word) : Option (AgentId × Stub) :=
  match agentOfName name with
  | some a => ((s.unitOf a).stubs.find? (fun t => t.name = name)).map (fun t => (a, t))
  | none => none

/-- Replace the stub of its name, or remove it. -/
def State.putStub (s : State) (a : AgentId) (name : Word) (t : Option Stub) : State :=
  s.updUnit a (fun u => { u with stubs :=
    match t with
    | some t => u.stubs.map (fun x => if x.name = name then t else x)
    | none => u.stubs.filter (fun x => x.name ≠ name) })

/-- What a stub sends on for an item. -/
def Stub.forward (t : Stub) (dst : Word) : StubItem → Mesh
  | .msg freed m => .msg t.peer dst t.peerMod t.tenant freed true m
  | .credit n => .credit t.peer dst n
  | .close cause st ctr => .close t.peer dst cause st ctr true
  | .moved name mod => .moved t.peer dst name mod true
  | .release => .release t.peer dst true

/-- The stub's work ends with a RELEASE or a closure. -/
def StubItem.last : StubItem → Bool
  | .msg _ _ => false
  | .credit _ => false
  | .close _ _ _ => true
  | .moved _ _ => false
  | .release => true

/-- A stub that knows its target sends on what it holds, and frees its entry after the last item. -/
def State.runStub (s : State) (a : AgentId) (t : Stub) : State :=
  match t.target with
  | none => s.putStub a t.name (some t)
  | some (dst, mod, port) =>
    let s := t.items.foldl (fun s i => s.send mod port (t.forward dst i)) s
    if t.items.any StubItem.last then s.putStub a t.name none else s.putStub a t.name (some { t with items := [] })

/-- An item reaches a stub: from the peer directly, or from an earlier stub (`fwd`), whose RELEASE lets the direct items follow. -/
def State.stubTakes (s : State) (a : AgentId) (t : Stub) (fwd : Bool) (i : StubItem) : State :=
  if t.earlier && !fwd then s.putStub a t.name (some { t with direct := t.direct ++ [i] })
  else if t.earlier && fwd && i = .release then s.runStub a { t with earlier := false, items := t.items ++ t.direct, direct := [] }
  else s.runStub a { t with items := t.items ++ [i] }

/-! ### Arrivals (13 R387, R389, R396, R397, R399, R402) -/

/-- A message counts the slots its sender has freed (13 R387). -/
def Ep.credited (e : Ep) (n : Nat) : Ep := { e with sent := e.sent - n }

/-- An item takes effect at the register that holds the end. -/
def Ep.take (e : Ep) (i : StubItem) : Ep :=
  match i with
  | .msg freed m => { e.credited freed with inbox := e.inbox ++ [m] }
  | .credit n => e.credited n
  | .close cause st ctr =>
    if e.st = .opened then { e with st := .closed, closedAt := (cause, st.getD e.state, if st.isSome then ctr else e.ctr) } else e
  | .moved name mod => { e with peer := name, peerMod := mod, former := e.peer :: e.former }
  | .release => e

/-- A MOVED notice with this new name. -/
def Mesh.tells (name : Word) : Mesh → Bool
  | .moved _ _ n _ _ => n = name
  | _ => false
def StubItem.tells (name : Word) : StubItem → Bool
  | .moved n _ => n = name
  | .msg _ _ => false
  | .credit _ => false
  | .close _ _ _ => false
  | .release => false

/-- A MOVED notice with this new name is on its way: in the mesh, held by a stub, or held back by the register (13 R396). -/
def State.telling (s : State) (e : Ep) (name : Word) : Bool :=
  s.mesh.any (Mesh.tells name) || e.direct.any (StubItem.tells name) ||
    s.units.any (fun u => u.2.stubs.any (fun t => t.items.any (StubItem.tells name) || t.direct.any (StubItem.tells name)))

/-- A sender is the peer of this end: by its name, by one it had before it moved, or, while this end moves, by one that a notice still on
its way will tell (13 R396). -/
def State.from_ (s : State) (e : Ep) (src : Word) : Bool :=
  e.peer = src || e.former.contains src || (e.moving && s.telling e src)

/-- The register that holds the named end of a channel whose peer is the sender: it is OPEN there, and its context is live. -/
def State.holder? (s : State) (src dst : Word) : Option (AgentId × EReg) :=
  match agentOfName dst with
  | some a =>
    let c := s.ctxOf a
    let x := c.ep (nameEp dst)
    if c.phase = .live ∧ x.gen = nameGen dst ∧ x.st = .opened ∧ s.from_ x src then some (a, nameEp dst) else none
  | none => none

/-- The endpoint that a name refers to, or its stub, is saved by a switch (13 R402). -/
def State.switchedOut (s : State) (src dst : Word) : Bool :=
  s.savedStub dst ||
    match agentOfName dst with
    | some a =>
      s.switches.any (fun p => p.2.ctxs.any (fun x =>
        x.ag = a && (x.ctx.ep (nameEp dst)).gen = nameGen dst && s.from_ (x.ctx.ep (nameEp dst)) src))
    | none => false

/-- The sender holds a message for a switched-out peer (13 R402). -/
def State.defer (s : State) (src dst : Word) (freed : Nat) (m : Msg) : State :=
  match agentOfName src with
  | some a => s.updEp a (nameEp src) (fun e => { e with deferred := e.deferred ++ [(dst, freed, m)] })
  | none => s

/-- The register that sent a message still holds the end it sent from (13 R402). -/
def State.senderHolds (s : State) (src : Word) : Bool :=
  match agentOfName src with
  | some a =>
    let x := (s.ctxOf a).ep (nameEp src)
    x.gen = nameGen src && (x.st = .opened || x.st = .closed)
  | none => false

/-- The end that sent a message, in its context or saved with it, holds an earlier message for the same destination. -/
def State.senderDefers (s : State) (src dst : Word) : Bool :=
  let holds (a : AgentId) (b : AgentId) (c : Ctx) : Bool :=
    a = b && (c.ep (nameEp src)).gen = nameGen src && (c.ep (nameEp src)).deferred.any (fun d => d.1 = dst)
  match agentOfName src with
  | some a => s.ctxs.any (fun p => holds a p.1 p.2) || s.switches.any (fun w => w.2.ctxs.any (fun x => holds a x.ag x.ctx))
  | none => false

/-- A message for a switched-out peer stays in the mesh where no sender can hold it: a stub sent it on, or the sender's end is gone
(13 R397, R402). So does one behind messages that its sender holds for a peer that is resident again (13 R389). -/
def State.messageStays (s : State) (src dst : Word) (fwd : Bool) : Bool :=
  (s.stubOf dst).isNone &&
    (if s.switchedOut src dst then fwd || !s.senderHolds src else !fwd && s.senderDefers src dst)

/-- A message arrives (13 R389, R396, R399). The source of one that is dropped is closed at its own state (13 R398). -/
def State.messageArrives (s : State) (src dst : Word) (srcMod : BitVec 9) (tenant freed : Nat) (fwd : Bool) (m : Msg) : State :=
  match s.stubOf dst with
  | some (a, t) => s.stubTakes a t fwd (.msg freed m)
  | none =>
    if s.switchedOut src dst then s.defer src dst freed m
    else
      match s.holder? src dst with
      | some (a, e) =>
        s.updEp a e (fun x => if x.moving && !fwd then { x with direct := x.direct ++ [.msg freed m] } else x.take (.msg freed m))
      | none => (s.send srcMod (s.routePort tenant srcMod) (.close dst src 4 none 0 false)).discardEnd m 0

/-- MESSAGE_ARRIVAL (13 R389). -/
def execMessageArrival (n : Nat) (s : State) : Res :=
  match s.arrives n with
  | some (.msg src dst mod tenant freed fwd m) =>
    if s.messageStays src dst fwd then .next s else .next ((s.taken n).messageArrives src dst mod tenant freed fwd m)
  | _ => .next s

/-- CREDIT_FLIT (13 R387): freed slots that no message has carried go back. -/
def execCreditFlit (ag : AgentId) (e : EReg) (s : State) : Res :=
  let x := (s.ctxOf ag).ep e
  if x.st = .opened ∧ x.freed ≠ 0 then
    .next ((s.updEp ag e (fun x => { x with freed := 0 })).send x.peerMod x.port (.credit (s.nameOf ag e) x.peer x.freed))
  else .next s

/-- CREDIT_ARRIVAL (13 R387, R399). -/
def execCreditArrival (n : Nat) (s : State) : Res :=
  match s.arrives n with
  | some (.credit src dst k) =>
    let s := s.taken n
    match s.stubOf dst with
    | some (a, t) => .next (s.stubTakes a t false (.credit k))
    | none =>
      match s.holder? src dst with
      | some (a, e) => .next (s.updEp a e (fun x => x.take (.credit k)))
      | none => .next s
  | _ => .next s

/-- CLOSE_NOTICE (13 R397): the first closure stands. -/
def execCloseNotice (n : Nat) (s : State) : Res :=
  match s.arrives n with
  | some (.close src dst cause st ctr fwd) =>
    let s := s.taken n
    match s.stubOf dst with
    | some (a, t) => .next (s.stubTakes a t fwd (.close cause st ctr))
    | none =>
      match s.holder? src dst with
      | some (a, e) =>
        .next (s.updEp a e (fun x =>
          if x.moving && !fwd then { x with direct := x.direct ++ [.close cause st ctr] } else x.take (.close cause st ctr)))
      | none => .next s
  | _ => .next s

/-- An end learns that its peer has moved: later messages go to the new holder, and RELEASE goes behind those to the old location (13
R396). -/
def State.peerMoved (s : State) (a : AgentId) (e : EReg) (name : Word) (mod : BitVec 9) : State :=
  let x := (s.ctxOf a).ep e
  let port := if mod = x.peerMod then x.port else s.routePort (s.tenantOf a) mod
  ((s.undefer a e).updEp a e (fun x => { x.take (.moved name mod) with port := port })).send x.peerMod x.port
    (.release (s.nameOf a e) x.peer false)

/-- MOVED (13 R396). One that comes directly to an end that is moving waits for the forwarded RELEASE, as messages do. -/
def execMoved (n : Nat) (s : State) : Res :=
  match s.arrives n with
  | some (.moved _ dst name mod fwd) =>
    let s := s.taken n
    match s.stubOf dst with
    | some (a, t) => .next (s.stubTakes a t fwd (.moved name mod))
    | none =>
      match agentOfName dst with
      | some a =>
        let e := nameEp dst
        let x := (s.ctxOf a).ep e
        if x.st ≠ .opened ∨ x.gen ≠ nameGen dst then .next s
        else if x.moving && !fwd then .next (s.updEp a e (fun x => { x with direct := x.direct ++ [.moved name mod] }))
        else .next (s.peerMoved a e name mod)
      | none => .next s
  | _ => .next s

/-- MOVED_AT_STUB (13 R395). -/
def execMovedAtStub (n : Nat) (s : State) : Res :=
  match s.arrives n with
  | some (.movedStub dst name mod) =>
    let s := s.taken n
    match s.stubOf dst with
    | some (a, t) => .next (s.runStub a { t with target := some (name, mod, s.routePort t.tenant mod) })
    | none => .next s
  | _ => .next s

/-- An item that was held back takes effect at its register. -/
def State.takeHeld (a : AgentId) (e : EReg) (s : State) (i : StubItem) : State :=
  match i with
  | .moved name mod => s.peerMoved a e name mod
  | .msg _ _ => s.updEp a e (·.take i)
  | .credit _ => s.updEp a e (·.take i)
  | .close _ _ _ => s.updEp a e (·.take i)
  | .release => s

/-- The forwarded RELEASE has come: the new holder takes what it held back, in order (13 R396). -/
def State.settle (s : State) (a : AgentId) (e : EReg) : State :=
  let held := ((s.ctxOf a).ep e).direct
  held.foldl (State.takeHeld a e) (s.updEp a e (fun x => { x with moving := false, direct := [] }))

/-- RELEASE_NOTICE (13 R396). -/
def execReleaseNotice (n : Nat) (s : State) : Res :=
  match s.arrives n with
  | some (.release _ dst fwd) =>
    let s := s.taken n
    match s.stubOf dst with
    | some (a, t) => .next (s.stubTakes a t fwd .release)
    | none =>
      match agentOfName dst with
      | some a =>
        let x := (s.ctxOf a).ep (nameEp dst)
        .next (if x.gen = nameGen dst && x.moving && fwd then s.settle a (nameEp dst) else s)
      | none => .next s
  | _ => .next s

/-- Messages that a register held for a team of a context that is resident again are sent in order, ahead of what it has sent since (13
R389, R402). -/
def State.resend (s : State) (a : AgentId) (e : EReg) (target : AgentId) : State :=
  let x := (s.ctxOf a).ep e
  let own := s.nameOf a e
  let back (d : Word × Nat × Msg) : Bool := agentOfName d.1 = some target && !s.switchedOut own d.1
  let mine := x.deferred.filter back
  if mine = [] then s
  else
    (s.updEp a e (fun x => { x with deferred := x.deferred.filter (fun d => !back d) })).sendFirst x.peerMod x.port
      (mine.map (fun d => .msg own d.1 s.modnum (s.tenantOf a) d.2.1 false d.2.2))

/-- TEAM_RESIDENT (13 R402). -/
def execTeamResident (ag : AgentId) (s : State) : Res :=
  if (s.ctxOf ag).phase = .live then
    .next ((s.ctxs.map (·.1)).foldl (fun s a =>
      (List.range 16).foldl (fun s e => s.resend a (BitVec.ofNat 4 e) ag) s) s)
  else .next s

end Sys2Proof.Machine
end

