-- ==== Sys2Proof/Machine/Fetch.lean ====
section
/-!
DEFINITION. Machine/Fetch.lean: fetching the words of a group through the instruction cache and the fetch buffer, or from the
private TCM of a hart (04 R87, R112-R117), and translation of instruction addresses (12 R354-R356).
-/
namespace Sys2Proof.Machine

/-! ### Translation (12 R354-R356) -/

/-- Why a walk fails (12 R358): 1 not mapped or malformed, 2 permission, 4 uncorrectable error in a table. -/
inductive Walk where
  | ok (row : Nat)
  | fail (reason : Nat)
  deriving DecidableEq, Repr

/-- Bit positions of a leaf's permissions. -/
inductive Intent where
  | read | write | fetch
  deriving DecidableEq, Repr

def Intent.leafBit : Intent → Nat
  | .read => 2 | .write => 3 | .fetch => 4
def Intent.cacheBit : Intent → Nat
  | .read => 0 | .write => 1 | .fetch => 2

/-- The number of a physical DRAM address of 40 bits: row PA[39:31], channel PA[30:21] (12 R354). -/
def paAt (pa : Nat) : Nat := dramAt (bitsOf pa 30 21) (bitsOf pa 39 31 * 2 ^ 21 + pa % 2 ^ 21)

/-- A page-table entry: none where its word holds an uncorrectable error. -/
def State.pte (s : State) (pa : Nat) : Option Nat :=
  if s.hasBad (paAt pa) 8 then none else some (natOfBytes (s.bytesAt (paAt pa) 8))

/-- Reserved bits of a non-leaf entry are zero (12 R355). -/
def nonLeafOk (e : Nat) : Bool := e / 2 ^ 40 = 0 && bitsOf e 11 2 = 0
/-- Reserved bits of a leaf entry are zero. -/
def leafOk (e : Nat) : Bool := e / 2 ^ 17 = 0 && bitsOf e 7 5 = 0

/-- Walk a tenant's three-level table from its root (12 R355). Answers row and permission bits R, W, X. -/
def State.walk (s : State) (root va : Nat) : Except Nat (Nat × Nat) :=
  let leaf (e : Nat) : Except Nat (Nat × Nat) :=
    if leafOk e then .ok (bitsOf e 16 8, bitsOf e 4 2) else .error 1
  match s.pte (root + 8 * bitsOf va 47 39) with
  | none => .error 4
  | some e1 =>
    if e1 % 2 = 0 ∨ e1 / 2 % 2 = 1 ∨ !nonLeafOk e1 then .error 1
    else
      match s.pte (e1 / 4096 * 4096 + 8 * bitsOf va 38 30) with
      | none => .error 4
      | some e2 =>
        if e2 % 2 = 0 then .error 1
        else if e2 / 2 % 2 = 1 then leaf e2
        else if !nonLeafOk e2 then .error 1
        else
          match s.pte (e2 / 4096 * 4096 + 8 * bitsOf va 29 21) with
          | none => .error 4
          | some e3 => if e3 % 2 = 0 ∨ e3 / 2 % 2 = 0 then .error 1 else leaf e3

/-- The numbers of the entries that a walk reads (12 R355). -/
def State.walkReads (s : State) (root va : Nat) : List Nat :=
  let down (e : Option Nat) : Bool := e.any (fun e => e % 2 = 1 && e / 2 % 2 = 0 && nonLeafOk e)
  let p1 := root + 8 * bitsOf va 47 39
  let e1 := s.pte p1
  let p2 := e1.getD 0 / 4096 * 4096 + 8 * bitsOf va 38 30
  let e2 := s.pte p2
  let p3 := e2.getD 0 / 4096 * 4096 + 8 * bitsOf va 29 21
  paAt p1 :: (if down e1 then paAt p2 :: (if down e2 then [paAt p3] else []) else [])

/-- A walk corrects the single-bit errors of the entries that it reads (12 R371). -/
def State.noteWalk (s : State) (root va : Nat) : State :=
  if s.eccOne = [] then s else (s.walkReads root va).foldl (fun s n => s.correct n 8) s

/-- The memory core of a VA's home channel (12 R354). -/
def homeMemoryCore (va : Nat) : AgentId := .memoryCore (bitsOf va 30 27) (bitsOf va 26 21)

/-- The translation a memory core holds for a tenant's page, if any (12 R356). -/
def HartRegs.cached (h : HartRegs) (tenant va : Nat) : Option (Nat × Nat) :=
  (h.tcache.find? (fun e => e.1 = tenant && e.2.1 = va / 2 ^ 21)).map (fun e => e.2.2)

/-- Translate a VA for a tenant at a memory core: from its translation cache of 4,096 entries, or by a walk, which fills it
(12 R356). Where a translation is held, the draw says whether it or one by a walk is used: until an invalidation completes either may
be. -/
def State.translate (s : State) (core : AgentId) (tenant va : Nat) (i : Intent) : State × Walk :=
  let check (s : State) (row perms : Nat) : State × Walk :=
    if perms / 2 ^ i.cacheBit % 2 = 1 then (s, .ok row) else (s, .fail 2)
  match (s.hartOf core).cached tenant va, lookup? s.partitions tenant with
  | some (row, perms), none => check s row perms
  | none, none => (s, .fail 1)
  | some (row, perms), some p =>
    if Config.choice s.draws % 2 = 0 then check s row perms
    else
      match s.walk p.root va with
      | .error r => (s.noteWalk p.root va, .fail r)
      | .ok (row, perms) => check (s.noteWalk p.root va) row perms
  | none, some p =>
      match s.walk p.root va with
      | .error r => (s.noteWalk p.root va, .fail r)
      | .ok (row, perms) =>
        check ((s.noteWalk p.root va).updHart core (fun h => { h with tcache := ((tenant, va / 2 ^ 21, row, perms) :: h.tcache).take 4096 })) row perms

/-- The number of the byte a VA translates to. -/
def vaAt (va row : Nat) : Nat := dramAt (bitsOf va 30 21) (row * 2 ^ 21 + va % 2 ^ 21)

/-! ### The instruction cache -/

/-- Set of a line: address bits [12:6] (04 R112); lines are named by address bits [47:6]. -/
def lineSet (line : Nat) : Nat := line % 128

/-- The line of an address, if the cache of its cluster holds it for the tenant. -/
def Cluster.line? (u : Cluster) (tenant line : Nat) : Option Line :=
  u.lines.find? (fun l => l.tenant = tenant && l.addr = line)

/-- Use of a line: it becomes the most recent of its set. -/
def Cluster.touch (u : Cluster) (l : Line) : Cluster :=
  { u with lines := l :: u.lines.filter (fun m => !(m.tenant = l.tenant && m.addr = l.addr)) }

/-- A line arrives: it takes the least recently used way of its set when the four ways are full (04 R112). -/
def Cluster.install (u : Cluster) (l : Line) : Cluster :=
  let others := u.lines.filter (fun m => !(m.tenant = l.tenant && m.addr = l.addr))
  let same := others.filter (fun m => lineSet m.addr = lineSet l.addr)
  let lines :=
    if same.length < 4 then others
    else
      match same.getLast? with
      | some old => others.filter (fun m => !(m.tenant = old.tenant && m.addr = old.addr))
      | none => others
  { u with lines := l :: lines }

/-- Start a fill unless the line is being filled or 8 fills are outstanding (04 R113). -/
def Cluster.startFill (u : Cluster) (tenant line : Nat) : Cluster :=
  if u.fills.any (fun f => f.tenant = tenant && f.addr = line) ∨ u.fills.length ≥ 8 then u
  else { u with fills := u.fills ++ [⟨tenant, line, false⟩] }

/-- The aligned 16-byte block of an address. -/
def blockOf (pc : BitVec 48) : BitVec 48 := BitVec.ofNat 48 (pc.toNat / 16 * 16)
/-- The block after it, within the text segment (04 R87). -/
def nextBlock (b : BitVec 48) : BitVec 48 := b.extractLsb' 32 16 ++ (b.setWidth 32 + 16 : BitVec 32)

/-- What fetching a group answers: its words; or the state of a context that must wait, or has spent its turn on a slip; or a fetch
fault with cause and TVAL. -/
inductive Fetched where
  | words (s : State) (ws : List HWord)
  | later (s : State)
  | fault (s : State) (code : BitVec 8)

/-- A line absent from the cache: counted once per group, requested, and waited for (04 R113, R117), at once unless the context waits in a
group that has issued. -/
def State.missLine (s : State) (a : AgentId) (line : Nat) : State :=
  let c := s.ctxOf a
  let s := s.updUnit a (fun u => u.startFill c.tenant line)
  s.updOf a (fun c => { c with
    icmiss := if c.missed then c.icmiss else c.icmiss + 1, missed := true, needLine := line
    wait := if c.inIssue = [] then .fill else c.wait })

/-- Errors found in the cache count as corrected errors of its kind (04 R114, 12 R371). -/
def State.countCache (s : State) (tenant n : Nat) : State :=
  { s with cec := addCount s.cec 4 n, cecTen := assign s.cecTen tenant (addCount (lookupD (Vector.replicate 8 0) s.cecTen tenant) 4 n) }

/-- The words of a block from the cache; a line found with an uncorrectable error is invalidated, counted as a corrected error and
filled again (04 R114); single-bit errors of the block are corrected. -/
def State.cacheBlock (s : State) (a : AgentId) (b : BitVec 48) : State × Option (List HWord) :=
  let line := b.toNat / 64
  let inBlock (n : Nat) : Bool := n / 4 = b.toNat % 64 / 16
  match (s.unitOf a).line? (s.ctxOf a).tenant line with
  | none => (s.missLine a line, none)
  | some l =>
    if l.bad.any inBlock then
      let s := s.updUnit a (fun u => { u with lines := u.lines.filter (· ≠ l) })
      ((s.countCache (s.ctxOf a).tenant 1).missLine a line, none)
    else
      let words := some ((l.words.drop (b.toNat % 64 / 2)).take 8)
      if l.one.any inBlock then
        let s := s.updUnit a (·.touch { l with one := l.one.filter (fun n => !inBlock n) })
        (s.countCache (s.ctxOf a).tenant (l.one.filter inBlock).length, words)
      else (s.updUnit a (·.touch l), words)

/-- A soft error in the instruction cache (12 R371). Byte `o` is byte `o % 64` of the line that stands at place `o % 0x8000 / 64` of
cluster `o / 0x8000`, in order of use. -/
def State.cacheError (s : State) (o : Nat) (double : Bool) : State :=
  let a : AgentId := .core (o / 0x8000 / 1280) (o / 0x8000 % 1280) 0 0
  let w := o % 64 / 4
  match (s.unitOf a).lines[o % 0x8000 / 64]? with
  | none => s
  | some l =>
    if l.bad.contains w then s
    else
      let hit (m : Line) : Line :=
        if double || m.one.contains w then { m with bad := w :: m.bad, one := m.one.filter (· ≠ w) } else { m with one := w :: m.one }
      s.updUnit a (fun u => { u with lines := u.lines.map (fun m => if m = l then hit m else m) })

/-- A schedule slip takes the context's turn (04 R116, R117; 06 R140). -/
def State.slip (s : State) (a : AgentId) : State :=
  (s.updOf a (fun c => { c with slips := c.slips + 1 })).updCore a (fun k => { k with last := ctxIndex a })

/-- Fetch for a core context: the buffer holds the block of the next group's first word; a group that extends into the following
block costs one schedule slip, or waits for that block's line (04 R116). -/
def State.fetchCore (s : State) (a : AgentId) : Fetched :=
  let c := s.ctxOf a
  let b := blockOf c.pc
  let skip := c.pc.toNat % 16 / 2
  let s := s.updOf a (fun c => { c with fetchBuf := c.fetchBuf.filter (fun p => p.1 = b ∨ p.1 = nextBlock b) })
  let second (s : State) (ws : List HWord) : Fetched :=
    match groupLength (ws.drop skip) with
    | some _ => .words s (ws.drop skip)
    | none =>
      let nb := nextBlock b
      -- a LOOP body does not wrap round the text segment (06 R171)
      if c.lact && c.lrem != 0 && nb.setWidth 32 == (0 : Word) then .fault s Cause.loadWindow
      else
      match lookup? (s.ctxOf a).fetchBuf nb with
      | some ws2 => .words s (ws.drop skip ++ ws2)
      | none =>
        let waited := c.missed && c.needLine = nb.toNat / 64 && c.needLine ≠ b.toNat / 64
        match s.cacheBlock a nb with
        | (s, none) => .later s
        | (s, some ws2) =>
          let s := s.updOf a (fun c => { c with fetchBuf := [(b, ws), (nb, ws2)], wait := .none })
          if waited then .words s (ws.drop skip ++ ws2)
          else .later (s.slip a)
  match lookup? c.fetchBuf b with
  | some ws => second s ws
  | none =>
    match s.cacheBlock a b with
    | (s, none) => .later s
    | (s, some ws) => second (s.updOf a (fun c => { c with fetchBuf := [(b, ws)], wait := .none })) ws

/-- Fetch for a hart, word by word from its private TCM (04 R87, 12 R372). -/
def State.fetchHart (s : State) (a : AgentId) : Fetched :=
  let pc := (s.ctxOf a).pc.toNat
  let rec go (s : State) (n : Nat) (at_ : Nat) (ws : List HWord) : Fetched :=
    match n with
    | 0 => .words s ws
    | n + 1 =>
      if at_ + 2 > tcmSize a then .fault s Cause.loadWindow
      else if s.hasBad (ownTcmAt a at_) 2 then .fault s Cause.ecc
      else
        let s := s.correct (ownTcmAt a at_) 2
        let ws := ws ++ [BitVec.ofNat 16 (natOfBytes (s.bytesAt (ownTcmAt a at_) 2))]
        match groupLength ws with
        | none => go s n (at_ + 2) ws
        | some _ => .words s ws
  go s 5 pc []

/-- The words at an address of a body that the holder of the loop buffer replays (06 R172). -/
def State.replayed (s : State) (a : AgentId) (pc : Word) : Option (List HWord) :=
  let c := s.ctxOf a
  match (s.coreOf a).loopBuf with
  | some b => if b.holder = ctxIndex a && c.lact && c.lrem == 0 then lookup? b.groups pc else none
  | none => none

/-- The core loads the block that holds the first word of the context's next group, unless that group is replayed, its buffer holds the
block, or there is no next group (04 R116). -/
def State.loadNext (s : State) (a : AgentId) : State :=
  let c := s.ctxOf a
  let pc := c.nextPc
  let s := s.updOf a (fun c => { c with fetchBuf := c.fetchBuf.filter (fun p => p.1 = blockOf pc) })
  if isHart a ∨ c.phase ≠ .live ∨ c.retiring.isSome ∨ c.wait = .retire ∨ (s.replayed a (pc.setWidth 32)).isSome ∨
      (lookup? c.fetchBuf (blockOf pc)).isSome then s
  else
    match s.cacheBlock a (blockOf pc) with
    | (s, none) => s
    | (s, some ws) => s.updOf a (fun c => { c with fetchBuf := [(blockOf pc, ws)] })

/-- The words of the next group of a context: those of a group that has issued and waits, those of a replayed body, or else fetched. -/
def State.fetch (s : State) (a : AgentId) : Fetched :=
  let c := s.ctxOf a
  match (if c.inIssue = [] then s.replayed a c.pcLow else some c.inIssue) with
  | some ws => .words s ws
  | none =>
    -- a LOOP body does not wrap round the text segment (06 R171)
    if c.lact && c.lrem != 0 && c.pcLow == 0 then .fault s Cause.loadWindow
    else if isHart a then s.fetchHart a else s.fetchCore a

/-- A word of text at an address, for a group that is stepped over. -/
inductive Peek where
  | word (s : State) (w : HWord)
  | later (s : State)
  | fault (code : BitVec 8)

def State.peekWord (s : State) (a : AgentId) (pc : BitVec 48) : Peek :=
  if isHart a then
    if pc.toNat + 2 > tcmSize a then .fault Cause.loadWindow
    else if s.hasBad (ownTcmAt a pc.toNat) 2 then .fault Cause.ecc
    else .word (s.correct (ownTcmAt a pc.toNat) 2) (BitVec.ofNat 16 (natOfBytes (s.bytesAt (ownTcmAt a pc.toNat) 2)))
  else
    match s.cacheBlock a (blockOf pc) with
    | (s, none) => .later s
    | (s, some ws) => .word s ((ws[pc.toNat % 16 / 2]?).getD 0)

/-- Where stepping over groups ends. -/
inductive Skip where
  | at_ (s : State) (pc : Word)
  | later (s : State)
  | fault (code : BitVec 8)

/-- Step over one group at an address: its length alone is found (06 R170). -/
def State.skipOne (s : State) (a : AgentId) (seg : BitVec 16) (pc : Word) : Nat → List HWord → Skip
  | 0, ws => .at_ s (pc + BitVec.ofNat 32 (2 * ws.length))
  | n + 1, ws =>
    let here := pc + BitVec.ofNat 32 (2 * ws.length)
    if here < pc then .fault Cause.loadWindow
    else
      match s.peekWord a (seg ++ here) with
      | .later s => .later s
      | .fault code => .fault code
      | .word s w =>
        match groupLength (ws ++ [w]) with
        | none => State.skipOne s a seg pc n (ws ++ [w])
        | some k => .at_ s (pc + BitVec.ofNat 32 (2 * k))

/-- Step over `k` groups within the text segment (06 R170, R171). -/
def State.skipGroups (s : State) (a : AgentId) (seg : BitVec 16) : Nat → Word → Skip
  | 0, pc => .at_ s pc
  | k + 1, pc =>
    match s.skipOne a seg pc 5 [] with
    | .at_ s pc' => if pc' < pc ∧ k ≠ 0 then .fault Cause.loadWindow else State.skipGroups s a seg k pc'
    | .later s => .later s
    | .fault code => .fault code

/-- A context waits for a line. -/
def State.waitsForLine (s : State) (a : AgentId) (line : Nat) : Bool :=
  let c := s.ctxOf a
  c.phase = .live && c.wait = .fill && c.needLine = line

/-- A context needs a line, which it waits for, or which it will need when the group that has issued completes. -/
def State.needsLine (s : State) (a : AgentId) (line : Nat) : Bool :=
  let c := s.ctxOf a
  s.waitsForLine a line || (c.phase = .live && c.inIssue ≠ [] && c.missed && c.needLine = line)

/-- Every context that waits on a line is to take a fetch fault at its own group, once no trap of 18 R474 items 1 to 3 is due (04 R114). -/
def State.fetchFaults (s : State) (st c tenant line : Nat) (code : BitVec 8) : State :=
  (s.ctxs.map (·.1)).foldl (fun s a =>
    if clusterOf a = some (st, c) && !isHart a && (s.ctxOf a).tenant = tenant && s.waitsForLine a line then
      s.updOf a (fun c => { c with wait := .badFill code })
    else s) s

/-- A line arrives at its cluster, or its fill fails (04 R113, R114). -/
def State.fillArrival (s : State) (st c tenant line : Nat) : State :=
  let a : AgentId := .core st c 0 0
  match (s.unitOf a).fills.find? (fun f => f.tenant = tenant && f.addr = line) with
  | none => s
  | some f =>
    let s := s.updUnit a (fun u => { u with fills := u.fills.filter (· ≠ f) })
    match s.translate (homeMemoryCore (line * 64)) tenant (line * 64) .fetch with
    | (s, .fail r) => s.fetchFaults st c tenant line (if r = 4 then Cause.ecc else Cause.loadWindow)
    | (s, .ok row) =>
      let flat := vaAt (line * 64) row
      if s.hasBad flat 64 then s.fetchFaults st c tenant line Cause.ecc
      else
        let s := s.correct flat 64
        let ws := wordsOfBytes (s.bytesAt flat 64)
        let s := s.updUnit a (fun u => u.install ⟨tenant, line, ws, [], []⟩)
        -- the contexts that need it take the blocks they miss
        let s := (s.ctxs.map (·.1)).foldl (fun s b =>
          if clusterOf b = some (st, c) && !isHart b && (s.ctxOf b).tenant = tenant && s.needsLine b line then
            s.updOf b (fun x =>
              let first := blockOf x.nextPc
              let miss := if (lookup? x.fetchBuf first).isNone then first else nextBlock first
              let wait := if x.inIssue = [] then .none else x.wait
              let keep := if miss = first then [] else x.fetchBuf.filter (fun p => p.1 = first)
              if miss.toNat / 64 = line then
                { x with wait := wait, fetchBuf := keep ++ [(miss, (ws.drop (miss.toNat % 64 / 2)).take 8)] }
              else { x with wait := wait })
          else s) s
        if f.discard then s.updUnit a (fun u => { u with lines := u.lines.filter (fun l => !(l.tenant = tenant && l.addr = line)) })
        else s

/-- ICINV and ICINVA: the lines that are hit, by tenant and address, the fills in progress and the fetch buffers of the cluster (18
R499). -/
def State.invalidateLines (s : State) (a : AgentId) (hit : Nat → Nat → Bool) : State :=
  match a with
  | .core st c _ _ =>
    let s := s.updUnit a (fun u => { u with
      lines := u.lines.filter (fun l => !hit l.tenant l.addr)
      fills := u.fills.map (fun f => if hit f.tenant f.addr then { f with discard := true } else f) })
    { s with ctxs := s.ctxs.map (fun p =>
        match p.1 with
        | .core st' c' _ _ =>
          if st' = st && c' = c then
            (p.1, { p.2 with fetchBuf := p.2.fetchBuf.filter (fun q => !hit p.2.tenant (q.1.toNat / 64)) })
          else p
        | _ => p) }
  | _ => s

end Sys2Proof.Machine
end

