-- ==== Sys2Proof/Machine/Issue.lean ====
section
/-!
DEFINITION. Machine/Issue.lean: what a context does when it is chosen: which trap it takes (18 R474), fetching and decoding its
next group (04 R101), and the interlocks of vector and matrix results (06 R143, 10 R259, R260).
-/
namespace Sys2Proof.Machine

/-- What a chosen context does: it runs an instruction as its next group; or its turn ends otherwise. -/
inductive Prep where
  | run (s : State) (i : Instr)
  | stop (s : State)

/-- A trap that is due at a group boundary before the next group itself is looked at (18 R474, items 1 to 3), with CAUSALITY_CYCLE at
the waiting group (15 R424). -/
inductive Due where
  | none
  | operand (tval : Word)
  | watchdog (tval : Word)
  | refused (entry : Nat)
  | jobFault (id : BitVec 16)
  | causality (tval : Word)
  deriving DecidableEq, Repr

/-- The lowest journal entry for which the context has a refusal not yet delivered, its record held or cleared (06 R184). -/
def State.refusalDue (s : State) (a : AgentId) : Option Nat :=
  (List.range 16).find? (fun n =>
    (s.ctxOf a).clearedRefusals.contains n ||
      match lookup? (s.coreOf a).journal n with
      | some e => e.ctx = a && !e.delivered && !e.unacked
      | none => false)

/-- The first trap that is deliverable (18 R474). A load or atomic in flight completes first (06 R184): its group is no boundary. So does
the load of a mutex that has been handed over (15 R437), and the step of a LOOP with x[a] = 0 over its body (06 R170).
Asynchronous traps need IE, and wait for the body of a VLOOP that is being collected (10 R265). -/
def State.due (s : State) (a : AgentId) : Due :=
  let c := s.ctxOf a
  let async := c.ie && !c.intrap && c.vloop.isNone
  if c.pend ≠ .none ∨ c.stepping ∨ s.handedMutex a then .none
  else
  match c.operandTrap, c.intrap with
  | some t, false => .operand t
  | _, _ =>
    match c.watchdog, c.intrap with
    | some t, false => .watchdog t
    | _, _ =>
      match async, s.refusalDue a with
      | true, some n => .refused n
      | _, _ =>
        match async, c.jobFaults with
        | true, j :: _ => .jobFault j
        | _, _ =>
          match c.causality, c.intrap with
          | some t, false => .causality t
          | _, _ => .none

/-- Take a due trap; `len` is the length of the group at which it is taken. -/
def State.takeDue (s : State) (a : AgentId) (d : Due) (len : Nat) : State :=
  match d with
  | .none => s
  | .operand t =>
    (s.updOf a (fun c => { c with operandTrap := none, resumable := true })).takeTrap a .deferred len Cause.matrixOperand t
  | .watchdog t => (s.updOf a (fun c => { c with watchdog := none })).takeTrap a .precise len Cause.watchdog t
  | .refused n =>
    let s := if (s.ctxOf a).clearedRefusals.contains n then
        s.updOf a (fun c => { c with clearedRefusals := c.clearedRefusals.erase n })
      else s.updCore a (fun k => { k with journal := k.journal.map (fun p =>
        if p.1 = n then (p.1, { p.2 with delivered := true }) else p) })
    s.takeTrap a .async 0 Cause.postedRefused (BitVec.ofNat 32 n)
  | .jobFault j =>
    (s.updOf a (fun c => { c with jobFaults := c.jobFaults.tail })).takeTrap a .async 0 Cause.jobFault (j.setWidth 32)
  | .causality t => (s.updOf a (fun c => { c with causality := none })).takeTrap a .precise len Cause.causality t

/-- A vector load or store (10 R281). -/
def vectorMem (i : Instr) : Bool :=
  match i.fields with
  | none => false
  | some f => f.page = 3 ∧ f.prim ≤ 1

/-- A group that loads, stores, performs an atomic or ordered access, sends or receives, or submits a copy job (10 R260). -/
def memoryGroup (i : Instr) : Bool :=
  match i.fields with
  | none => false
  | some f =>
    (f.page = 0 ∧ (f.prim = 13 ∨ f.prim = 14 ∨ f.prim = 15 ∨ f.prim = 16 ∨ f.prim = 22)) ∨
    (f.page = 1 ∧ (f.prim = 6 ∨ f.prim = 7)) ∨ f.page = 5 ∨ f.page = 6 ∨
    (f.page = 7 ∧ (f.prim = 0 ∨ f.prim = 1 ∨ f.prim = 5 ∨ f.prim = 7 ∨ f.prim = 8)) ∨ (f.page = 8 ∧ f.prim = 2)

def pageOf (i : Instr) : BitVec 4 :=
  match i.fields with
  | none => 0
  | some f => f.page

/-- The entries of a context in the sequencer of its core: the instruction, and whether its scalar result and its T are no longer
wanted. -/
def State.seqEntries (s : State) (a : AgentId) : List (Instr × Bool × Bool) :=
  (s.coreOf a).seq.flatMap (fun e =>
    match e with
    | .one e => if e.ctx = a then [(e.op, e.gone, e.tGone)] else []
    | .loop c body _ _ _ => if c = a then body.map (fun e => (e.op, e.gone, e.tGone)) else [])

/-- The instructions of the entries of a context in the sequencer of its core. -/
def State.seqOps (s : State) (a : AgentId) : List Instr := (s.seqEntries a).map (·.1)

/-- The matrix commands of a context that are queued or in service; none writes T. -/
def State.matrixOps (s : State) (a : AgentId) : List (Instr × Bool × Bool) :=
  ((s.coreOf a).mqueue.filter (fun m => m.ctx = a)).map (fun m => (m.op, m.gone, false))

/-- Groups that write T whenever they complete, and do not read it. -/
def setsT : Instr → Bool
  | .ceq _ _ | .cne _ _ | .clt _ _ | .cge _ _ | .cltn _ _ | .cgen _ _ | .tst _ _ | .ceqi _ _ | .clti _ _ => true
  | .feq _ _ | .flt _ _ | .fle _ _ | .funord _ _ | .vsetvl _ _ | .vfirst _ _ _ | .gcd _ _ _ => true
  | _ => false

/-- Groups that a sequencer executes, in order among themselves; VSETVL and VCLAIM write their register at issue (10 R257). -/
def runsLater : Instr → Bool
  | .vsetvl _ _ | .vclaim _ _ => false
  | i => pageOf i = 2 ∨ pageOf i = 3

/-- A group reads a register, or T, that a pending entry or command will write (06 R143, 10 R259, R285). One that may write T, but need
not, waits for it too. -/
def waitsFor (i : Instr) (p : Instr × Bool × Bool) : Bool :=
  let u := usesOf i
  let e := usesOf p.1
  (!p.2.1 && (e.wx.any (fun r => r ≠ 0 && u.rx.contains r) || e.wf.any u.rf.contains)) ||
    (!p.2.2 && e.wt && (u.rt || (u.wt && !setsT i)))

/-- The interlocks of vector and matrix results (06 R143; 10 R259, R260; 11 R335): a group waits while it reads a scalar register
that an entry will write, and a group that accesses memory waits for earlier vector loads and stores. -/
def State.interlocked (s : State) (a : AgentId) (i : Instr) : Bool :=
  let ops := s.seqEntries a ++ s.matrixOps a
  ops.any (waitsFor i) || (memoryGroup i && ops.any (fun p => vectorMem p.1))

/-- Groups that leave their x register as it was where they end with T = 0. -/
def writesIfT : Instr → Bool
  | .alahead _ _ | .job _ _ | .spawn _ _ | .offer _ _ | .recvx _ _ => true
  | _ => false

/-- A stream is bound to an endpoint whose channel has closed and which holds no message: a read of it ends with T = 0 (13 R393, R397). -/
def Ctx.streamClosed (c : Ctx) (b : SReg) : Bool :=
  match c.streams[b.toNat] with
  | .endpoint e => (c.ep e).st = .closed && (c.ep e).inbox = []
  | .unbound => false
  | .affine _ => false

/-- The registers that a completed group has written, by its context before and after. -/
def wroteBy (before after : Ctx) (i : Instr) : Uses :=
  match i with
  | .srd _ b | .srdf _ b => if before.streamClosed b then { usesOf i with wx := [], wf := [] } else usesOf i
  | _ => if writesIfT i && !after.t then { usesOf i with wx := [] } else usesOf i

/-- A group has written registers, or T, that earlier entries and commands of its context are still to write: their results come too late
to be read, and are dropped (06 R143). Entries of one queue write in order among themselves. -/
def State.overtake (s : State) (before : Ctx) (a : AgentId) (i : Instr) : State :=
  let u := wroteBy before (s.ctxOf a) i
  let late (p : Uses) : Bool := p.wx.any u.wx.contains || p.wf.any u.wf.contains
  let lateT (p : Uses) : Bool := p.wt && setsT i
  if u.wx = [] ∧ u.wf = [] ∧ !setsT i then s
  else if runsLater i then
    if (s.matrixOps a).any (fun p => late (usesOf p.1)) then
      s.updCore a (fun k => { k with mqueue := k.mqueue.map (fun m => { m with gone := m.gone || (m.ctx = a && late (usesOf m.op)) }) })
    else s
  else
    let seq (k : Core) : List SeqItem := k.seq.map (fun e =>
      match e with
      | .one e => .one { e with
          gone := e.gone || (e.ctx = a && late (usesOf e.op)), tGone := e.tGone || (e.ctx = a && lateT (usesOf e.op)) }
      | .loop c b n p j => .loop c b n p j)
    let cmds (k : Core) : List MCmd := if pageOf i = 4 then k.mqueue
      else k.mqueue.map (fun m => { m with gone := m.gone || (m.ctx = a && late (usesOf m.op)) })
    if (s.seqEntries a ++ s.matrixOps a).any (fun p => late (usesOf p.1) || lateT (usesOf p.1)) then s.updCore a (fun k => { k with seq := seq k, mqueue := cmds k })
    else s

/-- Instructions that may not stand in the body of a VLOOP (10 R263). -/
def vloopBody (i : Instr) : Bool :=
  match i.fields with
  | none => false
  | some f =>
    (f.page = 2 ∧ f.prim ≠ 7) ∨ (f.page = 3 ∧ f.prim ≠ 5 ∧ f.prim ≠ 6 ∧ f.prim ≠ 7)

/-- A group at which a context takes a pending MATRIX_NAN (11 R326); PAUSE first raises DOMAIN where the context is in no domain (15
R425). -/
def Ctx.nanPoint (c : Ctx) (i : Instr) : Bool :=
  pageOf i == 4 ||
    (match i with
      | .pause => c.innermost.isSome
      | .pauseUp => c.innermost.isSome
      | .endCtx => true
      | .endFail => true
      | _ => false)

/-- HALTREQ holds the context: it stands at a group boundary, which a load in flight, the body of a VLOOP that is being collected and the
step over a LOOP body reach first (22 R542, 10 R265, 06 R170; log 45). -/
def Ctx.held (c : Ctx) : Bool := c.haltReq && c.pend = .none && c.vloop.isNone && !c.stepping

/-- The context issues: it is live, started, and not paused, stopped, retiring, held by HALTREQ, or waiting for its saved lanes. -/
def Ctx.candidate (c : Ctx) : Bool :=
  c.phase = .live && c.retiring.isNone && c.pause = .no && !c.held && !c.stopped && c.owed = 0

/-- The queue of a context is being torn down, and 4,096 cycles have passed since (18 R489). -/
def State.tornDown (s : State) (a : AgentId) : Bool :=
  s.overheated ||
  match (s.ctxOf a).origin.queue? with
  | none => false
  | some q =>
    match lookup? s.queues q with
    | none => false
    | some h =>
      match h.life with
      | .tearing t => t + 4096 ≤ (s.coreClock a).toNat
      | .inUse => false
      | .torn => false

/-- Where a context may stop: not between a VLOOP and its last body group, nor with a load in flight (18 R477). -/
def Ctx.stoppable (c : Ctx) : Bool := c.vloop.isNone && c.pend = .none

/-- A stop time has come for a context that may stop (18 R477, R489). All ones is no stop time. -/
def State.stopDue (s : State) (a : AgentId) : Bool :=
  let c := s.ctxOf a
  c.phase = .live && !c.stopped && c.retiring.isNone && c.stoppable &&
    ((c.switchat ≠ BitVec.allOnes 64 && c.switchat ≤ s.coreClock a) || s.tornDown a)

/-- The words of operands that commands of a context not in service have read are dropped: those commands read them after the restore (11
R320, R327). -/
def Core.dropEarly (k : Core) (a : AgentId) (serving : Bool) : Core :=
  { k with mqueue := k.mqueue.mapIdx (fun n m => if m.ctx = a ∧ ¬(n = 0 ∧ serving) then { m with early := [] } else m) }

/-- An MRING of a context at the head of its queue stands at its ring point, where it stays when the context stops (11 R300, R327). -/
def Core.standRing (k : Core) (a : AgentId) : Core :=
  match k.mqueue with
  | [] => k
  | m :: rest =>
    match m.op with
    | .mring => if m.ctx = a then { k with mqueue := { m with atRing := true } :: rest } else k
    | _ => k

/-- A context stops: its wait is abandoned, and the waiting group issues again after a restore (18 R478). Teardown makes it retire. It leaves
the mutex queues and rejoins at their tails (DESIGN CHOICE: 15 R439 says so, where R433 saves its place; log 46). -/
def State.stopCtx (s : State) (a : AgentId) : State :=
  let torn := s.tornDown a
  let s := if (s.coreOf a).mqueue = [] then s else s.updCore a (fun k => (k.standRing a).dropEarly a ((s.unitOf a).service = some (coreKey a)))
  (s.leaveQueues a).updOf a (fun c => { c with
    stopped := true, wait := .none, halted := false, missed := false, stepping := false, inIssue := [], flight := [], flushing := c.pause ≠ .no && c.flushing
    retiring := if torn then some .stopped else none })

/-- Words of a group up to its length. -/
def groupWords (ws : List HWord) : List HWord :=
  match groupLength ws with
  | some n => ws.take n
  | none => ws

/-- A pending MATRIX_NAN is taken (11 R326). -/
def State.takeNan (s : State) (a : AgentId) (len : Nat) (t : Word) : State :=
  (s.updOf a (fun c => { c with nanRecord := none })).takeTrap a .deferred len Cause.matrixNan t

/-- A group issues: the latencies of the groups in flight run on by a cycle and a free number more (06 R142; log 49). -/
def State.pass (s : State) (a : AgentId) (i : Instr) : State :=
  if (s.ctxOf a).flight = [] then s
  else { s with draws := s.draws + 1 }.updOf a (·.passes i (1 + Config.choice s.draws))

/-- The next group of a chosen context, once no trap of 18 R474 items 1 to 3 is due: a pending MATRIX_NAN at a page 4 group, be it one that
does not decode, and at the other points of 11 R326, comes before ILLEGAL (18 R474). -/
noncomputable def State.prepareGroup (s : State) (a : AgentId) (ws : List HWord) : Prep :=
  let c := s.ctxOf a
  match decode ws with
  | .more => .stop s
  | .illegal r pos w page =>
    match (if page = 4 ∧ !c.intrap then c.nanRecord else none) with
    | some t => .stop (s.takeNan a (groupWords ws).length t)
    | none => .stop (s.takeTrap a .precise (pos + 1) Cause.illegal (illegalTval r pos w page))
  | .ok i len page base =>
    let s := { s with group := ⟨ws.take len, page, base⟩ }
    match (if c.nanPoint i ∧ !c.intrap then c.nanRecord else none) with
    | some t => .stop (s.takeNan a len t)
    | none =>
      if c.vloop.isSome && !vloopBody i then
        .stop (s.takeTrap a .precise len Cause.illegal (illegalTval 9 (len - 1) base page))
      else if s.interlocked a i then .stop (s.marks a .interlock)
      else .run (s.pass a i) i

/-- The turn of a context at a group boundary with a trap due. A halted context wakes: HALT completes first (18 R501). An asynchronous trap
needs no group; the others carry the length of the next one, or 0 where that group cannot be fetched, on which the spec is silent (log
46). -/
def State.dueTurn (s : State) (a : AgentId) (d : Due) : State :=
  if (s.ctxOf a).halted then s.wake a
  else
    match d with
    | .none => s
    | .refused n => s.takeDue a (.refused n) 0
    | .jobFault j => s.takeDue a (.jobFault j) 0
    | .operand _ | .watchdog _ | .causality _ =>
      match s.fetch a with
      | .later s => s
      | .fault s _ => s.takeDue a d 0
      | .words s ws => s.takeDue a d (groupWords ws).length

/-- What a context does when the schedule chooses it. -/
noncomputable def State.prepare (s0 : State) (a : AgentId) : Prep :=
  let s := { s0 with cur := a }
  if s.stopDue a then .stop (s.stopCtx a)
  else if !(s.ctxOf a).candidate then .stop s
  else if s.due a ≠ .none then .stop (s.dueTurn a (s.due a))
  else
    match (s.ctxOf a).wait with
    | .badFill code => .stop (s.takeTrap a .precise 0 code (s.ctxOf a).pcLow)
    | _ =>
      match s.fetch a with
      | .later s => .stop s
      | .fault s code => .stop (s.takeTrap a .precise 0 code (s.ctxOf a).pcLow)
      | .words s ws => s.prepareGroup a ws

/-- After a turn: a context whose group issued was chosen (06 R140), and not again when a group that had issued goes on; the core loads the
block of its next group (04 R116). -/
def State.chosen (s before : State) (a : AgentId) : State :=
  let c := s.ctxOf a
  let waited := (before.ctxOf a).inIssue ≠ []
  let s := if !waited ∧ (c.wait = .none ∨ c.wait.issued) then
      (s.updCore a (fun k => { k with last := ctxIndex a })).updOf a (fun c => { c with
        missed := c.missed && c.wait = .none, inIssue := if c.wait = .none then [] else s.group.words })
    else s
  if c.wait = .none ∨ (!waited ∧ c.wait.issued) then s.loadNext a else s

/-- A context has taken a trap: it has entered its handler, or retires. -/
def Ctx.trapped (before after : Ctx) : Bool :=
  (after.intrap && !before.intrap) || (after.retiring.isSome && before.retiring.isNone && !after.stopped)

/-- A turn that ended without a group: a context that took a trap was chosen (06 R140), and after a trap entry the core loads the block of
the handler (04 R116). -/
def State.trapTurn (s before : State) (a : AgentId) : State :=
  if (before.ctxOf a).trapped (s.ctxOf a) then (s.updCore a (fun k => { k with last := ctxIndex a })).loadNext a else s

/-- The group has completed: the context neither waits nor has taken a trap at it. -/
def State.completed (before after : State) (a : AgentId) : Bool :=
  (after.ctxOf a).wait = .none && (after.ctxOf a).retiring.isNone && !((after.ctxOf a).intrap && !(before.ctxOf a).intrap)

end Sys2Proof.Machine
end

