-- ==== Sys2Proof/Machine/Special.lean ====
section
/-!
DEFINITION. Machine/Special.lean: the special functions of the vector lanes (10 R286, R287), computed in units of 2^-256 and rounded
with a last odd unit, since no value of theirs but those at the exact points is a dyadic fraction (log 10); and the three-candidate
quantiser (11 R318).
-/
namespace Sys2Proof.Machine

/-! ### Exponential, logarithm and their kin (10 R286, R287) -/

/-- ln 2 in units of 2^-256, rounded down. -/
def ln2Units : Nat := 0xb17217f7d1cf79abc9e3b39803f2f6af40f343267298b62d8a0d175b8baafa2b

/-- Units of 2^-256 in 1. -/
def oneUnits : Nat := 2 ^ 256

/-- The Taylor sum of e^r, r in units: term `t`, the i-th of those that remain. -/
def expSeries (r : Nat) : Nat → Nat → Nat → Nat
  | 0, _, _ => 0
  | n + 1, i, t => t + expSeries r n (i + 1) (t * r / oneUnits / (i + 1))

/-- e^v as a fraction, for v in units (log 10). -/
def expFraction (v : Int) : Nat × Nat :=
  let k := v.fdiv ln2Units
  let r := (v - k * ln2Units).toNat
  let m := 2 * expSeries r 64 0 oneUnits + 1
  if k < 0 then (m, 2 * oneUnits * 2 ^ (-k).toNat) else (m * 2 ^ k.toNat, 2 * oneUnits)

/-- A finite value in units, rounded down in magnitude; exact for every FP32 value. -/
def toUnits (neg : Bool) (n d : Nat) : Int := signed neg (n * oneUnits / d)

/-- e^x as a fraction for a finite x other than 0. Beyond the range of FP32 a power of two stands for the value. -/
def expOf (neg : Bool) (n d : Nat) : Nat × Nat :=
  if 128 * d < n then (if neg then (1, 2 ^ 200) else (2 ^ 200, 1)) else expFraction (toUnits neg n d)

/-- The sum of y^(2i+1) ÷ (2i+1), y in units and p the power. -/
def atanhSeries (y2 : Nat) : Nat → Nat → Nat → Nat
  | 0, _, _ => 0
  | n + 1, i, p => p / (2 * i + 1) + atanhSeries y2 n (i + 1) (p * y2 / oneUnits)

/-- ln (n ÷ d) in units, by its exponent and the series of the significand. -/
def lnUnits (n d : Nat) : Int :=
  let e := exponentOf n d
  let m := inUnits n d e
  let y := (m.1 - m.2) * oneUnits / (m.1 + m.2)
  e * ln2Units + 2 * (atanhSeries (y * y / oneUnits) 96 0 y : Nat)

/-- Round a fraction to nearest. -/
def nearest (neg : Bool) (q : Nat × Nat) : Word × BitVec 5 :=
  let r := fp32.round 0 neg q.1 q.2
  (word32 r.1, r.2)

def nanOf (sig : Bool) : Word × BitVec 5 := (word32 fp32.nanBits, flagIf sig Flag.nv)
def oneF : Word := 0x3F800000

/-- VEXP (10 R286, R287). -/
def vexpF (x : Word) : Word × BitVec 5 :=
  match num32 x with
  | .nan s => nanOf s
  | .inf b => (if b then 0 else 0x7F800000, 0)
  | .fin b n d => if n = 0 then (oneF, 0) else nearest false (expOf b n d)

/-- VLOG. -/
def vlogF (x : Word) : Word × BitVec 5 :=
  match num32 x with
  | .nan s => nanOf s
  | .inf b => if b then nanOf true else (0x7F800000, 0)
  | .fin b n d =>
    if n = 0 then (0xFF800000, Flag.dz)
    else if b then nanOf true
    else if n = d then (0, 0)
    else
      let v := lnUnits n d
      nearest (v < 0) (2 * v.natAbs + 1, 2 * oneUnits)

/-- VRCP: 1 ÷ x in RND. -/
def vrcpF (rnd : BitVec 2) (x : Word) : Word × BitVec 5 := divF rnd oneF x

/-- VRSQRT: 1 ÷ √x in RND. -/
def vrsqrtF (rnd : BitVec 2) (x : Word) : Word × BitVec 5 :=
  match num32 x with
  | .nan s => nanOf s
  | .inf b => if b then nanOf true else (0, 0)
  | .fin b n d =>
    if n = 0 then (if b then 0xFF800000 else 0x7F800000, Flag.dz)
    else if b then nanOf true
    else
      let q := sqrtSticky d n
      let r := fp32.round rnd false q.1 q.2
      (word32 r.1, r.2)

/-- VTANH: (1 − e^−2y) ÷ (1 + e^−2y) for y = |x|. Below 2^-13 the value is a little less than y, and above 32 a little less than 1. -/
def vtanhF (x : Word) : Word × BitVec 5 :=
  match num32 x with
  | .nan s => nanOf s
  | .inf b => (if b then 0xBF800000 else oneF, 0)
  | .fin b n d =>
    if n = 0 then (x, 0)
    else if n * 2 ^ 13 < d then nearest b (n * 2 ^ 30 - 1, d * 2 ^ 30)
    else if 32 * d < n then nearest b (2 ^ 64 - 1, 2 ^ 64)
    else
      let e := expOf true (2 * n) d
      nearest b (e.2 - e.1, e.2 + e.1)

/-- VSIGM: 1 ÷ (1 + e^−x). -/
def vsigmF (x : Word) : Word × BitVec 5 :=
  match num32 x with
  | .nan s => nanOf s
  | .inf b => (if b then 0 else oneF, 0)
  | .fin b n d =>
    if n = 0 then (0x3F000000, 0)
    else if !b && 32 * d < n then nearest false (2 ^ 64 - 1, 2 ^ 64)
    else
      let e := expOf true n d
      if b then nearest false (e.1, e.2 + e.1) else nearest false (e.2, e.2 + e.1)

/-! ### The quantiser (11 R318) -/

/-- A quantised block: exponent, mantissas, clamps of the winner, and flags. -/
structure Block where
  e : Nat
  m : List Int
  clamps : Nat
  flags : BitVec 5
  deriving DecidableEq, Repr

/-- The exponent of the scale of a candidate. -/
def scaleExp (e w : Nat) : Int := (e : Int) - 127 - ((w : Int) - 1)

/-- A finite value in units of 2^-165, in which every FP32 value and every mantissa of 11 R318 is whole. -/
def fineUnits (neg : Bool) (n d : Nat) : Int := signed neg (n * 2 ^ 165 / d)
/-- 2^q in the same units; the scale exponents of 11 R318 are at least -133. -/
def fineScale (q : Int) : Int := (2 ^ (q + 165).toNat : Nat)

/-- One element quantised for a candidate: mantissa, and whether it clamped. -/
def quantOne (e w : Nat) (x : Num) : Int × Bool :=
  let hi : Int := 2 ^ (w - 1) - 1
  let lo : Int := -(2 ^ (w - 1))
  match x with
  | .nan _ => (0, false)
  | .inf b => (if b then lo else hi, true)
  | .fin b n d =>
    let u := inUnits n d (scaleExp e w)
    let q := signed b (roundNat 0 b u.1 u.2).1
    let m := min (max q lo) hi
    (m, m != q)

/-- The difference of a finite element from its mantissa, in fine units; 0 for an infinity. -/
def quantDiff (e w : Nat) (x : Num) : Int :=
  match x with
  | .fin b n d => fineUnits b n d - (quantOne e w x).1 * fineScale (scaleExp e w)
  | .nan _ => 0
  | .inf _ => 0

/-- The exact squared error of a candidate. -/
def quantErr (e w : Nat) (xs : List Num) : Int := xs.foldl (fun s x => s + quantDiff e w x * quantDiff e w x) 0

/-- Largest magnitude among the finite elements, as FP32 magnitude bits. -/
def largestFinite (xs : List Word) : Nat :=
  xs.foldl (fun m x => if x.toNat % 2 ^ 31 < 0x7F800000 then max m (x.toNat % 2 ^ 31) else m) 0

/-- Quantise a block of FP32 values at a width (11 R318). -/
def quantBlock (w : Nat) (xs : List Word) : Block :=
  let ns := xs.map num32
  if ns.any (·.isNan) then ⟨255, xs.map (fun _ => 0), 0, Flag.nv⟩
  else if xs.all (fun x => x.toNat % 2 ^ 31 = 0) then ⟨0, xs.map (fun _ => 0), 0, 0⟩
  else
    let big := largestFinite xs
    let infs := ns.any (fun n => n = .inf false || n = .inf true)
    let cand (d : Int) : Nat :=
      match fp32.decode big with
      | .fin _ n m => (min (max (exponentOf n m + 128 + d) 1) 254).toNat
      | .nan _ => 254
      | .inf _ => 254
    let e :=
      if big = 0 then 254
      else
        let e0 := cand 0
        let e1 := cand 1
        let e2 := cand (-1)
        let best := if quantErr e1 w ns < quantErr e0 w ns then e1 else e0
        if quantErr e2 w ns < quantErr best w ns then e2 else best
    let qs := ns.map (quantOne e w)
    ⟨e, qs.map (·.1), (qs.filter (·.2)).length,
      flagIf infs Flag.ov ||| flagIf (ns.any (fun x => quantDiff e w x != 0)) Flag.nx⟩

/-- The value m × 2^(E − 127 − (w − 1)) as FP32 (10 R291): exact. -/
def dequantF (e w : Nat) (m : Int) : Word :=
  if e = 0 then 0
  else if e = 255 then word32 fp32.nanBits
  else
    match Num.scaled (m < 0) m.natAbs (scaleExp e w) with
    | .fin b n d => if n = 0 then 0 else word32 (fp32.round 0 b n d).1
    | .nan _ => 0
    | .inf _ => 0

/-- The low w bits of a byte, sign-extended. -/
def mantissa (w : Nat) (b : Nat) : Int :=
  let v := b % 2 ^ w
  if 2 ^ (w - 1) ≤ v then (v : Int) - 2 ^ w else v

end Sys2Proof.Machine
end

