-- ==== Sys2Proof/Machine/Matrix.lean ====
section
/-!
DEFINITION. Machine/Matrix.lean: the matrix unit: command queues, the array, the latches and the ring (11 R296-R337).
-/
namespace Sys2Proof.Machine

/-! ### Fields of commands -/

def mfmtWa (w : Word) : Nat := bitsOf w.toNat 3 0
def mfmtWb (w : Word) : Nat := bitsOf w.toNat 7 4
def mfmtWq (w : Word) : Nat := bitsOf w.toNat 11 8
def mfmtCb (w : Word) : Bool := w.getLsbD 16
def mfmtNant (w : Word) : Bool := w.getLsbD 17

/-- A tile number with the bank swap applied (11 R301). -/
def bankTile (fmt x : Word) : Nat := (x.toNat % 32).xor (if mfmtCb fmt then 16 else 0)

/-- Bytes of an operand of width w (07 R193). -/
def tileBytes (w : Nat) : Nat := 32 + 128 * w

/-- What a command is to the unit. -/
inductive MKind where
  | mma | mmar | mzero | mcrd | mcwr | mquant | mlatb | mring | msatrd | other
  deriving DecidableEq, Repr

def MCmd.kind (m : MCmd) : MKind :=
  match m.op with
  | .mma _ _ => .mma
  | .mmar _ _ _ => .mmar
  | .mzero _ => .mzero
  | .mcrd _ _ => .mcrd
  | .mcwr _ _ => .mcwr
  | .mquant _ _ => .mquant
  | .mlatb _ => .mlatb
  | .mring => .mring
  | .msatrd _ _ => .msatrd
  | _ => .other

/-- The command uses the array (11 R310). -/
def MKind.array : MKind → Bool
  | .mma | .mmar | .mzero | .mcrd | .mcwr | .mquant => true
  | .mlatb | .mring | .msatrd | .other => false

/-- CMD of MCHAIN (11 R305). -/
def MKind.code : MKind → Option (BitVec 4)
  | .mma => some 0
  | .mmar => some 1
  | .mlatb => some 2
  | .mquant => some 3
  | .mzero | .mcrd | .mcwr | .mring | .msatrd | .other => none

/-- The C tile a command names. -/
def MCmd.tile (m : MCmd) : Nat :=
  match m.kind with
  | .mzero => bankTile m.mfmt m.xa
  | .mcrd | .mcwr => bitsOf m.xb.toNat 14 10
  | .msatrd => m.xb.toNat % 32
  | _ => bankTile m.mfmt m.xb

/-- The destination of MCRD and MSATRD. -/
def MCmd.dst (m : MCmd) : XReg :=
  match m.op with
  | .mcrd a _ => a
  | .msatrd a _ => a
  | _ => 0

/-- The write of the scalar result, unless a later group has written the register (06 R143). -/
def MCmd.put (m : MCmd) (w : Word) (c : Ctx) : Ctx := if m.gone then c else c.setX m.dst w

/-! ### Cores of a cluster and ring members (11 R300) -/

/-- Core `k` of the cluster of `u`. -/
def coreAt (u : AgentId) (k : Nat) : AgentId :=
  match u with
  | .core s c _ _ => .core s c k 0
  | a => a

/-- Number of a core. -/
def coreIdx : AgentId → Nat
  | .core _ _ k _ => k
  | _ => 0

def State.member (s : State) (core : AgentId) : Bool := (s.unitOf core).mrset.getLsbD (coreIdx core)

/-- The ring members in order of their positions. -/
def State.members (s : State) (u : AgentId) : List AgentId :=
  ((List.range 8).filter (fun k => (s.unitOf u).mrset.getLsbD k)).map (coreAt u)

def State.head? (s : State) (core : AgentId) : Option MCmd := (s.coreOf core).mqueue.head?

def State.setHead (s : State) (core : AgentId) (m : MCmd) : State :=
  s.updCore core (fun k => { k with mqueue := m :: k.mqueue.tail })

/-- The head command completes: its flags are recorded, and its entry is free (11 R309, R315). -/
def State.popHead (s : State) (core : AgentId) : State :=
  match s.head? core with
  | some m => (s.updCore core (fun k => { k with mqueue := k.mqueue.tail })).updOf m.ctx (fun c => c.orFp m.flags m.sat)
  | none => s

/-- The queue of a core has reached a ring point (11 R300). -/
def State.atRing (s : State) (core : AgentId) : Bool :=
  match s.head? core with
  | some m => m.kind = .mring || m.atRing
  | none => false

/-- A ring point of the head command is passed: MRING completes, a chain goes on or completes, and a cancelled chain counts a step (11
R300, R325). -/
def State.passRing (s : State) (core : AgentId) : State :=
  match s.head? core with
  | some m =>
    if m.kind = .mring then s.popHead core
    else
      let done := if m.cancelled then m.done + 1 else m.done
      if m.steps ≤ done then s.popHead core else s.setHead core { m with done := done, atRing := m.cancelled }
  | none => s

/-- All latches move one position round the ring (11 R300). -/
def State.moveLatches (s : State) (ms : List AgentId) : State :=
  let ls := ms.map (fun a => ((s.coreOf a).latchWidth, (s.coreOf a).latch))
  let src := ls.getLast?.toList ++ ls.dropLast
  (ms.zip src).foldl (fun s p => s.updCore p.1 (fun k => { k with latchWidth := p.2.1, latch := p.2.2 })) s

/-- The head command of a core may go on: it is cancelled, or the unit starts something new for its context (18 R478). -/
def State.headRuns (s : State) (core : AgentId) : Bool :=
  match s.head? core with
  | some m => m.cancelled || s.mayStart m.ctx
  | none => false

/-- A core stands at a ring point: at an MMAR that has completed a step, or an MRING that has started. A ring step for which every member
does is made though contexts have stopped since (11 R327, 18 R478). -/
def State.ringReady (s : State) (core : AgentId) : Bool :=
  match s.head? core with
  | some m => m.atRing || (m.kind = .mring && s.headRuns core)
  | none => false

/-- The ring step, when every member stands at a ring point. -/
def State.ringStep (s : State) (u : AgentId) : State :=
  let ms := s.members u
  if ms ≠ [] ∧ ms.all s.ringReady then ms.foldl State.passRing (s.moveLatches ms) else s

/-- With one member a ring step completes at once (11 R300). -/
def State.soleRing (s : State) (core : AgentId) : State :=
  if s.members core = [core] then s.ringStep core else s

/-- RING_STEP (11 R300). -/
def execRingStep (u : AgentId) (s : State) : Res := .next (s.ringStep u)

/-- A write of MRSET (11 R300, R307), after any ring step in progress: a removed core leaves its ring point without a transfer. -/
def State.setMrset (s : State) (u : AgentId) (v : BitVec 8) : State :=
  let s := s.ringStep u
  let gone := (s.members u).filter (fun a => !v.getLsbD (coreIdx a))
  let s := s.updUnit u (fun x => { x with mrset := v })
  gone.foldl (fun s a =>
    match s.head? a with
    | some m =>
      if m.cancelled then s.popHead a
      else if s.atRing a then s.passRing a else s
    | none => s) s

/-! ### Suspension, resumption, cancelling (11 R323-R325) -/

/-- A failed operand check suspends the head command: REASON and the operand address. -/
def State.suspend (s : State) (core : AgentId) (m : MCmd) (reason : BitVec 2) (addr : Word) : State :=
  (s.setHead core { m with susp := true, early := [], out := none }).updOf m.ctx (fun c => { c with
    mchain := ⟨true, reason, (m.kind.code).getD 0, BitVec.ofNat 8 m.steps, BitVec.ofNat 8 m.done⟩
    mopaddr := addr, operandTrap := some (BitVec.ofNat 32 m.done), resumable := false })

/-- The suspended command of a context ends (11 R325): a chain of a ring member keeps a ring point for each remaining step. -/
def State.cancelMatrix (s : State) (a : AgentId) : State :=
  match s.head? a with
  | some m =>
    if m.susp && m.ctx = a then
      let s := s.updOf a (fun c => { c with mchain := { c.mchain with susp := false }, resumable := false })
      if m.kind = .mmar && s.member a then
        let s := s.updOf a (fun c => c.orFp m.flags m.sat)
        (s.setHead (coreKey a) { m with susp := false, cancelled := true, atRing := true, flags := 0, sat := false }).soleRing (coreKey a)
      else s.popHead (coreKey a)
    else s
  | none => s

/-- Commands of a context that have not completed. -/
def State.matrixBusy (s : State) (a : AgentId) : Bool :=
  (s.coreOf a).mqueue.any (fun m => m.ctx = a && !m.cancelled)

/-! ### Operands (11 R298, R323) -/

/-- The number of the first byte of an operand that lies wholly in one range, or REASON. -/
def State.operandAt (s : State) (a : AgentId) (ea n : Nat) : Except (BitVec 2) Nat :=
  let check (flat : Nat) : Except (BitVec 2) Nat := if s.hasBad flat n then .error 2 else .ok flat
  match tcmOrScratch a ea n with
  | some flat => check flat
  | none =>
    match a with
    | .core st c _ _ =>
      if 0x01000000 ≤ ea ∧ ea + n ≤ 0x01100000 then
        let k := (ea - 0x01000000) / 0x20000
        let o := (ea - 0x01000000) % 0x20000
        if o + n ≤ 0x20000 then (if s.present a st c k then check (tcmAt st c k o) else .error 1) else .error 0
      else .error 0
    | _ => .error 0

/-- The operand address of the next step of a command. -/
def MCmd.operand (m : MCmd) : Word := m.xa + BitVec.ofNat 32 (m.done * tileBytes (mfmtWa m.mfmt))

/-! ### Arithmetic (11 R314; 07 R193) -/

/-- Block exponent `i` of a tile. -/
def tileExp (bs : List Byte) (i : Nat) : Nat := ((bs[i]?).getD 0).toNat

/-- Mantissa `n` of a tile of width w. -/
def tileMant (bs : List Byte) (w n : Nat) : Int :=
  let p := n * w
  let two := ((bs[32 + p / 8]?).getD 0).toNat + 256 * ((bs[33 + p / 8]?).getD 0).toNat
  mantissa w (two / 2 ^ (p % 8))

/-- The exact sum of products of row i of A and column j of B, over the k-elements that remain. -/
def dotFrom (a b : List Byte) (wa wb i j : Nat) : Nat → Int
  | 0 => 0
  | k + 1 => dotFrom a b wa wb i j k + tileMant a wa (i * 32 + k) * tileMant b wb (j * 32 + k)

/-- One C element after a tile operation, with its flags. -/
def tileElem (ea eb : Nat) (sum : Int) (wa wb : Nat) (c : Word) : Word × BitVec 5 :=
  if ea = 255 ∨ eb = 255 then (word32 fp32.nanBits, Flag.nv)
  else if ea = 0 ∨ eb = 0 then (c, 0)
  else if sum = 0 then (c, 0)
  else
    let x := Num.scaled (sum < 0) sum.natAbs ((ea : Int) + eb - 254 - ((wa : Int) - 1) - ((wb : Int) - 1))
    round32 0 (Num.add 0 x (num32 c))

/-- The number of C element (i, j) of a tile of the cluster of an agent (11 R297). -/
def tileWordAt (u : AgentId) (t i j : Nat) : Nat :=
  match u with
  | .core st c _ _ => matrixAt st c (t * 0x1000 + i * 0x80 + j * 4)
  | _ => 0

/-- Add the outcome of one element. A C word with an uncorrectable error becomes the default NaN (11 R326). -/
def State.tileStep (s : State) (u : AgentId) (t : Nat) (a b : List Byte) (wa wb : Nat) (o : TileOut) (n : Nat) : TileOut :=
  let i := n / 32
  let j := n % 32
  let at_ := tileWordAt u t i j
  if s.hasBad at_ 4 then
    { o with writes := (at_, word32 fp32.nanBits) :: o.writes, flags := o.flags ||| Flag.nv
             newNan := o.newNan.or (some n) }
  else
    let c := s.wordAt at_
    let r := tileElem (tileExp a i) (tileExp b j) (dotFrom a b wa wb i j 32) wa wb c
    { o with writes := (at_, r.1) :: o.writes, flags := o.flags ||| r.2
             overflows := o.overflows + bit (r.2.getLsbD 2)
             newNan := o.newNan.or (if (num32 r.1).isNan && !(num32 c).isNan then some n else none) }

/-- The elements of the selected rows, in row-major order. -/
def maskElems (rm : Word) : List Nat := (List.range 1024).filter (fun n => rm.getLsbD (n / 32))

/-- Count saturation events of a tile and of the context (11 R317, R306). -/
def State.countSat (s : State) (a : AgentId) (t n : Nat) : State :=
  if n = 0 then s
  else
    let old := lookupD (0, false) (s.unitOf a).satc t
    (s.updUnit a (fun u => { u with satc := assign u.satc t (min (old.1 + n) 0xFFFF, old.2 || 0xFFFF ≤ old.1 + n) })).updOf a
      (fun c => { c with msatc := BitVec.ofNat 32 (min (c.msatc.toNat + n) 0xFFFFFFFF) })

/-- A C element as MCRD and MQUANT read it: one with an uncorrectable error is the default NaN (log 17). -/
def State.tileRead (s : State) (u : AgentId) (t i j : Nat) : Word :=
  if s.hasBad (tileWordAt u t i j) 4 then word32 fp32.nanBits else s.wordAt (tileWordAt u t i j)

/-- The report or the correction that reading a C element makes (12 R371). -/
def State.noteTile (s : State) (a : AgentId) (t i j : Nat) : State :=
  if s.hasBad (tileWordAt a t i j) 4 then s.reportOf a (tileWordAt a t i j) else s.correct (tileWordAt a t i j) 4

/-- The reports and corrections of reading the elements of the selected rows. -/
def State.noteRows (s : State) (m : MCmd) : State :=
  if s.eccBad = [] ∧ s.eccOne = [] then s
  else (maskElems m.rowmask).foldl (fun s n => s.noteTile m.ctx m.tile (n / 32) (n % 32)) s

/-- The words of an operand as bytes: those read early stand as they were read (17 R464). -/
def State.operandBytes (s : State) (m : MCmd) (flat n : Nat) : List Byte :=
  if m.early = [] then s.bytesAt flat n
  else (List.range (n / 4)).flatMap (fun i => wordBytes4 ((lookup? m.early i).getD (s.wordAt (flat + 4 * i))))

/-- What the tile operation of a command writes, with the bytes of its A tile. -/
def State.tileOut (s : State) (core : AgentId) (m : MCmd) (a : List Byte) : TileOut :=
  let k := s.coreOf core
  (maskElems m.rowmask).foldl (s.tileStep core m.tile a k.latch (mfmtWa m.mfmt) k.latchWidth) ⟨[], 0, 0, none, false⟩

/-! ### MQUANT (11 R336) -/

/-- Pack mantissas of width w, least significant bit first, as one number. -/
def packMants (w : Nat) : List Int → Nat
  | [] => 0
  | m :: rest => (m.emod (2 ^ w)).toNat + 2 ^ w * packMants w rest

/-- The blocks of a tile for MQUANT: rows, or columns for the B layout; masked rows read +0. -/
def State.quantBlocks (s : State) (m : MCmd) : List Block :=
  let w := mfmtWq m.mfmt
  let elem (i j : Nat) : Word := if m.rowmask.getLsbD i then s.tileRead m.ctx m.tile i j else 0
  (List.range 32).map (fun p =>
    quantBlock w ((List.range 32).map (fun q => if m.xb.getLsbD 5 then elem q p else elem p q)))

/-- What MQUANT writes: its output area at a number, as words. -/
def State.quantOut (s : State) (m : MCmd) (flat : Nat) : TileOut :=
  let w := mfmtWq m.mfmt
  let bs := s.quantBlocks m
  let clamps := (bs.map (·.clamps)).sum
  let bytes := bs.map (fun b => BitVec.ofNat 8 b.e) ++ bytesOf (packMants w (bs.flatMap (·.m))) (128 * w)
  ⟨(wordsOf (8 + 32 * w) bytes).mapIdx (fun i x => (flat + 4 * i, x)), bs.foldl (fun f b => f ||| b.flags) 0, clamps, none, clamps ≠ 0⟩

/-! ### The end of a step -/

/-- What the step of a command in service writes, after the reads that it makes; or its operand fault, with REASON and the address (11
R323). -/
def State.output (s : State) (core : AgentId) (m : MCmd) : Except (BitVec 2 × Word) (State × TileOut) :=
  match m.kind with
  | .mma | .mmar =>
    match s.operandAt m.ctx m.operand.toNat (tileBytes (mfmtWa m.mfmt)) with
    | .error r => .error (r, m.operand)
    | .ok flat =>
      let n := tileBytes (mfmtWa m.mfmt)
      .ok ((s.correct flat n).noteRows m, s.tileOut core m (s.operandBytes m flat n))
  | .mquant =>
    match s.operandAt m.ctx m.xa.toNat (tileBytes (mfmtWq m.mfmt)) with
    | .error r => .error (r, m.xa)
    | .ok flat => .ok (s.noteRows m, s.quantOut m flat)
  | .mzero => .ok (s, ⟨(List.range 1024).map (fun n => (tileWordAt core m.tile (n / 32) (n % 32), 0)), 0, 0, none, false⟩)
  | .mcrd | .mcwr | .mlatb | .mring | .msatrd | .other => .ok (s, ⟨[], 0, 0, none, false⟩)

/-- The sub-arrays a command takes part in (11 R313). -/
def MCmd.subs (m : MCmd) : List Nat :=
  if m.kind = .mma ∨ m.kind = .mmar then
    (if m.rowmask.toNat % 65536 ≠ 0 then [0, 1] else []) ++ (if m.rowmask.toNat / 65536 ≠ 0 then [2, 3] else [])
  else [0, 1, 2, 3]

/-- The sub-arrays of a command take part in it now. -/
def State.useArray (s : State) (u : AgentId) (m : MCmd) : State :=
  s.updUnit u (fun x => { x with lastUse := m.subs.foldl (fun v b => v.set! b s.time.toNat) x.lastUse })

/-- A step has been made: a tile operation counts, and a chain goes on, reaches its ring point, or completes; the others complete (11
R300, R305, R310). -/
def State.stepDone (s : State) (core : AgentId) (m : MCmd) : State :=
  match m.kind with
  | .mma | .mmar =>
    let s := s.updOf m.ctx (fun c => { c with mchain := { c.mchain with done := BitVec.ofNat 8 (m.done + 1) } })
    let m := { m with done := m.done + 1 }
    if m.kind = .mmar ∧ s.member core then (s.setHead core { m with atRing := true }).soleRing core
    else if m.steps ≤ m.done then (s.setHead core m).popHead core
    else s.setHead core m
  | .mquant => ((s.setHead core m).updOf m.ctx (fun c => { c with mchain := { c.mchain with done := 1 } })).popHead core
  | .mzero | .mcrd | .mcwr | .mlatb | .mring | .msatrd | .other => (s.setHead core m).popHead core

/-- The writes of a step that are left, its counts, its MATRIX_NAN (11 R326), and then its end. -/
def State.finish (s : State) (core : AgentId) (m : MCmd) (o : TileOut) : State :=
  let s := o.writes.foldl (fun s w => s.storeWord w.1 w.2) s
  let s := s.countSat m.ctx m.tile o.overflows
  let s := match o.newNan with
    | some n =>
      if mfmtNant m.mfmt && (s.ctxOf m.ctx).nanRecord.isNone then
        s.updOf m.ctx (fun c => { c with nanRecord := some (BitVec.ofNat 32 (m.tile * 1024 + n)) })
      else s
    | none => s
  (s.useArray core m).stepDone core { m with flags := m.flags ||| o.flags, sat := m.sat || o.sat, early := [], out := none }

/-- The step of the head command of a core ends: with its effect, or with its operand fault (11 R314, R323). -/
def State.endService (s : State) (core : AgentId) (m : MCmd) : State :=
  match m.out with
  | some o => s.finish core m o
  | none =>
    match s.output core m with
    | .error (r, ea) => s.suspend core m r ea
    | .ok (t, o) => t.finish core m o

/-! ### The array and the arbiter (11 R310-R313) -/

/-- A core's head is ready for the array (11 R311); nothing is started for a context that a switch has stopped (18 R478). -/
def State.headReady (s : State) (core : AgentId) : Bool :=
  match s.head? core with
  | some m => m.kind.array && !m.susp && !m.atRing && !m.cancelled && s.mayStart m.ctx
  | none => false

/-- The first core in cyclic order from `p` whose head is ready. -/
def State.pickCore (s : State) (u : AgentId) (p : Nat) : Option Nat :=
  ((List.range 8).map (fun i => (p + i) % 8)).find? (fun k => s.headReady (coreAt u k))

/-- The arbiter's choice: the core, and the new pointer and run of services. -/
def State.arbitrate (s : State) (u : AgentId) : Option (Nat × Nat × Nat) :=
  let x := s.unitOf u
  let lapsed := x.served ≠ 0 && !s.headReady (coreAt u x.pointer)
  let p := if lapsed then (x.pointer + 1) % 8 else x.pointer
  let run := if lapsed then 0 else x.served
  match s.pickCore u p with
  | none => none
  | some k =>
    let n := (if k = p then run else 0) + 1
    if (s.coreOf (coreAt u k)).mweight ≤ n then some (k, (k + 1) % 8, 0) else some (k, k, n)

/-- The array takes up a command: its tile is held, and its sub-arrays are awake. -/
def State.arrayTakes (s : State) (u : AgentId) (m : MCmd) : State :=
  (s.updUnit u (fun x => { x with
    held := some m.tile
    gated := m.subs.foldl (fun g b => g &&& ~~~((1 : BitVec 4) <<< b)) x.gated })).useArray u m

/-- A command starts: CMD, K and DONE are recorded (11 R305). -/
def State.startCmd (s : State) (core : AgentId) (m : MCmd) : State :=
  if m.started then s
  else
    let s := s.setHead core { m with started := true }
    match m.kind.code with
    | some code =>
      s.updOf m.ctx (fun c => { c with mchain := { c.mchain with cmd := code, k := BitVec.ofNat 8 m.steps, done := 0 } })
    | none => s

/-- One element of a tile, for MCRD and MCWR. -/
def MCmd.elem (m : MCmd) : Nat × Nat := (bitsOf m.xb.toNat 9 5, bitsOf m.xb.toNat 4 0)

/-- The array serves the head command of a core. A tile operation goes into service and completes with TILE_OPERATION; the others
are done at once. -/
def State.serve (s : State) (core : AgentId) (m0 : MCmd) : State :=
  let s := (s.arrayTakes core m0).startCmd core m0
  let m := { m0 with started := true }
  match m.kind with
  | .mma | .mmar =>
    match s.operandAt m.ctx m.operand.toNat (tileBytes (mfmtWa m.mfmt)) with
    | .error r => s.suspend core m r m.operand
    | .ok _ => s.updUnit core (fun x => { x with service := some core })
  | .mquant | .mzero => s.endService core m
  | .mcrd =>
    let w := s.tileRead core m.tile m.elem.1 m.elem.2
    ((s.noteTile m.ctx m.tile m.elem.1 m.elem.2).updOf m.ctx (m.put w)).popHead core
  | .mcwr => (s.storeWord (tileWordAt core m.tile m.elem.1 m.elem.2) m.xa).popHead core
  | .mlatb | .mring | .msatrd | .other => s

/-- MZERO and MQUANT, which are served in one step unless some of their words were written early. -/
def MKind.whole : MKind → Bool
  | .mzero | .mquant => true
  | .mma | .mmar | .mcrd | .mcwr | .mlatb | .mring | .msatrd | .other => false

/-- ARRAY_SERVICE (11 R311): the array takes up the command that the arbiter picks, or ends an MZERO or MQUANT begun before. -/
def execArrayService (u : AgentId) (s : State) : Res :=
  match (s.unitOf u).service with
  | some core =>
    match s.head? core with
    | some m => .next (if m.kind.whole then (s.updUnit u (fun x => { x with service := none })).endService core m else s)
    | none => .next s
  | none =>
    match s.arbitrate u with
    | none => .next (s.updUnit u (fun x =>
        if x.served ≠ 0 then { x with pointer := (x.pointer + 1) % 8, served := 0 } else x))
    | some (k, p, n) =>
      let core := coreAt u k
      let s := s.updUnit u (fun x => { x with pointer := p, served := n })
      match s.head? core with
      | some m => .next (s.serve core m)
      | none => .next s

/-- TILE_OPERATION (11 R314). -/
def execTileOperation (u : AgentId) (s : State) : Res :=
  match (s.unitOf u).service with
  | none => .next s
  | some core =>
    match s.head? core with
    | some m => .next (if m.kind.whole then s else (s.updUnit u (fun x => { x with service := none })).endService core m)
    | none => .next s

/-! ### Words read and written before the others (11 R320, 17 R464) -/

/-- One word of the operand of the k-th command of a queue is read early. -/
def State.readWord (s : State) (core : AgentId) (k : Nat) (m : MCmd) (ea : Word) (width n : Nat) : State :=
  if m.out.isSome || (lookup? m.early n).isSome || tileBytes width / 4 ≤ n then s
  else
    match s.operandAt m.ctx ea.toNat (tileBytes width) with
    | .error _ => s
    | .ok flat => (s.correct (flat + 4 * n) 4).updCore core (fun q => { q with
        mqueue := q.mqueue.set k { m with early := m.early ++ [(n, s.wordAt (flat + 4 * n))] } })

/-- A word of the A operand of the next step of a tile operation, or of the operand of MLATB: in service, or at any time before, also while a
chain waits at a ring point. -/
def State.operandPart (s : State) (core : AgentId) (k n : Nat) : State :=
  match (s.coreOf core).mqueue[k]? with
  | none => s
  | some m =>
    if m.susp ∨ m.cancelled ∨ m.steps ≤ m.done ∨ ¬(s.mayStart m.ctx ∨ (k = 0 ∧ (s.unitOf core).service = some core)) then s
    else
      match m.kind with
      | .mma | .mmar => s.readWord core k m m.operand (mfmtWa m.mfmt) n
      | .mlatb => s.readWord core k m m.xa (mfmtWb m.mfmt) n
      | .mzero | .mcrd | .mcwr | .mquant | .mring | .msatrd | .other => s

/-- MZERO or MQUANT begins: the array takes it up, when the arbiter picks it and its operand is no fault. -/
def State.beginWhole (s : State) (u : AgentId) : State :=
  match (s.unitOf u).service, s.arbitrate u with
  | none, some (k, p, n) =>
    match s.head? (coreAt u k) with
    | none => s
    | some m =>
      match m.kind.whole, s.output (coreAt u k) m with
      | true, .ok _ =>
        ((s.updUnit u (fun x => { x with pointer := p, served := n, service := some (coreAt u k) })).arrayTakes u m).startCmd (coreAt u k) m
      | _, _ => s
  | _, _ => s

/-- A word of the output of the command in service: every read of its step has then been made. -/
def State.outputPart (s : State) (u : AgentId) (n : Nat) : State :=
  let s := s.beginWhole u
  let put (s : State) (core : AgentId) (m : MCmd) (o : TileOut) : State :=
    match o.writes[n]? with
    | some w => (s.setHead core { m with out := some { o with writes := o.writes.eraseIdx n } }).storeWord w.1 w.2
    | none => s
  match (s.unitOf u).service with
  | none => s
  | some core =>
    match s.head? core with
    | none => s
    | some m =>
      match m.out, s.output core m with
      | some o, _ => put s core m o
      | none, .ok (t, o) => put t core m o
      | none, .error _ => s

/-- SUBARRAY_GATE (11 R313). -/
def execSubarrayGate (u : AgentId) (sub : BitVec 2) (s : State) : Res :=
  let x := s.unitOf u
  if x.mgateIdle ≠ 0 ∧ x.service = none ∧ x.lastUse[sub.toNat] + x.mgateIdle.toNat ≤ s.time.toNat then
    .next (s.setUnitOf u { x with gated := x.gated ||| ((1 : BitVec 4) <<< sub.toNat) })
  else .next s

/-- MSATRD (11 R337). -/
def State.msatrdRun (s : State) (core : AgentId) (m : MCmd) : State :=
  let n := lookupD (0, false) (s.unitOf core).satc m.tile
  let s := if m.xb.getLsbD 8 then s.updUnit core (fun x => { x with satc := erase x.satc m.tile }) else s
  (s.updOf m.ctx (m.put (BitVec.ofNat 32 (bit n.2 * 2 ^ 31 + n.1)))).popHead core

/-- A command that does not use the array starts at the head of its queue (11 R310, R330, R331). -/
def State.startHead (s : State) (core : AgentId) (m : MCmd) : State :=
  match m.kind with
  | .mlatb =>
    let s := s.startCmd core m
    let m := { m with started := true }
    let w := mfmtWb m.mfmt
    match s.operandAt m.ctx m.xa.toNat (tileBytes w) with
    | .error r => s.suspend core m r m.xa
    | .ok flat =>
      let bs := s.operandBytes m flat (tileBytes w)
      let s := (s.correct flat (tileBytes w)).updCore core (fun k => { k with latch := bs, latchWidth := w })
      (s.updOf m.ctx (fun c => { c with mchain := { c.mchain with done := 1 } })).popHead core
  | .mring => if s.member core then s.soleRing core else s.popHead core
  | .msatrd => s.msatrdRun core m
  | .mma | .mmar | .mzero | .mcrd | .mcwr | .mquant | .other => s

/-- MATRIX_COMMAND_START (11 R310). A command that has begun goes on though its context has been stopped (18 R478). -/
def execMatrixCommandStart (core : AgentId) (s : State) : Res :=
  let core := coreKey core
  match s.head? core with
  | some m => if m.susp ∨ (m.early = [] ∧ ¬s.mayStart m.ctx) then .next s else .next (s.startHead core m)
  | none => .next s

/-! ### The instructions at issue (11 R309, R322) -/

/-- A matrix command takes an entry of the queue; while it is full, the group waits. -/
def State.pushCmd (s : State) (op : Instr) (a b : XReg) (steps : Nat) : Res :=
  if 4 ≤ s.core.mqueue.length then s.waits .interlock
  else
    let c := s.ctx
    (s.updCore s.cur (fun k => { k with mqueue := k.mqueue ++
      [⟨s.cur, op, c.getX a, c.getX b, c.mfmt, c.mrowmask, steps, 0, false, false, false, false, 0, false, false, [], none⟩] })).done id

/-- MATRIX_FORMAT for a width outside 2 to 8: its field and value (11 R322). -/
def State.widthOk (s : State) (field w : Nat) (k : Res) : Res :=
  if w < 2 ∨ 8 < w then s.trap Cause.matrixFormat (BitVec.ofNat 32 (field * 256 + w)) else k

/-- An operand address is a multiple of 32 (11 R298). -/
def State.operandOk (s : State) (ea : Word) (k : Res) : Res := if ea.toNat % 32 ≠ 0 then s.trap Cause.align ea else k

/-- A command that reads memory waits for the earlier vector loads and stores of the context (11 R320). -/
def State.afterVector (s : State) (k : Res) : Res := if (s.seqOps s.cur).any vectorMem then s.waits .interlock else k

/-- MMA (11 R328). -/
def execMma (a b : XReg) (s : State) : Res :=
  s.coreOnly (s.operandOk (s.ctx.getX a) (s.widthOk 0 (mfmtWa s.ctx.mfmt) (s.afterVector (s.pushCmd (.mma a b) a b 1))))
/-- MMAR (11 R329). -/
def execMmar (a b : XReg) (imm : Imm) (s : State) : Res :=
  s.coreOnly (s.operandOk (s.ctx.getX a)
    (s.widthOk 0 (mfmtWa s.ctx.mfmt) (s.afterVector (s.pushCmd (.mmar a b imm) a b imm.toNat))))
/-- MLATB (11 R330). -/
def execMlatb (a : XReg) (s : State) : Res :=
  s.coreOnly (s.operandOk (s.ctx.getX a) (s.widthOk 1 (mfmtWb s.ctx.mfmt) (s.afterVector (s.pushCmd (.mlatb a) a 0 1))))
/-- MRING (11 R331). -/
def execMring (s : State) : Res := s.coreOnly (s.pushCmd .mring 0 0 1)
/-- MWAIT (11 R321). -/
def execMwait (s : State) : Res := s.coreOnly (if s.matrixBusy s.cur then s.waits .interlock else s.done id)
/-- MSYNC (11 R321). -/
def execMsync (s : State) : Res :=
  s.coreOnly (if s.core.mqueue.any (fun m => !m.cancelled) then s.waits .interlock else s.done id)
/-- MZERO (11 R333). -/
def execMzero (a : XReg) (s : State) : Res := s.coreOnly (s.pushCmd (.mzero a) a 0 1)
/-- MCSWAP (11 R334). -/
def execMcswap (s : State) : Res := s.coreOnly (s.done (fun c => { c with mfmt := c.mfmt ^^^ 0x10000 }))
/-- MCRD (11 R335). -/
def execMcrd (a b : XReg) (s : State) : Res := s.coreOnly (s.pushCmd (.mcrd a b) a b 1)
/-- MCWR (11 R335). -/
def execMcwr (a b : XReg) (s : State) : Res := s.coreOnly (s.pushCmd (.mcwr a b) a b 1)
/-- MQUANT (11 R336). -/
def execMquant (a b : XReg) (s : State) : Res :=
  s.coreOnly (s.operandOk (s.ctx.getX a) (s.widthOk 2 (mfmtWq s.ctx.mfmt) (s.pushCmd (.mquant a b) a b 1)))
/-- MSATRD (11 R337). -/
def execMsatrd (a b : XReg) (s : State) : Res := s.coreOnly (s.pushCmd (.msatrd a b) a b 1)

end Sys2Proof.Machine
end

