-- ==== Sys2Proof/Machine/Pool.lean ====
section
/-!
DEFINITION. Machine/Pool.lean: the lane pool of a cluster, claims, and the active length (10 R248-R255, R292-R295).
-/
namespace Sys2Proof.Machine

/-- VLANES (10 R249). -/
def Ctx.vlanes (c : Ctx) : Word := BitVec.ofNat 32 (c.want * 2 ^ 24 + c.vmin * 2 ^ 16 + c.count)

/-- Registers of zeros. -/
def zeroLanes : Vector (Vector Word 64) 32 := Vector.replicate 32 (Vector.replicate 64 0)

/-- A register of which the first `n` elements remain and the others are zero. -/
def keepLanes (n : Nat) (v : Vector Word 64) : Vector Word 64 := Vector.ofFn (fun i => if i.val < n then v[i] else 0)

/-- A change of COUNT: VL := min(VL, COUNT), and the elements from COUNT on read zero (10 R251). -/
def Ctx.setCount (c : Ctx) (n : Nat) : Ctx := { c with count := n, vl := min c.vl n, v := c.v.map (keepLanes n) }

/-- Elements that no longer exist, or that a claim or a release has made zero, keep no mark of an uncorrectable or single-bit error: from
element `n` on, in every register of a context (10 R251, 12 R371). -/
def State.forgetLanes (s : State) (a : AgentId) (n : Nat) : State :=
  let stays (x : Nat) : Bool := !(x / 0x2000 = vregAt (agentNo a) 0 0 / 0x2000 && n ≤ x % 256 / 4)
  if s.eccBad = [] ∧ s.eccOne = [] then s else { s with eccBad := s.eccBad.filter stays, eccOne := s.eccOne.filter stays }

/-- A context's grant becomes `n` lanes: elements from the smaller of the old and the new COUNT on read zero (10 R251). -/
def State.regrant (s : State) (a : AgentId) (n : Nat) : State :=
  let c := s.ctxOf a
  (s.setCtxOf a (c.setCount n)).forgetLanes a (min c.count n)

/-- Free lanes of a cluster (10 R248). -/
def State.freeLanes (s : State) (u : AgentId) : Nat :=
  64 - ((s.ctxs.filter (fun p => unitKey p.1 = unitKey u)).map (fun p => p.2.count)).sum

/-- A claim is granted `g` lanes: its VCLAIM completes (10 R292), and an older matrix command writes x[a] no more (06 R143). -/
def State.grantClaim (s : State) (k : Claim) (g : Nat) : State :=
  let c := s.ctxOf k.ctx
  let c' := { (c.advance (BitVec.ofNat 32 (2 * k.words.length))).ready with count := g, v := zeroLanes }.setX k.dst (BitVec.ofNat 32 g)
  let t := (({ s with group := { s.group with words := k.words } }.setCtxOf k.ctx c').loopBuffer k.ctx c c').forgetLanes k.ctx 0 |>.overtake c' k.ctx (.vclaim k.dst 0)
  { t with group := s.group }

/-- Serve the claim queue of a cluster: the head claim is granted as soon as its minimum is free (10 R252). The count bounds the
claims served. -/
def State.serveClaims (s : State) (u : AgentId) : Nat → State
  | 0 => s
  | n + 1 =>
    match (s.unitOf u).claims with
    | [] => s
    | k :: rest =>
      if k.min ≤ s.freeLanes u then
        ((s.updUnit u (fun x => { x with claims := rest })).grantClaim k (min k.want (s.freeLanes u))).serveClaims u n
      else s

/-- A restored context takes its saved lanes, as far as they are free, once its saved minimum is (10 R254). Its elements are written then, so no
mark of an error that the seat had is left. -/
def State.grantOwed (s : State) (a : AgentId) : State :=
  let c := s.ctxOf a
  if c.owed ≠ 0 ∧ c.vmin ≤ s.freeLanes a then
    (s.setCtxOf a { c.setCount (min c.owed (s.freeLanes a)) with owed := 0 }).forgetLanes a 0
  else s

/-- Free lanes go to restored contexts first, and then to the claim queue (10 R252, R254). Of several restored contexts that are short of
lanes each takes them, in the order of the context list, as soon as its own minimum is free, so that one with a smaller minimum may pass
another (DESIGN CHOICE: the spec gives no order; log 46). -/
def State.serveLanes (s : State) (u : AgentId) : State :=
  let mine := (s.ctxs.map (·.1)).filter (fun a => unitKey a = unitKey u && (s.ctxOf a).owed ≠ 0)
  let s := mine.foldl State.grantOwed s
  if mine.any (fun a => (s.ctxOf a).owed ≠ 0) then s else s.serveClaims u (s.unitOf u).claims.length

/-- CLAIM_GRANT (10 R252). -/
def execClaimGrant (u : AgentId) (s : State) : Res := .next (s.serveLanes u)

/-- The head claim, if its minimum is not free. -/
def State.shortClaim (s : State) (u : AgentId) : Bool :=
  match (s.unitOf u).claims with
  | [] => false
  | k :: _ => s.freeLanes u < k.min

/-- Shrink the grants of resuming contexts, given in descending order, until the head claim's minimum is free (10 R253). -/
def State.shrinkGrants (s : State) (u : AgentId) : List AgentId → State
  | [] => s
  | a :: rest =>
    if s.shortClaim u then
      let c := s.ctxOf a
      (if c.vmin < c.count then s.regrant a c.vmin else s).shrinkGrants u rest
    else s

/-- Grow the grants of resuming contexts, given in ascending order, while lanes are free and no claim waits (10 R253). A restored context that
still waits for its saved lanes takes those instead (10 R254). -/
def State.growGrants (s : State) (u : AgentId) : List AgentId → State
  | [] => s
  | a :: rest =>
    if (s.unitOf u).claims ≠ [] then s
    else
      let c := s.ctxOf a
      (if c.count < c.want ∧ c.owed = 0 then s.regrant a (min c.want (c.count + s.freeLanes u)) else s).growGrants u rest

/-- Place an agent in ascending order of module context number. -/
def insertAgent (a : AgentId) : List AgentId → List AgentId
  | [] => [a]
  | b :: rest => if agentNo a ≤ agentNo b then a :: b :: rest else b :: insertAgent a rest

def sortAgents (l : List AgentId) : List AgentId := l.foldr insertAgent []

/-- The adjustment of the grants of the members of a cluster that an instant's end resumes (10 R253). -/
def State.adjustLanes (s : State) (u : AgentId) (resuming : List AgentId) : State :=
  let up := sortAgents (resuming.filter (fun a => unitKey a = unitKey u && !isHart a))
  ((s.shrinkGrants u up.reverse).serveLanes u).growGrants u up

/-! ### The instructions -/

/-- The operand of VCLAIM is well formed (10 R292). -/
def claimOk (w : Word) : Bool :=
  let want := bitsOf w.toNat 6 0
  let min := bitsOf w.toNat 22 16
  bitsOf w.toNat 31 23 = 0 && bitsOf w.toNat 15 7 = 0 && want % 8 = 0 && min % 8 = 0 && 8 ≤ min && min ≤ want && want ≤ 64

/-- VCLAIM joins the queue (10 R292): its grant is released, and free lanes are served. -/
def State.joinClaims (s : State) (a : AgentId) (dst : XReg) (w : Word) : State :=
  let want := bitsOf w.toNat 6 0
  let min := bitsOf w.toNat 22 16
  let s := (s.updOf a (fun c => { c with want := want, vmin := min, count := 0, vl := 0, v := zeroLanes, wait := .lanes })).forgetLanes a 0
  (s.updUnit a (fun u => { u with claims := u.claims ++ [⟨a, want, min, dst, s.group.words⟩] })).serveLanes a

/-- VCLAIM (10 R292). -/
def execVclaim (a b : XReg) (s : State) : Res :=
  s.coreOnly
    (let w := s.ctx.getX b
     if s.unit.claims.any (fun k => k.ctx = s.cur) then s.waits .lanes
     else if !claimOk w then s.trap Cause.vectorLanes s.ctx.vlanes
     else if s.seqBusy s.cur then s.waits .sequencer
     else .next (s.joinClaims s.cur a w))

/-- VYIELD (10 R293). -/
def execVyield (s : State) : Res :=
  s.coreOnly
    (if s.seqBusy s.cur then s.waits .sequencer
     else .next ((s.complete (fun c => { c with want := 0, vmin := 0, count := 0, vl := 0, v := zeroLanes })).forgetLanes s.cur 0 |>.serveLanes s.cur))

/-- VSETVL (10 R294). With a = x0, which holds no value, T is that of the number written, x[b] - VL, as the sentence on COUNT = 0 has it
(DEDUCED; log 46). -/
def execVsetvl (a b : XReg) (s : State) : Res :=
  s.coreOnly
    (let n := (s.ctx.getX b).toNat
     let vl := min n s.ctx.count
     s.done (fun c => ({ c with vl := vl }.setX a (BitVec.ofNat 32 (n - vl))).setT (n - vl ≠ 0)))

/-- VSYNC (10 R295). -/
def execVsync (s : State) : Res :=
  s.coreOnly (if s.seqBusy s.cur then s.waits .sequencer else s.done id)

end Sys2Proof.Machine
end

