-- ==== Sys2Proof/Machine/Instants.lean ====
section
/-!
DEFINITION. Machine/Instants.lean: domains, signals, instants, delay registers, monitored waits and bells (15 R411-R440).
-/
namespace Sys2Proof.Machine

/-! ### Domains and their members (02 R30-R32, 15 R411-R416) -/

def State.domain? (s : State) (d : Nat) : Option Domain := lookup? s.domains d

def State.updDomain (s : State) (d : Nat) (f : Domain → Domain) : State :=
  match s.domain? d with
  | some x => { s with domains := assign s.domains d (f x) }
  | none => s

/-- The context is a direct member of a domain (02 R32): from its placement on (15 R415). -/
def Ctx.memberOf (c : Ctx) (d : Nat) : Bool :=
  c.phase ≠ .idle && (match c.innermost with
    | some i => i.toNat = d
    | none => false)

/-- Direct members that stand in their contexts. -/
def State.directMembers (s : State) (d : Nat) : List AgentId := (s.ctxs.filter (fun p => p.2.memberOf d)).map (·.1)

/-- Contexts saved by a switch, with their domains (18 R481). -/
def State.savedCtxs (s : State) : List Ctx := s.switches.flatMap (fun p => p.2.ctxs.map (·.ctx))

/-- All direct members, those of a switched-out team included. -/
def State.memberCtxs (s : State) (d : Nat) : List Ctx :=
  ((s.ctxs.map (·.2)) ++ s.savedCtxs).filter (fun c => c.memberOf d)

/-- Change every direct member. -/
def State.mapMembers (s : State) (d : Nat) (f : Ctx → Ctx) : State :=
  let g (c : Ctx) : Ctx := if c.memberOf d then f c else c
  { s with
    ctxs := s.ctxs.map (fun p => (p.1, g p.2))
    switches := s.switches.map (fun p => (p.1, { p.2 with ctxs := p.2.ctxs.map (fun x => { x with ctx := g x.ctx }) })) }

/-- Child domains. -/
def State.children (s : State) (d : Nat) : List Nat := (s.domains.filter (fun p => p.2.parent = some d)).map (·.1)

/-- A domain has a member, direct or through its children, over at most the given levels (15 R415). -/
def State.peopled (s : State) : Nat → Nat → Bool
  | 0, d => s.memberCtxs d != []
  | n + 1, d => s.memberCtxs d != [] || (s.children d).any (fun c => State.peopled s n c)

/-- The children that are nodes of a domain. -/
def State.childNodes (s : State) (d : Nat) : List Nat := (s.children d).filter (s.peopled 3)

/-! ### Spans (15 R416) -/

def spanOf : AgentId → Span
  | .core s c _ _ => .cluster s c
  | .copyUnit s c => .cluster s c
  | .saveEngine s => .stack s
  | .secureCore => .module
  | .memoryCore s _ => .stack s
  | .serviceCore s _ => .stack s
  | .linkEngine s _ => .stack s

def Span.stack? : Span → Option Nat
  | .cluster s _ => some s
  | .stack s => some s
  | .none => Option.none
  | .module => Option.none

/-- The smallest span that holds two. -/
def Span.join (x y : Span) : Span :=
  if x = y then x
  else if x = .none then y
  else if y = .none then x
  else
    match x.stack?, y.stack? with
    | some a, some b => if a = b then .stack a else .module
    | _, _ => .module

/-- The contexts that are direct members, those of a switched-out team included. -/
def State.memberAgents (s : State) (d : Nat) : List AgentId :=
  s.directMembers d ++ s.switches.flatMap (fun p => (p.2.ctxs.filter (fun x => x.ctx.memberOf d)).map (·.ag))

/-- The span of the direct members. -/
def State.ownSpan (s : State) (d : Nat) : Span := ((s.memberAgents d).map spanOf).foldl Span.join .none

/-- The span of the members of a domain and of its descendants. -/
def State.spanNow (s : State) : Nat → Nat → Span
  | 0, d => s.ownSpan d
  | n + 1, d => ((s.children d).map (fun c => State.spanNow s n c)).foldl Span.join (s.ownSpan d)

/-- The FENCE scope of a span: 2 for a cluster, 3 for a stack, 4 for the module (15 R416). -/
def Span.scope : Span → BitVec 4
  | .none => 2
  | .cluster _ _ => 2
  | .stack _ => 3
  | .module => 4

/-- The domain scope, as the span stands when an operation is made (15 R416). -/
def State.domainScope (s : State) (d : Nat) : BitVec 4 :=
  match s.domain? d with
  | some k => k.span.scope
  | none => 2

/-- The span of a domain and of its ancestors widens by a member that joins. -/
def State.widen (s : State) (x : Span) : Nat → Nat → State
  | 0, d => s.updDomain d (fun k => { k with span := k.span.join x })
  | n + 1, d =>
    let s := s.updDomain d (fun k => { k with span := k.span.join x })
    match s.domain? d with
    | some k =>
      match k.parent with
      | some p => State.widen s x n p
      | none => s
    | none => s

/-! ### Joining and leaving (15 R415, 07 R205) -/

/-- A context that stops being a direct member: its flags are merged, and its live mask counts no more. -/
def State.leaveDomain (s : State) (a : AgentId) : State :=
  let c := s.ctxOf a
  match c.innermost with
  | some d => (s.updDomain d.toNat (fun k => { k with flags := k.flags ||| c.mergeFlags })).updOf a (fun c => { c with live := 0 })
  | none => s

/-! ### Signals (15 R417-R424) -/

/-- Signals the domain uses. -/
def Domain.used (k : Domain) : BitVec 64 :=
  BitVec.ofNat 64 (((List.range 64).map (fun i => bit (((k.ops.toArray[i]?).getD 0) ≠ 0) * 2 ^ i)).sum)

/-- A live bit of a signal is left among the direct members. -/
def State.liveLeft (s : State) (d sig : Nat) : Bool := (s.memberCtxs d).any (fun c => c.live.getLsbD sig)

/-- The status of a signal (15 R418). -/
def State.sigStatus (s : State) (d : Nat) (sig : BitVec 6) : SigStatus :=
  match s.domain? d with
  | none => .absent
  | some k =>
    match k.status[sig.toNat] with
    | .present => .present
    | .absent => .absent
    | .unknown => if s.liveLeft d sig.toNat then .unknown else .absent

/-- A signal is settled (15 R423). -/
def State.settled (s : State) (d : Nat) (sig : BitVec 6) : Bool :=
  match s.sigStatus d sig with
  | .absent => true
  | .present => !s.liveLeft d sig.toNat
  | .unknown => false

/-- The combination of two emitted values under an OP (15 R412, R419). -/
def combineSignal (op : BitVec 4) (y z : Word) : Word :=
  match op.toNat with
  | 1 => y ||| z
  | 2 => y &&& z
  | 3 => y + z
  | 4 => if y.slt z then z else y
  | _ => if z.slt y then z else y

/-- A page 7 instruction of a context in no domain raises DOMAIN. -/
def State.inDomain (s : State) (k : Nat → Res) : Res :=
  match s.ctx.innermost with
  | some d => k d.toNat
  | none => s.trap Cause.domain 0xFFFFFFFF

/-- EMIT reaches the event tree. -/
def Domain.emit (k : Domain) (sig : BitVec 6) (x : Word) : Domain :=
  let i := sig.toNat
  let v := if k.status[i] = .present then combineSignal k.ops[i] k.value[i] x else x
  { k with value := k.value.set i v, status := k.status.set i .present }

/-- EMIT (15 R420). -/
def execEmit (a : XReg) (sig : BitVec 6) (s : State) : Res :=
  s.inDomain (fun d =>
    if !s.ctx.live.getLsbD sig.toNat then s.trap Cause.emitWithdrawn (BitVec.ofNat 32 (d * 65536 + sig.toNat))
    else
      match s.passRelease (s.domainScope d).toNat s.cur with
      | none => s.waits .interlock
      | some t =>
        let x := s.ctx.getX a
        (t.updDomain d (·.emit sig x)).done id)

/-- NOEMIT (15 R421). -/
def execNoemit (sig : BitVec 6) (s : State) : Res :=
  s.inDomain (fun d =>
    match s.passRelease (s.domainScope d).toNat s.cur with
    | none => s.waits .interlock
    | some t => t.done (fun c => { c with live := c.live &&& ~~~((1 : BitVec 64) <<< sig.toNat) }))

/-- A test of a signal's status: a branch taken when it is `want` (15 R422). -/
def State.sigBranch (s : State) (sig : BitVec 6) (imm : Imm) (want : SigStatus) : Res :=
  s.outsideLoop (s.inDomain (fun d =>
    let st := s.sigStatus d sig
    if st = .unknown then s.waits (.signal sig false)
    else if st = want then s.jump (s.ctx.target imm) id
    else s.done id))

/-- PRES (15 R422). -/
def execPres (sig : BitVec 6) (imm : Imm) (s : State) : Res := s.sigBranch sig imm .present
/-- ABSB (15 R422). -/
def execAbsb (sig : BitVec 6) (imm : Imm) (s : State) : Res := s.sigBranch sig imm .absent

/-- SVAL (15 R423). -/
def execSval (a : XReg) (sig : BitVec 6) (s : State) : Res :=
  s.inDomain (fun d =>
    if !s.settled d sig then s.waits (.signal sig true)
    else
      match s.domain? d with
      | some k =>
        if k.status[sig.toNat] = .present then s.done (fun c => (c.setX a k.value[sig.toNat]).setT true)
        else s.done (fun c => (c.setX a 0).setT false)
      | none => s.done (fun c => (c.setX a 0).setT false))

/-- SIGNAL_DECIDED (15 R418): an absent signal stays so for the rest of the instant. -/
def execSignalDecided (dom : BitVec 10) (sig : BitVec 6) (s : State) : Res :=
  if s.sigStatus dom.toNat sig = .absent then
    .next (s.updDomain dom.toNat (fun k => { k with status := k.status.set sig.toNat .absent }))
  else .next s

/-- A member waits on a signal whose test has not decided. -/
def State.waitsOnSignal (s : State) (d : Nat) (c : Ctx) : Option (BitVec 6) :=
  match c.wait with
  | .signal sig settle =>
    if c.intrap then none
    else if settle then (if s.settled d sig then none else some sig)
    else if s.sigStatus d sig = .unknown then some sig
    else none
  | _ => none

/-- A direct member is running (15 R424). -/
def State.running (s : State) (d : Nat) (c : Ctx) : Bool := c.pause = .no && (s.waitsOnSignal d c).isNone

/-- CAUSALITY_CYCLE (15 R424). -/
def execCausalityCycle (dom : BitVec 10) (s : State) : Res :=
  let d := dom.toNat
  if (s.memberCtxs d).any (s.running d) then .next s
  else
    .next (s.mapMembers d (fun c =>
      match s.waitsOnSignal d c with
      | some sig => { c with causality := some (BitVec.ofNat 32 (d * 65536 + sig.toNat)) }
      | none => c))

/-! ### Pausing and the end of an instant (15 R425-R428) -/

/-- PAUSE and PAUSE.UP (15 R425, R426). -/
def State.pauseGroup (s : State) (p : Pause) : Res :=
  s.inDomain (fun _ =>
    if s.seqBusy s.cur ∨ s.ctx.vloop.isSome ∨ s.matrixBusy s.cur ∨ s.unacked s.cur then s.waits .interlock
    else (s.startFlush s.cur).done (fun c => { c with live := 0, pause := p, pauseFlags := c.mergeFlags }))

/-- PAUSE (15 R425). -/
def execPause (s : State) : Res := s.pauseGroup .paused
/-- PAUSE.UP (15 R426). -/
def execPauseUp (s : State) : Res := s.pauseGroup .pausedUp

/-- The partition of a tenant is switched out: its event tree stands still (15 R433). -/
def State.away (s : State) (tenant : Nat) : Bool :=
  match lookup? s.switches tenant with
  | some w => w.phase = .saved
  | none => false

/-- A key-routed contribution that one of the given contexts has issued as a direct member of the domain is on its way, or held for its
destination (15 R427). -/
def Mesh.contributes (d : Nat) (members : List AgentId) : Mesh → Bool
  | .contribution src _ _ _ _ (some k) _ => k.toNat = d && members.contains src
  | _ => false

/-- The conditions of R427: members and child nodes exist, all are paused, and what the direct members have issued in the instant has
arrived: accumulates, and the contributions made as members. A context that has left holds nothing back (15 R415). -/
def State.instantDone (s : State) (d : Nat) : Bool :=
  let nodes := s.childNodes d
  (s.memberCtxs d != [] || nodes != []) &&
    (match s.domain? d with
      | some k => !k.pausedInParent && !s.away k.tenant
      | none => false) &&
    (s.memberCtxs d).all (fun c => c.pause ≠ .no && c.out = 0) &&
    nodes.all (fun n => match s.domain? n with
      | some k => k.pausedInParent
      | none => false) &&
    (s.directMembers d).all (fun a => s.resv a = 0) &&
    !(s.mesh ++ s.switches.flatMap (fun w => w.2.mesh)).any (Mesh.contributes d (s.memberAgents d))

/-- A member at the end of the instant, before its next (items 2 of 15 R428). -/
def Ctx.shiftDelays (c : Ctx) : Ctx := { c with dcur := c.dnxt }

/-- A member at the start of an instant (items 5 and 7). -/
def Ctx.resume (used : BitVec 64) (c : Ctx) : Ctx := { c with live := c.decl &&& used, pause := .no, flushing := false, causality := none }

/-- Clusters of a list of agents, each once. -/
def unitsOf (l : List AgentId) : List AgentId := (l.map unitKey).eraseDups

/-- The domains whose next instant begins with that of a domain: the children that are paused in it, and theirs (15 R426). -/
def State.beginning (s : State) : Nat → Nat → List Nat
  | 0, _ => []
  | n + 1, d => d :: ((s.children d).filter (fun c => match s.domain? c with
      | some x => x.pausedInParent
      | none => false)).flatMap (fun c => State.beginning s n c)

/-- The next instant of domains begins: their members resume, their grants adjusted together (10 R253), their watchdogs restart, and
their spans narrow (15 R426, R428). -/
def State.beginInstants (s : State) (ds : List Nat) : State :=
  let ms := ds.flatMap s.directMembers
  let s := ds.foldl (fun s d => match s.domain? d with
    | some k => s.mapMembers d (Ctx.resume k.used)
    | none => s) s
  let s := (unitsOf ms).foldl (fun s u => s.adjustLanes u ms) s
  ds.foldl (fun s d =>
    let span := s.spanNow 3 d
    s.updDomain d (fun x => { x with wdCount := 0, wdOn := true, pausedInParent := false, span := span })) s

/-- The next instant of a domain begins, with those of the children paused in it. -/
def State.beginInstant (s : State) (d : Nat) : State := s.beginInstants (s.beginning 4 d)

/-- A member that is paused is so no more: it has become a direct member of another domain, or of none (15 R415). -/
def Ctx.unpaused (c : Ctx) : Ctx := if c.pause = .no then c else { c with pause := .no, flushing := false }

/-- A context that becomes a direct member: it is not paused, its live mask is zero until the next instant, the span widens, and the watchdog of a domain
that has had no member starts (15 R431). In a domain that no direct member has left paused in its parent, the instant goes on from here (15
R415). -/
def State.joinDomain (s : State) (a : AgentId) (d : Nat) : State :=
  let s := if (s.memberAgents d).all (· = a) && (s.domain? d).any (·.pausedInParent) then s.beginInstant d else s
  let s := s.updOf a (fun c => { c.unpaused with live := 0 })
  let s := s.widen (spanOf a) 3 d
  s.updDomain d (fun k => if k.wdOn then k else { k with wdCount := 0, wdOn := true })

/-- Items 1 to 4 of 15 R428: the flags with which members paused merge (07 R205), delay registers shift, signals are unknown again, and the counter increments. -/
def State.closeInstant (s : State) (d : Nat) : State :=
  let own := (s.memberCtxs d).foldl (fun f c => f ||| c.pauseFlags) 0
  let sub := (s.children d).foldl (fun f c => match s.domain? c with
    | some x => f ||| x.flags
    | none => f) own
  (s.mapMembers d Ctx.shiftDelays).updDomain d (fun k => { k with
    flags := k.flags ||| sub, instant := k.instant + 1, status := Vector.replicate 64 .unknown, value := Vector.replicate 64 0 })

/-- INSTANT_END (15 R427, R428). -/
def execInstantEnd (dom : BitVec 10) (s : State) : Res :=
  let d := dom.toNat
  if !s.instantDone d then .next s
  else
    match s.domain? d with
    | none => .next s
    | some k =>
      let up := k.level ≠ 0 && (s.memberCtxs d).all (fun c => c.pause = .pausedUp)
      let s := s.closeInstant d
      if up then .next (s.updDomain d (fun x => { x with pausedInParent := true })) else .next (s.beginInstant d)

/-! ### The watchdog (15 R431) -/

/-- A context of the domain or of its descendants is in trap service. -/
def State.trapIn (s : State) : Nat → Nat → Bool
  | 0, d => (s.memberCtxs d).any (·.intrap)
  | n + 1, d => (s.memberCtxs d).any (·.intrap) || (s.children d).any (fun c => State.trapIn s n c)

/-- The partition of a tenant is stopped for a switch: a domain of it is saved, with the count of its watchdog (15 R433, 18 R488). -/
def State.frozen (s : State) (tenant : Nat) : Bool :=
  match lookup? s.switches tenant with
  | some w => w.phase ≠ .scheduled || w.stop ≤ s.time.toNat
  | none => false

/-- Watchdogs count the cycles that pass. -/
def State.countWatchdogs (s : State) (cycles : Nat) : State :=
  { s with domains := s.domains.map (fun p =>
      if p.2.wdog ≠ 0 && p.2.wdOn && !p.2.pausedInParent && !s.trapIn 3 p.1 && !s.frozen p.2.tenant then (p.1, { p.2 with wdCount := p.2.wdCount + cycles })
      else p) }

/-- WATCHDOG_EXPIRY (15 R431). -/
def execWatchdogExpiry (dom : BitVec 10) (s : State) : Res :=
  let d := dom.toNat
  match s.domain? d with
  | none => .next s
  | some k =>
    if k.wdog ≠ 0 ∧ k.wdog.toNat * 1024 ≤ k.wdCount then
      .next ((s.mapMembers d (fun c =>
        if c.pause = .no && !c.intrap && c.phase = .live then { c with watchdog := some (BitVec.ofNat 32 d) } else c)).updDomain d
          (fun x => { x with wdCount := 0 }))
    else .next s

/-! ### Membership by a kernel write (02 R31, 15 R411, R415) -/

def setDom (v : Vector DomReg 4) (k : BitVec 2) (x : DomReg) : Vector DomReg 4 := v.set k.toNat x

/-- The valid registers form a chain of domains of the tenant, each at the level of its register (02 R31, 15 R411). -/
def State.chainOk (s : State) (tenant : Nat) (v : Vector DomReg 4) : Bool :=
  (List.range 4).all (fun k =>
    let x := (v.toArray[k]?).getD ⟨false, 0⟩
    if !x.v then true
    else
      match s.domain? x.id.toNat with
      | none => false
      | some d =>
        d.tenant = tenant && d.level = k &&
          (if k = 0 then true
           else
             let up := (v.toArray[k - 1]?).getD ⟨false, 0⟩
             up.v && d.parent = some up.id.toNat))

/-- The instant of a child domain has ended, and it has direct members that have not resumed: it is paused in its parent (15 R415, R426). -/
def State.heldUp (s : State) (d : Nat) : Bool :=
  match s.domain? d with
  | some k => k.pausedInParent && s.memberCtxs d != []
  | none => false

/-- A kernel write of DOMk: none where the write breaks the chain; otherwise the state, with false where the group must wait. -/
def State.domWrite (s : State) (a : AgentId) (k : BitVec 2) (w : Word) : Option (State × Bool) :=
  let c := s.ctxOf a
  let v := setDom c.dom k ⟨w.getLsbD 31, w.setWidth 10⟩
  if !s.chainOk (s.tenantOf a) v then none
  else
    let old := c.innermost
    let new := { c with dom := v }.innermost
    let put (s : State) : State := s.updOf a (fun c => { c with dom := v })
    if old = new then some (put s, true)
    else
      match new with
      | none => some ((put (s.leaveDomain a)).updOf a Ctx.unpaused, true)
      | some d =>
        if s.instantDone d.toNat || s.heldUp d.toNat then some (s, false)
        else some ((put (s.leaveDomain a)).joinDomain a d.toNat, true)

/-! ### DOMNEW and DOMFREE (15 R412-R414) -/

/-- The descriptor's OPs. -/
def descOps (ws : List Word) : Vector (BitVec 4) 64 :=
  Vector.ofFn (fun i : Fin 64 => ((ws[4 + i.val / 8]?).getD 0).extractLsb' (4 * (i.val % 8)) 4)

/-- FORMAT, the reserved fields and the OPs of a descriptor. -/
def descOk (ws : List Word) : Bool :=
  let w (i : Nat) : Nat := ((ws[i]?).getD 0).toNat
  bitsOf (w 0) 31 24 = 8 && bitsOf (w 0) 22 10 = 0 && (bitsOf (w 0) 23 23 = 1 || bitsOf (w 0) 9 0 = 0) && bitsOf (w 1) 31 16 = 0 &&
    w 2 = 0 && w 3 = 0 && (descOps ws).toList.all (fun o => o.toNat ≤ 5)

/-- The parent a descriptor names is a domain of the tenant that can have a child. -/
def State.parentOk (s : State) (tenant : Nat) (w0 : Nat) : Bool :=
  if bitsOf w0 23 23 = 0 then true
  else
    match s.domain? (bitsOf w0 9 0) with
    | some p => p.tenant = tenant && p.level < 3
    | none => false

/-- The lowest free ID of the tenant's range. -/
def State.freeDomain (s : State) (tenant : Nat) : Option Nat :=
  match lookup? s.partitions tenant with
  | some p => ((List.range p.domCount).map (p.domBase + ·)).find? (fun d => (s.domain? d).isNone)
  | none => none

/-- A domain as DOMNEW makes it. -/
def State.newDomain (s : State) (tenant : Nat) (ws : List Word) : Domain :=
  let w0 := ((ws[0]?).getD 0).toNat
  let parent := if bitsOf w0 23 23 = 1 then some (bitsOf w0 9 0) else none
  let level := match parent with
    | some p => (match s.domain? p with
      | some x => x.level + 1
      | none => 0)
    | none => 0
  { tenant := tenant, level := level, parent := parent, wdog := ((ws[1]?).getD 0).setWidth 16, ops := descOps ws
    status := Vector.replicate 64 .unknown, value := Vector.replicate 64 0, instant := 0, flags := 0, span := .none, wdCount := 0
    wdOn := false, pausedInParent := false }

/-- DOMNEW (15 R413). -/
def execDomnew (a b : XReg) (s : State) : Res :=
  let d := s.ctx.getX b
  if d.toNat % 4 ≠ 0 then s.trap Cause.align d
  else
    match tcmOrScratch s.cur d.toNat 48 with
    | none => s.trap Cause.loadWindow d
    | some flat =>
      match s.readBlock flat 12 with
      | none => s.trap Cause.ecc d
      | some (s, ws) =>
        let t := s.tenantOf s.cur
        let fails (n : Word) : Res := s.done (fun c => (c.setX a n).setT false)
        if !descOk ws then fails 1
        else if !s.parentOk t ((ws[0]?).getD 0).toNat then fails 2
        else
          match s.freeDomain t with
          | none => fails 3
          | some id =>
            { s with domains := s.domains ++ [(id, s.newDomain t ws)] }.done (fun c => (c.setX a (BitVec.ofNat 32 id)).setT true)

/-- A launch that has not completed names a domain (02 R39; 15 R414). -/
def Launch.namesDomain (l : Launch) (d : Nat) : Bool :=
  let w := (l.recWords[13]?).getD 0
  w.getLsbD 31 && (w.toNat % 1024 = d)

/-- DOMFREE (15 R414). -/
def execDomfree (b : XReg) (s : State) : Res :=
  let d := (s.ctx.getX b).toNat % 1024
  match s.domain? d with
  | none => s.done (·.setT false)
  | some k =>
    if k.tenant = s.tenantOf s.cur && s.memberCtxs d == [] && s.children d == [] && !s.launches.any (fun l => l.namesDomain d) then
      { s with domains := erase s.domains d }.done (·.setT true)
    else s.done (·.setT false)

/-! ### Delay registers (15 R429) -/

/-- DLYW. -/
def execDlyw (a : DReg) (b : XReg) (s : State) : Res :=
  s.inDomain (fun _ =>
    let x := s.ctx.getX b
    s.done (fun c => { c with dnxt := c.dnxt.set a.toNat x }))
/-- DLYR. -/
def execDlyr (a : XReg) (b : DReg) (s : State) : Res :=
  s.inDomain (fun _ =>
    let x := s.ctx.dcur[b.toNat]
    s.done (fun c => c.setX a x))

/-! ### Monitored waits and bells (15 R435, R438) -/

/-- A wait on a scratchpad word (15 R438). -/
def State.monitor_ (s : State) (b c : XReg) (eq : Bool) : Res :=
  let ea := s.ctx.getX b
  let v := s.ctx.getX c
  if ea.toNat % 4 ≠ 0 then s.trap Cause.align ea
  else
    match s.cur, place s.cur ea.toNat with
    | .core _ _ _ _, .scratch flat =>
      if s.hasBad flat 4 then s.trap Cause.ecc ea
      else if (s.wordAt flat = v) = eq then (s.correct flat 4).done id
      else (s.correct flat 4).waits .monitor
    | _, _ => s.trap Cause.loadWindow ea

/-- WAITEQ. -/
def execWaiteq (b c : XReg) (s : State) : Res := s.monitor_ b c true
/-- WAITNE. -/
def execWaitne (b c : XReg) (s : State) : Res := s.monitor_ b c false

/-- MONITOR_WAKE (15 R438): the waiting group tests again. -/
def execMonitorWake (ag : AgentId) (s : State) : Res :=
  .next (s.updOf ag (fun c => if c.wait = .monitor then { c with wait := .none } else c))

/-- BELL (15 R435): the release is at the scope that spans sender and target. -/
def execBell (b : XReg) (s : State) : Res :=
  let w := s.ctx.getX b
  match (if bitsOf w.toNat 16 5 = 0 then agentOfName w else none) with
  | none => s.trap Cause.storeWindow w
  | some dst =>
    match s.passRelease ((spanOf s.cur).join (spanOf dst)).scope.toNat s.cur with
    | none => s.waits .interlock
    | some t => { t with mesh := t.mesh ++ [Mesh.ring s.cur dst (w.setWidth 5) (s.tenantOf s.cur)] }.done id

/-- The tenant of a bell's owner: that of the cluster, or of the hart. -/
def State.bellTenant (s : State) (a : AgentId) : Option Nat :=
  match a with
  | .core st c _ _ => s.clusterTenant st c
  | h => some (s.hartOf h).tenant.toNat

/-- A bell counts a ring; where the cluster's partition is switched out, the count saved with its event unit does (15 R433, R435). -/
def State.ringBell (s : State) (dst : AgentId) (bell : BitVec 5) : State :=
  let f (u : Cluster) : Cluster := { u with bells := assign u.bells bell.toNat (bellOf u bell.toNat).ring }
  let home := unitKey dst
  match s.switches.find? (fun p => p.2.team.isNone && p.2.phase = .saved && (lookup? p.2.units home).isSome) with
  | some w => { s with switches := s.switches.map (fun p =>
      if p.1 = w.1 then (p.1, { p.2 with units := p.2.units.map (fun u => if u.1 = home then (u.1, f u.2) else u) }) else p) }
  | none => s.updUnit dst f

/-- Rings from one context to one bell arrive in issue order. -/
def ringFirst (mesh : List Mesh) (src dst : AgentId) (bell : BitVec 5) : Bool :=
  mesh.all (fun m =>
    match m with
    | .ring a b n _ => !(a = src && b = dst && n = bell)
    | _ => true)

/-- BELL_RING_ARRIVAL (15 R435): another tenant's ring is dropped. -/
def execBellRingArrival (n : Nat) (s : State) : Res :=
  match s.mesh[n]? with
  | some (.ring src dst bell tenant) =>
    if ringFirst (s.mesh.take n) src dst bell then
      let s' := { s with mesh := s.mesh.eraseIdx n }
      .next (if s.bellTenant dst = some tenant then s'.ringBell dst bell else s')
    else .next s
  | _ => .next s

/-! ### Accesses of the event unit as steps of their own (15 R434-R437)

The context in issue makes the access that the event names; its group is not advanced, which the load or store does. -/

/-- A load at an event-unit offset by the context in issue. -/
def State.eventRead (s : State) (a : XReg) (off : Nat) : Res :=
  let ea := BitVec.ofNat 32 (0x80000000 + off)
  match s.eventLoad s.cur off ea with
  | .got t bs => .next (t.upd (fun c => c.ready.setX a (wordOfBytes bs)))
  | .wait t => .next t
  | .bad code tval => s.trap code tval

/-- A store at an event-unit offset by the context in issue. -/
def State.eventWrite (s : State) (off : Nat) (v : Word) : Res :=
  let ea := BitVec.ofNat 32 (0x80000000 + off)
  match s.eventStore s.cur off ea v with
  | .done t => .next t
  | .wait t => .next t
  | .bad code tval => s.trap code tval

/-- BELLWAIT_LOAD (15 R435). -/
def execBellwaitLoad (a : XReg) (bell : BitVec 5) (s : State) : Res := s.eventRead a (4 * bell.toNat)
/-- BELLCNT_STORE (15 R434). -/
def execBellcntStore (bell : BitVec 5) (value : Word) (s : State) : Res := s.eventWrite (0x80 + 4 * bell.toNat) value
/-- BARCFG_STORE (15 R436). -/
def execBarcfgStore (bar : BitVec 4) (value : Word) (s : State) : Res := s.eventWrite (0x100 + 4 * bar.toNat) value
/-- BARARR_LOAD (15 R436). -/
def execBararrLoad (a : XReg) (bar : BitVec 4) (s : State) : Res := s.eventRead a (0x140 + 4 * bar.toNat)
/-- MUTEX_LOAD (15 R437). -/
def execMutexLoad (a : XReg) (mutex : BitVec 4) (s : State) : Res := s.eventRead a (0x180 + 4 * mutex.toNat)
/-- MUTEX_STORE (15 R437). -/
def execMutexStore (mutex : BitVec 4) (s : State) : Res := s.eventWrite (0x180 + 4 * mutex.toNat) 0

/-- BARRIER_RELEASE (15 R436): the participants whose generation has passed wake. -/
def execBarrierRelease (u : AgentId) (bar : BitVec 4) (s : State) : Res :=
  match u with
  | .core st c _ _ =>
    let gen := (s.wordAt (scratchAt st c (4 * (barOf (s.unitOf u) bar.toNat).word.toNat))).toNat / 65536
    .next { s with ctxs := s.ctxs.map (fun p =>
      if unitKey p.1 = unitKey u then
        (p.1, match p.2.arrival with
          | some (k, g, _) => if k = bar.toNat ∧ (g ≠ gen ∨ p.2.barrierFree) ∧ p.2.wait = .event then { p.2 with wait := .none, barrierFree := true } else p.2
          | none => p.2)
      else p) }
  | _ => .next s

end Sys2Proof.Machine
end

