-- ==== Sys2Proof/Machine/Jobs.lean ====
section
/-!
DEFINITION. Machine/Jobs.lean: copy jobs and the copy unit (12 R362-R368).
-/
namespace Sys2Proof.Machine

/-- Unfinished jobs of the cluster of a core context. -/
def State.jobsOf (s : State) (a : AgentId) : List Job :=
  match clusterOf a with
  | some (st, c) => (s.unitOf (.core st c 0 0)).jobs
  | none => []

/-- A local address lies in a hardware-managed range of the agent's own core. -/
def State.managedAt (s : State) (a : AgentId) (ea : Nat) : Bool :=
  match place a ea with
  | .ownTcm o => s.hwManaged a o
  | _ => false

/-- The trap of a JOB's mailbox address (12 R364). -/
def State.mailFault (s : State) (mb : Word) : Option (BitVec 8) :=
  if mb.toNat % 4 ≠ 0 then some Cause.align
  else if (tcmOrScratch s.cur mb.toNat 4).isNone || s.managedAt s.cur mb.toNat then some Cause.storeWindow
  else none

/-- JOB (12 R364). As a store-release it waits for the context's earlier accesses (17 R468). On a hart nothing is submitted. The checks of
the mailbox address come before ECC_UNCORRECTABLE of another word of the descriptor (06 R180). -/
def execJob (a b : XReg) (s : State) : Res :=
  let d := s.ctx.getX b
  if d.toNat % 32 ≠ 0 then s.trap Cause.align d
  else
    match tcmOrScratch s.cur d.toNat 32 with
    | none => s.trap Cause.loadWindow d
    | some flat =>
      let mb := s.wordAt (flat + 28)
      match (if s.hasBad (flat + 28) 4 then none else s.mailFault mb), s.readBlock flat 8, tcmOrScratch s.cur mb.toNat 4 with
      | some code, _, _ => (s.correct flat 32).trap code mb
      | none, none, _ => s.trap Cause.ecc d
      | none, some _, none => (s.correct flat 32).trap Cause.storeWindow mb
      | none, some (s, ws), some mflat =>
        if isHart s.cur then s.done (·.setT false)
        else if 32 ≤ s.unit.jobs.length ∨ 8 ≤ (s.unit.jobs.filter (fun j => j.ctx = s.cur)).length then s.done (·.setT false)
        else if !s.released s.cur then s.waits .interlock
        else
          let id := s.unit.jobCounter
          let job : Job := ⟨id, s.cur, ws, s.ctx.windows, [], [], false⟩
          let s := (s.storeWord mflat 0).updUnit s.cur (fun u => { u with jobs := u.jobs ++ [job], jobCounter := id + 1 })
          s.done (fun k => (k.setX a (id.setWidth 32)).setT true)

/-- The mailbox read of POLLJ and WAITJ: its number, or the trap. -/
def State.mailbox (s : State) (ea : Word) : Except (BitVec 8) Nat :=
  if ea.toNat % 4 ≠ 0 then .error Cause.align
  else
    match tcmOrScratch s.cur ea.toNat 4 with
    | none => .error Cause.loadWindow
    | some flat => if s.hasBad flat 4 then .error Cause.ecc else .ok flat

/-- POLLJ (12 R367). -/
def execPollj (b : XReg) (s : State) : Res :=
  let ea := s.ctx.getX b
  match s.mailbox ea with
  | .error code => s.trap code ea
  | .ok flat =>
    let v := s.wordAt flat
    (s.correct flat 4).done (·.setT (v.getLsbD 31))

/-- WAITJ (12 R367): once it waits, it waits for the copy unit's write of the mailbox, whatever else is stored there. -/
def execWaitj (b : XReg) (s : State) : Res :=
  let ea := s.ctx.getX b
  if s.ctx.wait = .job ea false then s.waits (.job ea false)
  else
    match s.mailbox ea with
    | .error code => s.trap code ea
    | .ok flat =>
      let v := s.wordAt flat
      if s.ctx.wait = .job ea true ∨ v.getLsbD 31 then (s.correct flat 4).done (·.setT true)
      else if (s.jobsOf s.cur).any (fun j => j.ctx = s.cur && (j.words[7]?).getD 0 = ea) then (s.correct flat 4).waits (.job ea false)
      else (s.correct flat 4).done (·.setT false)

/-- JDRAIN (12 R368). -/
def execJdrain (s : State) : Res :=
  if (s.jobsOf s.cur).any (fun j => j.ctx = s.cur) then s.waits .interlock else s.done id

/-! ### The copy unit (12 R362, R363, R365, R366) -/

/-- Field values of a job. -/
def Job.word (j : Job) (n : Nat) : Nat := ((j.words[n]?).getD 0).toNat
def Job.srcDram (j : Job) : Bool := bitsOf (j.word 0) 19 18 = 1
def Job.dstDram (j : Job) : Bool := bitsOf (j.word 0) 17 16 = 1
def Job.rows (j : Job) : Nat := bitsOf (j.word 0) 15 0 + 1
def Job.len (j : Job) : Nat := bitsOf (j.word 1) 19 0
def Job.src (j : Job) : Nat := j.word 2 + (if j.srcDram then bitsOf (j.word 3) 15 0 * 2 ^ 32 else 0)
def Job.dst (j : Job) : Nat := j.word 4 + (if j.dstDram then bitsOf (j.word 3) 31 16 * 2 ^ 32 else 0)

/-- The table of 12 R362 holds. Addresses of DRAM may be any. -/
def Job.wellFormed (j : Job) : Bool :=
  bitsOf (j.word 0) 31 24 = 4 && bitsOf (j.word 0) 23 20 = 0 && bitsOf (j.word 0) 19 18 ≤ 1 && bitsOf (j.word 0) 17 16 ≤ 1 &&
    bitsOf (j.word 1) 31 20 = 0 && j.len ≠ 0 && j.len % 4 = 0 && (j.srcDram || (j.word 2 % 4 = 0 && bitsOf (j.word 3) 15 0 = 0)) &&
    (j.dstDram || (j.word 4 % 4 = 0 && bitsOf (j.word 3) 31 16 = 0)) && j.word 5 % 4 = 0 && j.word 6 % 4 = 0

/-- The address of row `r`: local addresses wrap at 2^32, DRAM addresses at 2^48 (log 21). -/
def rowAddr (base stride : Nat) (dram : Bool) (r : Nat) : Nat :=
  ((base : Int) + r * (BitVec.ofNat 32 stride).toInt).emod (if dram then 2 ^ 48 else 2 ^ 32) |>.toNat

/-- The `n` bytes from an address by the 4-byte words that hold them (17 R464): address and bytes of each. -/
def rowPieces (dram : Bool) (addr n : Nat) : List (Nat × Nat) :=
  let w := 4
  let top := if dram then 2 ^ 48 else 2 ^ 32
  (List.range ((addr + n - 1) / w - addr / w + 1)).map (fun i =>
    let lo := max addr ((addr / w + i) * w)
    (lo % top, min (addr + n) ((addr / w + i) * w + w) - lo))

/-- The number of a DRAM byte for a tenant, or the REASON of 12 R363. -/
def State.jobDram (s : State) (tenant va : Nat) (i : Intent) : State × Except Nat Nat :=
  match s.translate (homeMemoryCore va) tenant va i with
  | (s, .ok row) => (s, .ok (vaAt va row))
  | (s, .fail r) => (s, .error (if r = 4 then 6 else 4))

/-- The number of a local word in the submitter's map, or the REASON. -/
def State.jobLocal (s : State) (j : Job) (ea : Nat) (p : Perm) : Except Nat Nat :=
  let bad := if p = .load then 2 else 3
  match place j.ctx ea with
  | .ownTcm o => if p = .store && s.hwManaged j.ctx o then .error 3 else .ok (ownTcmAt j.ctx o)
  | .scratch f => .ok f
  | .matrix f => .ok f
  | .peer st c k o =>
    if p = .store && s.hwManaged (.core st c k 0) o then .error 3
    else if s.present j.ctx st c k then .ok (tcmAt st c k o) else .error 5
  | .shared =>
    match homeOf j.windows ea p with
    | none => .error bad
    | some (st, sl, o) => if s.sliceTenant st sl o = some (s.tenantOf j.ctx) then .ok (sliceAt st sl o) else .error bad
  | .event _ => .error bad
  | .aperture _ => .error bad
  | .port _ => .error bad
  | .unmapped => .error bad

def State.jobPlace (s : State) (j : Job) (dram : Bool) (addr : Nat) (p : Perm) : State × Except Nat Nat :=
  if dram then s.jobDram (s.tenantOf j.ctx) addr (if p = .load then .read else .write) else (s, s.jobLocal j addr p)

/-- Read one piece of the source; the REASON where it faults. -/
def State.readPiece (s : State) (j : Job) (p : Nat × Nat) : State × Except Nat (List Byte) :=
  match s.jobPlace j j.srcDram p.1 .load with
  | (s, .error e) => (s, .error e)
  | (s, .ok flat) => if s.hasBad flat p.2 then (s, .error 6) else (s.correct flat p.2, .ok (s.bytesAt flat p.2))

/-- The other half of an 8-byte word of DRAM, by number, where the pieces of a row write both halves whole. -/
def otherHalf (ps : List (Nat × Nat)) (i : Nat) : Option Nat :=
  match ps[i]? with
  | none => none
  | some p =>
    let k := if p.1 % 8 < 4 then i + 1 else i - 1
    match ps[k]? with
    | some q => if k ≠ i && p.2 = 4 && q.2 = 4 && p.1 / 8 = q.1 / 8 then some k else none
    | none => none

/-- Write one piece of the destination, which the trace ring of a slice records; the REASON where it faults. A word of DRAM written in
part must be readable. `half` says that the row writes the other half of its word too, and whether it has done so: then the word has been
written whole, and an error in it is gone (12 R371). -/
def State.writePiece (s : State) (j : Job) (p : Nat × Nat) (bs : List Byte) (half : Option Bool) : State × Option Nat :=
  match s.jobPlace j j.dstDram p.1 .store with
  | (s, .error e) => (s, some e)
  | (s, .ok flat) =>
    let part : Bool := p.2 < eccSize flat && (half.isNone || flat / 2 ^ 44 ≠ 4)
    if part && s.hasBad flat p.2 then (s, some 6)
    else
      let s := (if part then s.correct flat p.2 else s).storeBytes flat bs
      let s := if half = some true && flat / 2 ^ 44 = 4 then s.storeBytes (flat / 8 * 8) (s.bytesAt (flat / 8 * 8) 8) else s
      let unit := match clusterOf j.ctx with
        | some (st, c) => .copyUnit st c
        | none => j.ctx
      if flat / 2 ^ 44 = 3 then
        (s.ringEntry ((flat - space 3) / 0x180000 / 64) ((flat - space 3) / 0x180000 % 64) ((flat - space 3) % 0x180000) 4
          unit false (s.tenantOf j.ctx) 15 (wordOfBytes bs), none)
      else (s, none)

/-- Bytes come before those that a read gives. -/
def readBefore (r : State × Except Nat (List Byte)) (bs : List Byte) : State × Except Nat (List Byte) :=
  match r with
  | (s, .ok more) => (s, .ok (bs ++ more))
  | (s, .error e) => (s, .error e)

/-- Read the pieces of a row from number `i` on, those read before as they were read. -/
def State.jobRead (s : State) (j : Job) (early : List (Nat × List Byte)) : Nat → List (Nat × Nat) → State × Except Nat (List Byte)
  | _, [] => (s, .ok [])
  | i, p :: rest =>
    match lookup? early i, s.readPiece j p with
    | none, (s, .error e) => (s, .error e)
    | none, (s, .ok bs) => readBefore (s.jobRead j early (i + 1) rest) bs
    | some bs, _ => readBefore (s.jobRead j early (i + 1) rest) bs

/-- Write the pieces of a row, which are `all`, from number `i` on that have not been written. -/
def State.jobWrite (s : State) (j : Job) (all : List (Nat × Nat)) (wrote : List Nat) : Nat → List (Nat × Nat) → List Byte → State × Option Nat
  | _, [], _ => (s, none)
  | i, p :: rest, bs =>
    match (if wrote.contains i then (s, none) else s.writePiece j p (bs.take p.2) ((otherHalf all i).map wrote.contains)) with
    | (s, some e) => (s, some e)
    | (s, none) => s.jobWrite j all (i :: wrote) (i + 1) rest (bs.drop p.2)

/-- The pieces of the source and of the destination of a row. -/
def Job.sources (j : Job) (r : Nat) : List (Nat × Nat) := rowPieces j.srcDram (rowAddr j.src (j.word 5) j.srcDram r) j.len
def Job.targets (j : Job) (r : Nat) : List (Nat × Nat) := rowPieces j.dstDram (rowAddr j.dst (j.word 6) j.dstDram r) j.len

/-- A row in progress, or one not begun. -/
def Job.part (j : Job) (r : Nat) : RowPart := (j.parts.find? (fun p => p.row = r)).getD ⟨r, [], []⟩

/-- Copy what is left of row `r`: its source is read, and then its destination written (12 R365). -/
def State.jobRow (s : State) (j : Job) (r : Nat) : State × Option Nat :=
  match s.jobRead j (j.part r).read 0 (j.sources r) with
  | (s, .error e) => (s, some e)
  | (s, .ok bs) => s.jobWrite j (j.targets r) (j.part r).wrote 0 (j.targets r) bs

/-- Copy rows in order; the REASON where one faults. -/
def State.jobRows (s : State) (j : Job) : List Nat → State × Option Nat
  | [] => (s, none)
  | r :: rest =>
    match s.jobRow j r with
    | (s, some e) => (s, some e)
    | (s, none) => s.jobRows j rest

/-- Rows of a job not yet copied. -/
def Job.left (j : Job) : List Nat := (List.range j.rows).filter (fun r => !j.done.contains r)

/-- The rows in progress are finished (18 R478). -/
def State.finishRows (s : State) (j : Job) : State := (s.jobRows j (j.parts.map (·.row))).1

/-- Replace a job. -/
def State.putJob (s : State) (u : AgentId) (j : Job) : State :=
  s.updUnit u (fun x => { x with jobs := x.jobs.map (fun k => if k.id = j.id then j else k) })

/-- The mailbox word (12 R363). -/
def mailWord (status reason : Nat) (id : BitVec 16) : Word :=
  BitVec.ofNat 32 (2 ^ 31 + status * 2 ^ 28 + reason * 2 ^ 24 + id.toNat)

/-- Write the mailbox of a job in its submitter's TCM or scratchpad, which ends a WAITJ of the submitter there (12 R363, R367). -/
def State.writeMail (s : State) (j : Job) (w : Word) : State :=
  let mb := (j.words[7]?).getD 0
  let s := if (s.ctxOf j.ctx).wait = .job mb false then s.updOf j.ctx (fun c => { c with wait := .job mb true }) else s
  match tcmOrScratch j.ctx mb.toNat 4 with
  | some flat => s.storeWord flat w
  | none => s

/-- Identifiers of faults in order, lowest first (06 R184). -/
def insertId (id : BitVec 16) : List (BitVec 16) → List (BitVec 16)
  | [] => [id]
  | x :: rest => if id ≤ x then id :: x :: rest else x :: insertId id rest

/-- Run a job to its end (12 R363, R365, R366). -/
def State.endJob (s : State) (u : AgentId) (j : Job) : State :=
  let s := s.updUnit u (fun x => { x with jobs := x.jobs.filter (fun k => k.id ≠ j.id) })
  let r := if j.wellFormed then s.jobRows j j.left else (s, some 1)
  match r with
  | (s, none) => s.writeMail j (mailWord 0 0 j.id)
  | (s, some e) =>
    (s.writeMail j (mailWord 1 e j.id)).updOf j.ctx (fun c => { c with jobFaults := insertId j.id c.jobFaults })

/-- The cluster that holds the jobs of a copy unit, named by the unit or by a context of the cluster. -/
def jobUnit (u : AgentId) : AgentId :=
  match clusterOf u with
  | some (st, c) => .core st c 0 0
  | none => u

/-- The copy unit of that cluster, as an agent. -/
def copyAgent (u : AgentId) : AgentId :=
  match clusterOf u with
  | some (st, c) => .copyUnit st c
  | none => u

/-- The copy unit may go on with a row of a job: any of those left, or one in progress when its submitter has been stopped (18 R478). -/
def State.openRows (s : State) (j : Job) : List Nat :=
  if !j.started || !j.wellFormed then []
  else if s.mayStart j.ctx then j.left
  else j.left.filter (fun r => j.parts.any (fun p => p.row = r))

/-- A running job copies a row, which job and which row are free (12 R365). A row that would fault is left to the end of the job. -/
def State.jobAdvance (s : State) (u : AgentId) : State :=
  let run := (s.unitOf u).jobs.filter (fun j => s.openRows j ≠ [])
  match run[Config.choice s.draws % run.length]? with
  | none => s
  | some j =>
    let rows := s.openRows j
    let r := (rows[Config.choice (s.draws + 1) % rows.length]?).getD 0
    match s.jobRow j r with
    | (_, some _) => { s with draws := s.draws + 2 }
    | (t, none) =>
      { t with draws := t.draws + 2 }.putJob u { j with done := r :: j.done, parts := j.parts.filter (fun p => p.row ≠ r) }

/-- The jobs that may start: not those of a context that has been stopped (18 R478). -/
def State.waitingJobs (s : State) (u : AgentId) : List Job := (s.unitOf u).jobs.filter (fun j => !j.started && s.mayStart j.ctx)

/-- JOB_START (12 R365): the oldest job not started begins, when fewer than four run; otherwise the copy unit goes on with those that
run (log 21). -/
def execJobStart (u : AgentId) (s : State) : Res :=
  let s := s.orderFor (copyAgent u)
  let u := jobUnit u
  match s.waitingJobs u with
  | j :: _ =>
    if 4 ≤ ((s.unitOf u).jobs.filter (·.started)).length then .next (s.jobAdvance u) else .next (s.putJob u { j with started := true })
  | [] => .next (s.jobAdvance u)

/-- JOB_END (12 R363): a job of a stopped context ends only when no row is left. -/
def execJobEnd (u : AgentId) (id : BitVec 16) (s : State) : Res :=
  let s := s.orderFor (copyAgent u)
  let u := jobUnit u
  match (s.unitOf u).jobs.find? (fun j => j.id = id && j.started && (s.mayStart j.ctx || (j.wellFormed && j.left = []))) with
  | some j => .next (s.endJob u j)
  | none => .next s

/-! ### Words copied before the others (12 R365, 17 R464) -/

/-- Read source pieces of a row in progress that are not yet read; none where one faults. -/
def State.readPieces (s : State) (j : Job) (p : RowPart) : List Nat → Option (State × RowPart)
  | [] => some (s, p)
  | i :: rest =>
    match lookup? p.read i, (j.sources p.row)[i]? with
    | none, some q =>
      match s.readPiece j q with
      | (s, .ok bs) => s.readPieces j { p with read := p.read ++ [(i, bs)] } rest
      | (_, .error _) => none
    | _, _ => s.readPieces j p rest

/-- Where the pieces of a row begin in it. -/
def pieceStarts (from_ : Nat) : List (Nat × Nat) → List Nat
  | [] => []
  | p :: rest => from_ :: pieceStarts (from_ + p.2) rest

/-- The source pieces that hold bytes `lo` to `hi - 1` of a row. -/
def Job.covering (j : Job) (r lo hi : Nat) : List Nat :=
  ((pieceStarts 0 (j.sources r)).zip (j.sources r)).zipIdx.filterMap (fun x =>
    if x.1.1 < hi && lo < x.1.1 + x.1.2.2 then some x.2 else none)

/-- The bytes of a row as read so far, with zeros where nothing is read. -/
def Job.rowBytes (j : Job) (p : RowPart) : List Byte :=
  (j.sources p.row).zipIdx.flatMap (fun x => (lookup? p.read x.2).getD (List.replicate x.1.2 0))

/-- A word of a row is read, or is written, before the others. A word that would fault is left to its row. -/
def State.jobPart (s : State) (u : AgentId) (id : BitVec 16) (r n : Nat) (write : Bool) : State :=
  let s := s.orderFor (copyAgent u)
  match (s.unitOf u).jobs.find? (fun j => j.id = id) with
  | none => s
  | some j =>
    let p := j.part r
    let put (s : State) (p : RowPart) : State := s.putJob u { j with parts := p :: j.parts.filter (fun q => q.row ≠ r) }
    if !(s.openRows j).contains r then s
    else if !write then
      match s.readPieces j p [n] with
      | some (t, p) => put t p
      | none => s
    else
      match (j.targets r)[n]?, (pieceStarts 0 (j.targets r))[n]? with
      | some q, some lo =>
        if p.wrote.contains n then s
        else
          match s.readPieces j p (j.covering r lo (lo + q.2)) with
          | none => s
          | some (t, p) =>
            match t.writePiece j q (((j.rowBytes p).drop lo).take q.2) ((otherHalf (j.targets r) n).map p.wrote.contains) with
            | (t, none) => put t { p with wrote := p.wrote ++ [n] }
            | (_, some _) => s
      | _, _ => s

end Sys2Proof.Machine
end

