-- ==== Sys2Proof/Machine/Teams.lean ====
section
/-!
DEFINITION. Machine/Teams.lean: launches, their teams and sites, and what the dispatcher and a service core learn of a retirement (02
R44-R46; 03 R59, R74, R80, R85).
-/
namespace Sys2Proof.Machine

/-! ### Fields of a launch record (02 R37) -/

def Launch.word (l : Launch) (n : Nat) : Nat := ((l.recWords[n]?).getD 0).toNat
def Launch.prio (l : Launch) : Nat := bitsOf (l.word 0) 23 21
def Launch.size (l : Launch) : Nat := bitsOf (l.word 0) 20 16 + 1
def Launch.count (l : Launch) : Nat := bitsOf (l.word 1) 23 0
def Launch.lid (l : Launch) : Word := BitVec.ofNat 32 (l.word 2)
def Launch.image (l : Launch) : Nat := bitsOf (l.word 4) 15 0 * 2 ^ 32 + l.word 3
def Launch.arg (l : Launch) (n : Nat) : Word := BitVec.ofNat 32 (l.word (5 + n))
def Launch.record (l : Launch) : Nat := bitsOf (l.word 8) 15 0 * 2 ^ 32 + l.word 7
/-- The dependences, 0 left out. -/
def Launch.deps (l : Launch) : List Word := ((List.range 4).map (fun i => BitVec.ofNat 32 (l.word (9 + i)))).filter (· ≠ 0)
def Launch.dv (l : Launch) : Bool := bitsOf (l.word 13) 31 31 = 1
def Launch.did (l : Launch) : Nat := bitsOf (l.word 13) 9 0
def Launch.chbufk (l : Launch) : Nat := bitsOf (l.word 14) 23 16
/-- The swap quantum in cycles (02 R37, 03 R81). -/
def Launch.quantum (l : Launch) : Nat := (if bitsOf (l.word 14) 15 0 = 0 then 2000 else bitsOf (l.word 14) 15 0) * 1100
def Launch.scrk (l : Launch) : Nat := bitsOf (l.word 15) 16 8
def Launch.tcmk (l : Launch) : Nat := bitsOf (l.word 15) 7 0

/-- Queue q belongs to tenant q >> 4 (03 R48). -/
def queueTenant (q : Nat) : Nat := q / 16
def Launch.tenant (l : Launch) : Nat := queueTenant l.q

/-- Teams of a launch: TCOUNT, or those started from the device queue so far (03 R78). -/
def Launch.total (l : Launch) : Nat :=
  match l.dq with
  | none => l.count
  | some d => d.started

/-- A launch is known by its queue and launch ID. -/
def Launch.named (l : Launch) (q : Nat) (lid : Word) : Bool := l.q = q && l.lid = lid

def State.launch? (s : State) (q : Nat) (lid : Word) : Option Launch := s.launches.find? (fun l => l.named q lid)

def State.updLaunch (s : State) (q : Nat) (lid : Word) (f : Launch → Launch) : State :=
  { s with launches := s.launches.map (fun l => if l.named q lid then f l else l) }

def Launch.team? (l : Launch) (n : Nat) : Option Team := l.teams.find? (fun t => t.index = n)

def Launch.updTeam (l : Launch) (n : Nat) (f : Team → Team) : Launch :=
  { l with teams := l.teams.map (fun t => if t.index = n then f t else t) }

/-- Team `n` stands at its site again: it comes last in the list, so the last team of a site there is the one that stood last. -/
def Launch.stands (l : Launch) (n : Nat) : Launch :=
  { l with teams := l.teams.filter (fun t => t.index ≠ n) ++
      (l.teams.filter (fun t => t.index = n)).map (fun t => { t with phase := .running }) }

/-- Give a launch its status, unless it has one (02 R47: a status is never rewritten). -/
def Launch.finish (l : Launch) (status reason : Nat) : Launch :=
  if l.status.isSome then l else { l with status := some ⟨status, reason⟩ }

/-! ### Sites (03 R80, R81) -/

/-- Place of a site in a list. -/
def sitePlace (x : Site) : List Site → Nat
  | [] => 0
  | y :: rest => if y = x then 0 else sitePlace x rest + 1

/-- The site number of a team of a swapping launch: that of the site where it stands, or team index mod k (03 R81). -/
def Launch.siteOf (l : Launch) (n : Nat) : Nat :=
  match l.team? n with
  | some t => sitePlace t.site l.sites
  | none => n % l.sites.length

/-- A team of the launch has not retired; a launch with a status places no further team (02 R36). -/
def Launch.unretired (l : Launch) (n : Nat) : Bool :=
  match l.team? n with
  | some t => t.phase ≠ .retired
  | none => l.status.isNone

/-- A word of the header of a device queue (03 R76). -/
def State.dqWord (s : State) (d : DeviceQueue) (off : Nat) : Word := s.wordAt (sliceAt d.stack d.slice (d.off + off))

/-- A template launch has consumed all: HEAD has reached or passed the final TAIL (03 R79). -/
def drained (f head : Word) : Bool := f - head = 0 || 2 ^ 31 ≤ (f - head).toNat

/-- The team indices that a launch has, or may still have: a template launch may start up to TCOUNT teams until it has consumed all (03 R78,
R79). -/
def State.topTeam (s : State) (l : Launch) : Nat :=
  match l.dq with
  | none => l.count
  | some d =>
    match d.final with
    | some f => if drained f (s.dqWord d 4) && d.got.isNone then d.started else l.count
    | none => l.count

/-- Unretired teams assigned to a site, in order of team index. -/
def Launch.siteTeams (l : Launch) (k : Nat) : List Nat :=
  (List.range l.total).filter (fun n => l.siteOf n = k && l.unretired n)

/-- The site of a team is held: the team has not retired, or others of a swapping launch need it, among the first `top` (03 R80). -/
def Launch.holds (l : Launch) (top : Nat) (t : Team) : Bool :=
  t.phase ≠ .retired || (l.sites.contains t.site &&
    (List.range top).any (fun n => l.siteOf n = sitePlace t.site l.sites && l.unretired n))

/-- Sites that a launch holds against placement: those of its teams, and those reserved for a gang (03 R65). A site of a template launch is
held while a team that may still start would be assigned to it (DESIGN CHOICE: 03 R80 does not speak of teams not yet started; log 24). -/
def Launch.heldSites (l : Launch) (top : Nat) : List Site := (l.teams.filter (l.holds top)).map (·.site) ++ l.reserved

def State.heldSites (s : State) : List Site := s.launches.flatMap (fun l => l.heldSites (s.topTeam l))

/-- The contexts of sites that nothing holds any more become idle (03 R74). -/
def State.freeSeats (s : State) (site : Site) : State :=
  let held := s.heldSites.flatMap (fun x => x.seats.map (·.ctx))
  site.seats.foldl (fun s p =>
    if (s.ctxOf p.ctx).phase = .reserved && !held.contains p.ctx then s.updOf p.ctx (fun c => { c with phase := .idle }) else s) s

/-- Sites of a swapping launch that nothing holds any more are released (03 R80). -/
def State.freeSites (s : State) (q : Nat) (lid : Word) : State :=
  match s.launch? q lid with
  | none => s
  | some l => l.sites.foldl State.freeSeats s

/-! ### Retirement counted (02 R44-R46; 03 R59, R74, R85) -/

/-- A context that belongs to a team, children included. -/
def Origin.ofTeam (o : Origin) (q : Nat) (lid : Word) (n : Nat) : Bool :=
  match o with
  | .member q' l' n' _ => q' = q && l' = lid && n' = n
  | .none => false
  | .message _ => false
  | .loader _ => false
  | .firmware => false

/-- Members and children of a team that are live or saved. -/
def State.teamAlive (s : State) (q : Nat) (lid : Word) (n : Nat) : Bool :=
  s.ctxs.any (fun p => p.2.phase = .live && p.2.origin.ofTeam q lid n) ||
    s.switches.any (fun w => w.2.ctxs.any (fun x => x.ctx.origin.ofTeam q lid n))

/-- When every member and child of a team has retired or stopped, the team is counted once and its site is released (03 R74). -/
def State.settleTeam (s : State) (q : Nat) (lid : Word) (n : Nat) : State :=
  match s.launch? q lid with
  | none => s
  | some l =>
    match l.team? n with
    | none => s
    | some t =>
      if t.phase = .retired ∨ t.phase = .loading ∨ s.teamAlive q lid n then s
      else
        let s := s.updLaunch q lid (fun l => { l.updTeam n (fun t => { t with phase := .retired }) with
          tdone := l.tdone + bit (!t.stopped && !t.failed), tfail := l.tfail + bit (!t.stopped && t.failed) })
        s.freeSeats t.site

/-- A member or child of a team has retired, or was stopped: how it ended, and with which cause. -/
def State.memberEnded (s : State) (a : AgentId) (q : Nat) (lid : Word) (n : Nat) (how : Retire) : State :=
  let failed : Bool := match how with
    | .ended => false
    | .failed => true
    | .fatal _ => true
    | .stopped => false
  let cause : BitVec 8 := match how with
    | .fatal c => c
    | .ended => 0
    | .failed => 0
    | .stopped => 0
  let s := s.updLaunch q lid (fun l =>
    { l.updTeam n (fun t => { t with ended := t.ended ++ [(a, !failed)], failed := t.failed || failed, stopped := t.stopped || how = .stopped }) with
      fctx := if failed && l.fctx = 0xFFFFFFFF then BitVec.ofNat 32 (agentNo a) else l.fctx
      fcause := if failed && l.fctx = 0xFFFFFFFF then cause else l.fcause })
  s.settleTeam q lid n

def State.updQueue (s : State) (q : Nat) (f : HostQueue → HostQueue) : State :=
  match lookup? s.queues q with
  | some h => { s with queues := assign s.queues q (f h) }
  | none => s

/-- A context started by an active message has retired (03 R59); a child does not count in AM_DONE (06 R178). -/
def State.messageEnded (s : State) (a : AgentId) (q : Nat) (child : Bool) (how : Retire) : State :=
  s.updQueue q (fun h =>
    let h := if child || how = .stopped then h else { h with amDone := h.amDone + 1 }
    match how with
    | .failed => { h with fv := true, fcause := 0, fctx := BitVec.ofNat 20 (agentNo a) }
    | .fatal c => { h with fv := true, fcause := c, fctx := BitVec.ofNat 20 (agentNo a) }
    | .ended => h
    | .stopped => h)

/-- A loader program has ended (03 R84, R85): the hart has its TENANT again. LSTATE and LCAUSE describe the loader of the queue's last entry
that started or stopped one, which LSTACK and LCHAN name; while that entry's loader is being started, LSTATE stays at 1, however the old
loader of the queue ends. -/
def State.loaderEnded (s : State) (a : AgentId) (q : Nat) (how : Retire) : State :=
  let ch := match a with
    | .memoryCore _ c => c
    | _ => 0
  (s.updHart a (fun h => { h with tenant := h.former })).updQueue q (fun h =>
    if h.lstack ≠ stackOf a ∨ h.lchan ≠ ch ∨ h.starting.isSome then h
    else
      match how with
      | .ended => { h with lstate := 3, lcause := 0 }
      | .failed => { h with lstate := 4, lcause := 0 }
      | .fatal c => { h with lstate := 4, lcause := c }
      | .stopped => { h with lstate := 5, lcause := 0 })

/-- The context has ended: it is counted for what started it. -/
def State.countEnd (s : State) (a : AgentId) (o : Origin) (child : Bool) (how : Retire) : State :=
  match o with
  | .member q lid n _ => s.memberEnded a q lid n how
  | .message q => s.messageEnded a q child how
  | .loader q => s.loaderEnded a q how
  | .none => s
  | .firmware => s

end Sys2Proof.Machine
end

