-- ==== Sys2Proof/Machine/Int.lean ====
section
/-!
DEFINITION. Machine/Int.lean: the integer instructions (06 R154-R161).
-/
namespace Sys2Proof.Machine

/-- An integer instruction with an optional c: x[a] := f y z (06 R154). -/
def State.alu (s : State) (a b : XReg) (c : Option XReg) (f : Word → Word → Word) : Res :=
  let o := s.ctx.xOperands a b c
  s.done (fun k => k.setX a (f o.1 o.2))

/-- An integer instruction without c: x[a] := f y (06 R154). -/
def State.alu1 (s : State) (a b : XReg) (f : Word → Word) : Res :=
  let y := s.ctx.getX b
  s.done (fun k => k.setX a (f y))

/-- A compare: T := f x[a] x[b], no register written (06 R159). -/
def State.cmp (s : State) (a b : XReg) (f : Word → Word → Bool) : Res :=
  let y := s.ctx.getX a
  let z := s.ctx.getX b
  s.done (fun k => k.setT (f y z))

/-- An instruction that writes x[a] and T (06 R157, R158). -/
def State.aluT (s : State) (a b : XReg) (c : Option XReg) (f : Word → Word → Word × Bool) : Res :=
  let o := s.ctx.xOperands a b c
  s.done (fun k => (k.setX a (f o.1 o.2).1).setT (f o.1 o.2).2)

/-- The shift or rotate amount z[4:0] (06 R155). -/
def amount (z : Word) : Nat := z.toNat % 32

def sll (y z : Word) : Word := y <<< amount z
def srl (y z : Word) : Word := y >>> amount z
def sra (y z : Word) : Word := y.sshiftRight (amount z)
def rolW (y z : Word) : Word := y.rotateLeft (amount z)
def rorW (y z : Word) : Word := y.rotateRight (amount z)
def minS (y z : Word) : Word := if y.slt z then y else z
def maxS (y z : Word) : Word := if y.slt z then z else y
def minN (y z : Word) : Word := if y.ult z then y else z
def maxN (y z : Word) : Word := if y.ult z then z else y

/-- Leading zeros; 32 for 0 (06 R155). -/
def clzW (y : Word) : Word := if y = 0 then 32 else BitVec.ofNat 32 (31 - Nat.log2 y.toNat)
/-- Trailing zeros; 32 for 0. -/
def ctzW (y : Word) : Word := if y = 0 then 32 else BitVec.ofNat 32 (Nat.log2 (y &&& (0 - y)).toNat)
/-- Set bits. -/
def popcW (y : Word) : Word := BitVec.ofNat 32 ((List.range 32).countP (fun i => y.getLsbD i))

/-- Bits [63:32] of the signed product, and of the unsigned product (06 R156). -/
def mulh (y z : Word) : Word := wordOf (y.toInt * z.toInt / 2 ^ 32)
def mulhn (y z : Word) : Word := BitVec.ofNat 32 (y.toNat * z.toNat / 2 ^ 32)

/-- Quotient, remainder and T of a signed division (06 R157): by zero 0, 0 and T; the one overflow saturates the quotient. -/
def divS (y z : Word) : Word × Word × Bool :=
  if z = 0 then (0, 0, true)
  else if y = 0x80000000 ∧ z = 0xFFFFFFFF then (0x7FFFFFFF, 0, true)
  else (wordOf (y.toInt.tdiv z.toInt), wordOf (y.toInt.tmod z.toInt), false)
/-- The same for an unsigned division. -/
def divN (y z : Word) : Word × Word × Bool :=
  if z = 0 then (0, 0, true) else (y / z, y % z, false)

/-- Greatest common divisor of unsigned operands, and whether it is 1 (06 R158). -/
def gcdW (y z : Word) : Word × Bool :=
  let g := BitVec.ofNat 32 (Nat.gcd y.toNat z.toNat)
  (g, g == 1)

/-- ADD (06 R155). -/
def execAdd (a b : XReg) (c : Option XReg) (s : State) : Res := s.alu a b c (· + ·)
/-- SUB (06 R155). -/
def execSub (a b : XReg) (c : Option XReg) (s : State) : Res := s.alu a b c (· - ·)
/-- AND (06 R155). -/
def execAndX (a b : XReg) (c : Option XReg) (s : State) : Res := s.alu a b c (· &&& ·)
/-- OR (06 R155). -/
def execOrX (a b : XReg) (c : Option XReg) (s : State) : Res := s.alu a b c (· ||| ·)
/-- XOR (06 R155). -/
def execXorX (a b : XReg) (c : Option XReg) (s : State) : Res := s.alu a b c (· ^^^ ·)
/-- SLL (06 R155). -/
def execSll (a b : XReg) (c : Option XReg) (s : State) : Res := s.alu a b c sll
/-- SRL (06 R155). -/
def execSrl (a b : XReg) (c : Option XReg) (s : State) : Res := s.alu a b c srl
/-- SRA (06 R155). -/
def execSra (a b : XReg) (c : Option XReg) (s : State) : Res := s.alu a b c sra
/-- MUL (06 R156). -/
def execMul (a b : XReg) (c : Option XReg) (s : State) : Res := s.alu a b c (· * ·)
/-- MULH (06 R156). -/
def execMulh (a b : XReg) (c : Option XReg) (s : State) : Res := s.alu a b c mulh
/-- MULHN (06 R156). -/
def execMulhn (a b : XReg) (c : Option XReg) (s : State) : Res := s.alu a b c mulhn
/-- DIV (06 R157). -/
def execDiv (a b : XReg) (c : Option XReg) (s : State) : Res :=
  s.aluT a b c (fun y z => ((divS y z).1, (divS y z).2.2))
/-- DIVN (06 R157). -/
def execDivn (a b : XReg) (c : Option XReg) (s : State) : Res :=
  s.aluT a b c (fun y z => ((divN y z).1, (divN y z).2.2))
/-- REM (06 R157). -/
def execRem (a b : XReg) (c : Option XReg) (s : State) : Res := s.aluT a b c (fun y z => (divS y z).2)
/-- REMN (06 R157). -/
def execRemn (a b : XReg) (c : Option XReg) (s : State) : Res := s.aluT a b c (fun y z => (divN y z).2)
/-- GCD (06 R158). -/
def execGcd (a b : XReg) (c : Option XReg) (s : State) : Res := s.aluT a b c gcdW
/-- MIN (06 R155). -/
def execMinX (a b : XReg) (c : Option XReg) (s : State) : Res := s.alu a b c minS
/-- MAX (06 R155). -/
def execMaxX (a b : XReg) (c : Option XReg) (s : State) : Res := s.alu a b c maxS
/-- MINN (06 R155). -/
def execMinn (a b : XReg) (c : Option XReg) (s : State) : Res := s.alu a b c minN
/-- MAXN (06 R155). -/
def execMaxn (a b : XReg) (c : Option XReg) (s : State) : Res := s.alu a b c maxN
/-- ANDN (06 R155). -/
def execAndn (a b : XReg) (c : Option XReg) (s : State) : Res := s.alu a b c (fun y z => y &&& ~~~z)
/-- ORN (06 R155). -/
def execOrn (a b : XReg) (c : Option XReg) (s : State) : Res := s.alu a b c (fun y z => y ||| ~~~z)
/-- ROL (06 R155). -/
def execRol (a b : XReg) (c : Option XReg) (s : State) : Res := s.alu a b c rolW
/-- ROR (06 R155). -/
def execRor (a b : XReg) (c : Option XReg) (s : State) : Res := s.alu a b c rorW

/-- MOV (06 R155). -/
def execMov (a b : XReg) (s : State) : Res := s.alu1 a b id
/-- NEG (06 R155). -/
def execNeg (a b : XReg) (s : State) : Res := s.alu1 a b (fun y => 0 - y)
/-- NOT (06 R155). -/
def execNotX (a b : XReg) (s : State) : Res := s.alu1 a b (~~~ ·)
/-- CLZ (06 R155). -/
def execClz (a b : XReg) (s : State) : Res := s.alu1 a b clzW
/-- CTZ (06 R155). -/
def execCtz (a b : XReg) (s : State) : Res := s.alu1 a b ctzW
/-- POPC (06 R155). -/
def execPopc (a b : XReg) (s : State) : Res := s.alu1 a b popcW
/-- SEXTB (06 R155). -/
def execSextb (a b : XReg) (s : State) : Res := s.alu1 a b (fun y => (y.setWidth 8).signExtend 32)
/-- SEXTH (06 R155). -/
def execSexth (a b : XReg) (s : State) : Res := s.alu1 a b (fun y => (y.setWidth 16).signExtend 32)

/-- CEQ (06 R159). -/
def execCeq (a b : XReg) (s : State) : Res := s.cmp a b (· == ·)
/-- CNE (06 R159). -/
def execCne (a b : XReg) (s : State) : Res := s.cmp a b (· != ·)
/-- CLT (06 R159). -/
def execClt (a b : XReg) (s : State) : Res := s.cmp a b BitVec.slt
/-- CGE (06 R159). -/
def execCge (a b : XReg) (s : State) : Res := s.cmp a b (fun y z => !y.slt z)
/-- CLTN (06 R159). -/
def execCltn (a b : XReg) (s : State) : Res := s.cmp a b BitVec.ult
/-- CGEN (06 R159). -/
def execCgen (a b : XReg) (s : State) : Res := s.cmp a b (fun y z => !y.ult z)
/-- TST (06 R159). -/
def execTst (a b : XReg) (s : State) : Res := s.cmp a b (fun y z => (y &&& z) != 0)
/-- MOVT (06 R159). -/
def execMovt (a : XReg) (s : State) : Res :=
  let t := s.ctx.t
  s.done (fun k => k.setX a (if t then 1 else 0))

/-- ADDI (06 R160). -/
def execAddi (a : XReg) (imm : Imm) (s : State) : Res := s.alu1 a a (· + imm)
/-- LI (06 R160). -/
def execLi (a : XReg) (imm : Imm) (s : State) : Res := s.done (fun k => k.setX a imm)
/-- ANDI (06 R160). -/
def execAndi (a : XReg) (imm : Imm) (s : State) : Res := s.alu1 a a (· &&& imm)
/-- ORI (06 R160). -/
def execOri (a : XReg) (imm : Imm) (s : State) : Res := s.alu1 a a (· ||| imm)
/-- XORI (06 R160). -/
def execXori (a : XReg) (imm : Imm) (s : State) : Res := s.alu1 a a (· ^^^ imm)
/-- CEQI (06 R160). -/
def execCeqi (a : XReg) (imm : Imm) (s : State) : Res := s.cmp a a (fun y _ => y == imm)
/-- CLTI (06 R160). -/
def execClti (a : XReg) (imm : Imm) (s : State) : Res := s.cmp a a (fun y _ => y.slt imm)

/-- The four kinds of SHI (06 R161). -/
def shiKind (kind : BitVec 2) (y z : Word) : Word :=
  if kind = 0 then sll y z else if kind = 1 then srl y z else if kind = 2 then sra y z else rorW y z
/-- SHI (06 R161). -/
def execShi (a : XReg) (kind : BitVec 2) (amt : BitVec 5) (s : State) : Res :=
  s.alu1 a a (fun y => shiKind kind y (amt.setWidth 32))

end Sys2Proof.Machine
end

