-- ==== Sys2Proof/Machine/Vector.lean ====
section
/-!
DEFINITION. Machine/Vector.lean: what a vector instruction does when it issues, and what its sequencer entry does when it starts (10
R255-R291).
-/
namespace Sys2Proof.Machine

/-! ### Issue (10 R255-R257, R263-R265) -/

/-- What an entry captures (10 R256). -/
def State.capture (s : State) (op : Instr) (xb xc fc ea : Word) : SeqEntry :=
  ⟨s.cur, op, xb, xc, fc, ea, s.ctx.vl, s.ctx.fpcsr.rnd, s.ctx.prv, s.ctx.pcLow, false, false, []⟩

def SeqItem.size : SeqItem → Nat
  | .one _ => 1
  | .loop _ body _ _ _ => body.length

/-- Entries of the sequencer of a core that are occupied, or kept for the body of a VLOOP that is being collected. -/
def State.seqUsed (s : State) (a : AgentId) : Nat :=
  ((s.coreOf a).seq.map SeqItem.size).sum +
    ((s.ctxs.filter (fun p => coreKey p.1 = coreKey a)).map (fun p =>
      match p.2.vloop with
      | some l => l.n
      | none => 0)).sum

/-- An entry enters the sequencer, or the body of the VLOOP that collects; the last body group hands the loop over. A loop of count 0
leaves nothing (10 R263). -/
def State.pushEntry (s : State) (e : SeqEntry) : Res :=
  match s.ctx.vloop with
  | some l =>
    let body := l.body ++ [e]
    if body.length < l.n then s.done (fun c => { c with vloop := some { l with body := body } })
    else
      let s := if l.count = 0 then s
        else s.updCore s.cur (fun k => { k with seq := k.seq ++ [.loop s.cur body l.count 0 l.count] })
      s.done (fun c => { c with vloop := none })
  | none =>
    if 16 ≤ s.seqUsed s.cur then s.waits .sequencer
    else (s.updCore s.cur (fun k => { k with seq := k.seq ++ [.one e] })).done id

/-- Issue of a vector instruction that makes no memory access: ILLEGAL with reason 9 where `bad` holds, VECTOR_LANES without lanes
(10 R255). -/
def State.vecIssue (s : State) (bad : Bool) (e : SeqEntry) : Res :=
  if bad then s.illegal 9
  else s.coreOnly (if s.ctx.count = 0 then s.trap Cause.vectorLanes s.ctx.vlanes else s.pushEntry e)

/-! ### Addresses (10 R279) -/

/-- An address lies in the own TCM or the scratchpad. -/
def vecRange (a : AgentId) (w : Word) : Bool := (tcmOrScratch a w.toNat 4).isSome

/-- A hardware-managed word of the own core, which a store at program privilege must not reach. -/
def State.vecManaged (s : State) (a : AgentId) (w : Word) : Bool :=
  match place a w.toNat with
  | .ownTcm o => s.hwManaged a o
  | _ => false

/-- The first address of elements below VL, in order of iterations and then elements, for which `p` holds. -/
def firstAddr (p : Word → Bool) (offs : List Word) (step : Word) : Nat → Word → Option Word
  | 0, _ => none
  | n + 1, base =>
    match (offs.map (base + ·)).find? p with
    | some w => some w
    | none => firstAddr p offs step n (base + step)

/-- Iterations to be checked. A loop whose step is not 0 leaves the two ranges before 2^17 iterations. -/
def Ctx.vecIters (c : Ctx) (step : Word) : Nat :=
  match c.vloop with
  | none => 1
  | some l => if step = 0 then min l.count 1 else min l.count (2 ^ 17)

/-- Checks 1 to 3 of a strided form: the cause and TVAL of the first that fails. -/
def State.vecCheck (s : State) (load : Bool) (ea stride : Word) (offs : List Word) (step : Word) : Option (BitVec 8 × Word) :=
  let n := s.ctx.vecIters step
  if n = 0 then none
  else if ea.toNat % 4 ≠ 0 then some (Cause.align, ea)
  else if stride.toNat % 4 ≠ 0 then some (Cause.align, ea + stride)
  else
    match firstAddr (fun w => !vecRange s.cur w) offs step n ea with
    | some w => some (if load then Cause.loadWindow else Cause.storeWindow, w)
    | none =>
      if load || s.ctx.prv then none
      else (firstAddr (s.vecManaged s.cur) offs step n ea).map (fun w => (Cause.storeWindow, w))

/-- The check of an indexed form: of `ea` alone. -/
def State.vecCheckIndexed (s : State) (load : Bool) (ea : Word) : Option (BitVec 8 × Word) :=
  if s.ctx.vecIters 0 = 0 then none
  else if ea.toNat % 4 ≠ 0 then some (Cause.align, ea)
  else if vecRange s.cur ea then none
  else some (if load then Cause.loadWindow else Cause.storeWindow, ea)

/-- Issue of a vector load or store: ILLEGAL, the address checks, VECTOR_LANES, and the trace entry of an access beyond the own TCM. -/
def State.vecMem (s : State) (load bad : Bool) (check : Option (BitVec 8 × Word)) (e : SeqEntry) : Res :=
  if bad then s.illegal 9
  else
    s.coreOnly
      (match check with
       | some (code, tval) => s.trap code tval
       | none =>
         if s.ctx.count = 0 then s.trap Cause.vectorLanes s.ctx.vlanes
         else if s.ctx.vloop.isNone && 16 ≤ s.seqUsed s.cur then s.waits .sequencer
         else if tcmSize s.cur ≤ e.ea.toNat then (s.traceIf s.cur 2 (if load then 2 else 3) 0 e.pc e.ea).pushEntry e
         else s.pushEntry e)

/-! ### Reading and writing elements (10 R268, R269; 12 R372) -/

/-- Element `i` of a register: one that holds an uncorrectable error reads 0xFFFF_FFFF. -/
def State.lane (s : State) (a : AgentId) (r : VReg) (i : Nat) : Word :=
  if s.eccBad.contains (vregAt (agentNo a) r.toNat i) then 0xFFFFFFFF
  else (((s.ctxOf a).getV r).toArray[i]?).getD 0

/-- The machine reports and corrections that reading registers makes. -/
def State.noteReads (s : State) (a : AgentId) (rs : List VReg) : State :=
  if s.eccBad = [] ∧ s.eccOne = [] then s
  else
    rs.foldl (fun s r =>
      (List.range (s.ctxOf a).count).foldl (fun s i =>
        let at_ := vregAt (agentNo a) r.toNat i
        if s.eccBad.contains at_ then s.reportOf a (r.toNat * 256 + i * 4) else s.correct at_ 4) s) s

/-- Write the elements below COUNT for which `w` names a value; a write of the whole element, which `whole` tells, clears its error (12 R371,
R372). Writes of v1 to v3 may be traced (18 R494). -/
def State.writeParts (s : State) (a : AgentId) (pc : Word) (r : VReg) (whole : Nat → Bool) (w : Nat → Option Word) : State :=
  let c := s.ctxOf a
  let v := Vector.ofFn (fun i : Fin 64 => if i.val < c.count then (w i.val).getD (c.getV r)[i] else (c.getV r)[i])
  let s := s.setCtxOf a (c.setV r v)
  let keep (l : List Nat) : List Nat :=
    if l = [] then [] else
      l.filter (fun x => !(List.range c.count).any (fun i => (w i).isSome && whole i && x = vregAt (agentNo a) r.toNat i))
  let s := { s with eccBad := keep s.eccBad, eccOne := keep s.eccOne }
  if 1 ≤ r.toNat ∧ r.toNat ≤ 3 then
    s.traceIf a 1 1 0 pc (BitVec.ofNat 32 (((List.range 32).map (fun i => bit ((((v.toArray[i]?).getD 0).getLsbD 0)) * 2 ^ i)).sum))
  else s

/-- Write whole elements. -/
def State.writeLanes (s : State) (a : AgentId) (pc : Word) (r : VReg) (w : Nat → Option Word) : State :=
  s.writeParts a pc r (fun _ => true) w

/-- The register a mask selects. -/
def maskReg (m : VMask) : VReg := m.msel.setWidth 5

/-- Element `i` is active (10 R269). -/
def State.active (s : State) (e : SeqEntry) (m : VMask) (i : Nat) : Bool :=
  i < e.vl && (m.msel = 0 || (s.lane e.ctx (maskReg m) i).getLsbD 0)

/-- What an element left by a policy is written with. -/
def policy (agnostic : Bool) : Option Word := if agnostic then some 0xFFFFFFFF else none

/-- The result of one element: word, flags, and whether it clamped. -/
structure Elem where
  w : Word
  flags : BitVec 5
  sat : Bool
  deriving DecidableEq, Repr

def Elem.plain (w : Word) : Elem := ⟨w, 0, false⟩
def Elem.fp (r : Word × BitVec 5) : Elem := ⟨r.1, r.2, false⟩

/-- Flags of the elements named. -/
def orFlags (is : List Nat) (f : Nat → Elem) : BitVec 5 × Bool :=
  is.foldl (fun r i => (r.1 ||| (f i).flags, r.2 || (f i).sat)) (0, false)

/-- A register-writing instruction of class M (10 R269, R262): `wr` tells which active elements are written. -/
def State.vecElem (s : State) (e : SeqEntry) (a : VReg) (m : VMask) (srcs : List VReg) (wr : Nat → Bool) (f : Nat → Elem) : State :=
  let act := s.active e m
  let fl := orFlags ((List.range 64).filter act) f
  let t := s.noteReads e.ctx (if m.msel = 0 then srcs else maskReg m :: srcs)
  (t.updOf e.ctx (fun c => c.orFp fl.1 fl.2)).writeLanes e.ctx e.pc a (fun i =>
    if i < e.vl then (if act i then (if wr i then some (f i).w else none) else policy m.mpol) else policy m.tpol)

/-- An instruction that writes elements 0 to n − 1 whole and leaves the others to TPOL. -/
def State.vecFirst (s : State) (e : SeqEntry) (a : VReg) (tpol : Bool) (srcs : List VReg) (n : Nat) (flags : BitVec 5) (sat : Bool)
    (f : Nat → Word) : State :=
  ((s.noteReads e.ctx srcs).updOf e.ctx (fun c => c.orFp flags sat)).writeLanes e.ctx e.pc a (fun i =>
    if i < n then some (f i) else policy tpol)

/-- An optional-c instruction on two registers. -/
def State.vecBin (s : State) (e : SeqEntry) (a b : VReg) (c : Option VReg) (m : VMask) (f : Word → Word → Elem) : State :=
  let p := vOperands a b c
  s.vecElem e a m [p.1, p.2] (fun _ => true) (fun i => f (s.lane e.ctx p.1 i) (s.lane e.ctx p.2 i))

/-- An instruction on one register. -/
def State.vecUn (s : State) (e : SeqEntry) (a b : VReg) (m : VMask) (f : Word → Elem) : State :=
  s.vecElem e a m [b] (fun _ => true) (fun i => f (s.lane e.ctx b i))

def Elem.truth (b : Bool) : Elem := .plain (if b then 1 else 0)
def Elem.cmp (r : Bool × BitVec 5) : Elem := ⟨if r.1 then 1 else 0, r.2, false⟩
def Elem.narrow (r : Word × BitVec 5 × Bool) : Elem := ⟨r.1, r.2.1, r.2.2⟩

/-- A sum clamped to 32 signed bits (10 R272). -/
def Elem.clamp (v : Int) : Elem :=
  let w := max (-(2 ^ 31)) (min v (2 ^ 31 - 1))
  ⟨wordOf w, 0, w != v⟩

/-! ### Memory (10 R280, R281) -/

/-- The word a vector load finds at an address; one that holds an uncorrectable error loads 0xFFFF_FFFF. -/
def State.vecWord (s : State) (a : AgentId) (ea : Word) : Word :=
  match tcmOrScratch a ea.toNat 4 with
  | some flat => if s.hasBad flat 4 then 0xFFFFFFFF else s.wordAt flat
  | none => 0xFFFFFFFF

/-- The reports and corrections that loading a word makes. -/
def State.noteLoad (s : State) (a : AgentId) (ea : Word) : State :=
  match tcmOrScratch a ea.toNat 4 with
  | some flat => if s.hasBad flat 4 then s.reportOf a ea.toNat else s.correct flat 4
  | none => s

/-- W(t) of 10 R281: an indexed address wraps within the range that holds `ea`. -/
def wrapAddr (a : AgentId) (ea t : Word) : Word :=
  if ea.toNat < tcmSize a then BitVec.ofNat 32 (t.toNat % tcmSize a)
  else 0x00100000 + BitVec.ofNat 32 ((t - 0x00100000).toNat % 0x40000)

/-- A vector load or store: its register and mask, the registers it reads besides, and by element the address and whether a store leaves
the word there as it is (10 R279, R281). -/
structure LaneAccess where
  load : Bool
  reg : VReg
  mask : VMask
  srcs : List VReg
  addr : Nat → Word
  skip : Word → Bool

/-- Element `i` of a load: the word it found early, or the word there now. -/
def State.loadedWord (s : State) (e : SeqEntry) (x : LaneAccess) (i : Nat) : Word :=
  (lookup? e.early i).getD (s.vecWord e.ctx (x.addr i))

/-- The elements that still access memory, in ascending order. -/
def State.leftElems (s : State) (e : SeqEntry) (x : LaneAccess) : List Nat :=
  (List.range 64).filter (fun i => s.active e x.mask i && (lookup? e.early i).isNone)

/-- A vector load of the addresses of the active elements. -/
def State.vecLoad (s : State) (e : SeqEntry) (x : LaneAccess) : State :=
  let t := if s.eccBad = [] ∧ s.eccOne = [] then s
    else (s.leftElems e x).foldl (fun t i => t.noteLoad e.ctx (x.addr i)) s
  t.vecElem e x.reg x.mask x.srcs (fun _ => true) (fun i => .plain (s.loadedWord e x i))

/-- Element `i` of a store, unless a later element has stored to its word before (10 R281). -/
def SeqEntry.storeElem (e : SeqEntry) (x : LaneAccess) (w : Nat → Word) (t : State) (i : Nat) : State :=
  match tcmOrScratch e.ctx (x.addr i).toNat 4 with
  | some flat => if x.skip (x.addr i) || e.early.any (fun p => i < p.1 && x.addr p.1 = x.addr i) then t else t.storeWord flat (w i)
  | none => t

/-- A vector store of the active elements, in ascending order. A reinstated entry stores the VL elements that it captured: those from a smaller
COUNT on are zero (DESIGN CHOICE: 10 R267 does not say what they are; log 46). -/
def State.vecStore (s : State) (e : SeqEntry) (x : LaneAccess) : State :=
  let m := x.mask
  (s.leftElems e x).foldl (e.storeElem x (s.lane e.ctx x.reg))
    (s.noteReads e.ctx ((if m.msel = 0 then [x.reg] else [maskReg m, x.reg]) ++ x.srcs))

/-! ### Reductions (10 R284, R285) -/

/-- One level of the tree: neighbours combine. -/
def combLevel (op : Word → Word → Word × BitVec 5) : List (Option Word) → List (Option Word) × BitVec 5
  | x :: y :: rest =>
    let r := combLevel op rest
    match x, y with
    | some p, some q => (some (op p q).1 :: r.1, (op p q).2 ||| r.2)
    | some p, none => (some p :: r.1, r.2)
    | none, y => (y :: r.1, r.2)
  | l => (l, 0)

/-- A floating result that is a NaN is the default NaN (07 R190). -/
def defaultNan (w : Word) : Word := if (num32 w).isNan then 0x7FC00000 else w

/-- The tree: the root, and the flags of all combinations. -/
def combTree (op : Word → Word → Word × BitVec 5) : Nat → List (Option Word) → Option Word × BitVec 5
  | 0, l => (l.head?.join, 0)
  | n + 1, l =>
    let r := combLevel op l
    let t := combTree op n r.1
    (t.1, r.2 ||| t.2)

/-- The leaves of a reduction. -/
def State.leaves (s : State) (e : SeqEntry) (b : VReg) (m : VMask) : List (Option Word) :=
  (List.range 64).map (fun i => if s.active e m i then some (s.lane e.ctx b i) else none)

/-- The write of an entry's scalar result, unless a later group has written the register (06 R143). -/
def SeqEntry.put (e : SeqEntry) (f : Ctx → Ctx) (c : Ctx) : Ctx := if e.gone then c else f c

/-- A reduction to an x or f register. -/
def State.vecReduce (s : State) (e : SeqEntry) (b : VReg) (m : VMask) (empty : Word) (op : Word → Word → Word × BitVec 5)
    (put : Word → Ctx → Ctx) : State :=
  let r := combTree op 6 (s.leaves e b m)
  (s.noteReads e.ctx (if m.msel = 0 then [b] else [maskReg m, b])).updOf e.ctx (fun c => e.put (put (r.1.getD empty)) (c.orFp r.2 false))

/-- An integer operation of a reduction raises nothing. -/
def noFlags (f : Word → Word → Word) (y z : Word) : Word × BitVec 5 := (f y z, 0)


/-- Active elements with bit 0 set, in ascending order. -/
def State.setLanes (s : State) (e : SeqEntry) (b : VReg) (m : VMask) : List Nat :=
  (List.range 64).filter (fun i => s.active e m i && (s.lane e.ctx b i).getLsbD 0)

/-! ### Ranking, normalising, quantising (10 R288-R291) -/

/-- `x` ranks strictly above `y` (10 R288). -/
def ranksAbove (x y : Num) : Bool := !x.isNan && (y.isNan || y.lt x)

/-- Place an index behind those that rank at or above it. Of several NaNs the one of the lowest index comes first (DESIGN CHOICE: 10 R288
orders equal values alone; log 46). -/
def insertRank (z : Nat → Num) (i : Nat) : List Nat → List Nat
  | [] => [i]
  | h :: rest => if ranksAbove (z i) (z h) then i :: h :: rest else h :: insertRank z i rest

/-- Indices in rank order. -/
def rankOf (z : Nat → Num) (is : List Nat) : List Nat := is.foldl (fun l i => insertRank z i l) []

/-- VTOPK. -/
def State.vecTopk (s : State) (e : SeqEntry) (a b : VReg) (m : VMask) : State :=
  let act := (List.range 64).filter (s.active e m)
  let z (i : Nat) : Num := num32 (s.lane e.ctx b i)
  let r := rankOf z act
  s.vecFirst e a m.tpol (if m.msel = 0 then [b] else [maskReg m, b]) (min e.xc.toNat act.length) (flagIf (act.any (fun i => (z i).isNan)) Flag.nv)
    false (fun j => BitVec.ofNat 32 ((r[j]?).getD 0))

/-- The weights of VTNORM for values z_j, with their flags (10 R289). -/
def normWeights (zs : List Word) : List Word × BitVec 5 :=
  let nan := flagIf (zs.any (fun z => (num32 z).isNan)) Flag.nv
  let inf := (zs.filter (fun z => z = 0x7F800000)).length
  let fin (z : Word) : Bool := z.toNat % 2 ^ 31 < 0x7F800000
  if inf ≠ 0 then
    let w := divF 0 oneF (word32 (fp32.round 0 false inf 1).1)
    (zs.map (fun z => if z = 0x7F800000 then w.1 else 0), nan ||| w.2)
  else if !zs.any fin then (zs.map (fun _ => 0), nan)
  else
    let m := (zs.filter fin).foldl (fun m z => if (num32 m).lt (num32 z) then z else m) ((zs.filter fin).headD 0)
    let exp (z : Word) : Word × BitVec 5 :=
      if fin z then ((vexpF (subF 0 z m).1).1, (subF 0 z m).2 ||| (vexpF (subF 0 z m).1).2) else (0, 0)
    let es := zs.map exp
    let sum := combTree (addF 0) 6 ((es.map (fun p => some p.1)) ++ List.replicate (64 - es.length) none)
    let ws := es.map (fun p => divF 0 p.1 (sum.1.getD 0))
    (ws.map (·.1), (ws.map (·.2)).foldl (· ||| ·) ((es.map (·.2)).foldl (· ||| ·) (nan ||| sum.2)))

/-- VTNORM. -/
def State.vecTnorm (s : State) (e : SeqEntry) (a b : VReg) : State :=
  let count := (s.ctxOf e.ctx).count
  let n := min e.xc.toNat count
  let zs := (List.range n).map (fun j =>
    let idx := (s.lane e.ctx a j).toNat % 64
    if idx < count then s.lane e.ctx b idx else 0)
  let r := normWeights zs
  s.vecFirst e a false [a, b] n r.2 false (fun j => (r.1[j]?).getD 0)

/-- VQUANT: blocks of 32 elements below VL. -/
def State.vecQuant (s : State) (e : SeqEntry) (a b : VReg) : State :=
  let w := e.xc.toNat
  let blk (k : Nat) : Block := quantBlock w ((List.range 32).map (fun i => s.lane e.ctx b (32 * k + i)))
  let bs := if e.vl = 64 then [blk 0, blk 1] else [blk 0]
  let ws := bs.flatMap (fun q => q.m.map (fun m => BitVec.ofNat 32 (q.e * 2 ^ 24 + (m.emod 256).toNat)))
  s.vecFirst e a false [b] e.vl (bs.foldl (fun f q => f ||| q.flags) 0) (bs.any (fun q => q.clamps ≠ 0)) (fun i => (ws[i]?).getD 0)

/-- VDEQUANT. -/
def State.vecDequant (s : State) (e : SeqEntry) (a b : VReg) : State :=
  s.vecFirst e a false [b] e.vl 0 false (fun i =>
    let x := (s.lane e.ctx b i).toNat
    dequantF (x / 2 ^ 24) e.xc.toNat (mantissa e.xc.toNat x))

/-- VCOMPRESS: the active elements of v[b], packed. -/
def State.vecCompress (s : State) (e : SeqEntry) (a b : VReg) (m : VMask) : State :=
  let act := (List.range 64).filter (s.active e m)
  s.vecFirst e a m.tpol [maskReg m, b] act.length 0 false (fun j => s.lane e.ctx b ((act[j]?).getD 0))

/-- VEXPAND: elements of v[b] in order to the active positions. -/
def State.vecExpand (s : State) (e : SeqEntry) (a b : VReg) (m : VMask) : State :=
  s.vecElem e a m [b] (fun _ => true) (fun i =>
    .plain (s.lane e.ctx b ((List.range i).filter (s.active e m)).length))

/-- VSEL: every element below VL, by the mask. -/
def State.vecSel (s : State) (e : SeqEntry) (a b c : VReg) (m : VMask) : State :=
  s.vecFirst e a m.tpol [maskReg m, b, c] e.vl 0 false (fun i =>
    if (s.lane e.ctx (maskReg m) i).getLsbD 0 then s.lane e.ctx b i else s.lane e.ctx c i)

/-- VINS.X: one element of v[a], when it exists. -/
def State.vecIns (s : State) (e : SeqEntry) (a : VReg) : State :=
  s.writeLanes e.ctx e.pc a (fun i => if i = e.xc.toNat then some e.xb else none)

/-- VEXT.X. -/
def State.vecExt (s : State) (e : SeqEntry) (a : XReg) (b : VReg) : State :=
  let w := if e.xc.toNat < (s.ctxOf e.ctx).count then s.lane e.ctx b e.xc.toNat else 0
  (s.noteReads e.ctx [b]).updOf e.ctx (e.put (fun c => c.setX a w))

/-- VFIRST (10 R285). -/
def State.vecFind (s : State) (e : SeqEntry) (a : XReg) (b : VReg) (m : VMask) : State :=
  let hit := (s.setLanes e b m).head?
  (s.noteReads e.ctx (if m.msel = 0 then [b] else [maskReg m, b])).updOf e.ctx (fun c =>
    let c := e.put (fun c => c.setX a (BitVec.ofNat 32 (hit.getD e.vl))) c
    if e.tGone then c else c.setT hit.isSome)

/-! ### The sequencer (10 R256, R263, R264) -/

/-- What an entry does when it starts: page 2. -/
def State.runPage2 (s : State) (e : SeqEntry) : State :=
  let un := fun a b m f => s.vecUn e a b m f
  let bin := fun a b c m f => s.vecBin e a b c m f
  match e.op with
  | .vaddI a b c m => bin a b c m (fun y z => .plain (y + z))
  | .vsubI a b c m => bin a b c m (fun y z => .plain (y - z))
  | .vmulI a b c m => bin a b c m (fun y z => .plain (y * z))
  | .vminI a b c m => bin a b c m (fun y z => .plain (minS y z))
  | .vmaxI a b c m => bin a b c m (fun y z => .plain (maxS y z))
  | .vand a b c m => bin a b c m (fun y z => .plain (y &&& z))
  | .vor a b c m => bin a b c m (fun y z => .plain (y ||| z))
  | .vxor a b c m => bin a b c m (fun y z => .plain (y ^^^ z))
  | .vsll a b c m => bin a b c m (fun y z => .plain (y <<< (z.toNat % 32)))
  | .vsrl a b c m => bin a b c m (fun y z => .plain (y >>> (z.toNat % 32)))
  | .vsra a b c m => bin a b c m (fun y z => .plain (y.sshiftRight (z.toNat % 32)))
  | .vaddsI a b c m => bin a b c m (fun y z => .clamp (y.toInt + z.toInt))
  | .vsubsI a b c m => bin a b c m (fun y z => .clamp (y.toInt - z.toInt))
  | .vaddF a b c m => bin a b c m (fun y z => .fp (addF e.rnd y z))
  | .vsubF a b c m => bin a b c m (fun y z => .fp (subF e.rnd y z))
  | .vmulF a b c m => bin a b c m (fun y z => .fp (mulF e.rnd y z))
  | .vdivF a b c m => bin a b c m (fun y z => .fp (divF e.rnd y z))
  | .vminF a b c m => bin a b c m (fun y z => .fp (minMaxF false y z))
  | .vmaxF a b c m => bin a b c m (fun y z => .fp (minMaxF true y z))
  | .vfma a b c m => s.vecElem e a m [a, b, c] (fun _ => true) (fun i =>
      .fp (fmaF e.rnd false false (s.lane e.ctx a i) (s.lane e.ctx b i) (s.lane e.ctx c i)))
  | .vfms a b c m => s.vecElem e a m [a, b, c] (fun _ => true) (fun i =>
      .fp (fmaF e.rnd true false (s.lane e.ctx a i) (s.lane e.ctx b i) (s.lane e.ctx c i)))
  | .vsel a b c m => s.vecSel e a b c m
  | .vceqI a b c m => bin a b c m (fun y z => .truth (y = z))
  | .vcltI a b c m => bin a b c m (fun y z => .truth (y.slt z))
  | .vcltnI a b c m => bin a b c m (fun y z => .truth (y.ult z))
  | .vceqF a b c m => bin a b c m (fun y z => .cmp (eqF y z))
  | .vcltF a b c m => bin a b c m (fun y z => .cmp (ltF y z))
  | .vcleF a b c m => bin a b c m (fun y z => .cmp (leF y z))
  | .vcunF a b c m => bin a b c m (fun y z => .cmp (unordF y z))
  | .vcvtFI a b m => un a b m (fun y => .fp (ofInt32 e.rnd y.toInt))
  | .vcvtIF a b m => un a b m (fun y => .fp ((num32 y).toI32 e.rnd))
  | .vcvtBf16F a b m => un a b m (fun y => .narrow (bf16.narrow e.rnd false (num32 y)))
  | .vcvtFBf16 a b m => un a b m (fun y => .fp (bf16.widen y.toNat))
  | .vcvtE4m3F a b m => un a b m (fun y => .narrow (e4m3.narrow e.rnd false (num32 y)))
  | .vcvtE5m2F a b m => un a b m (fun y => .narrow (e5m2.narrow e.rnd false (num32 y)))
  | .vcvtFE4m3 a b m => un a b m (fun y => .fp (e4m3.widen y.toNat))
  | .vcvtFE5m2 a b m => un a b m (fun y => .fp (e5m2.widen y.toNat))
  | .vcvtBf16FSat a b m => un a b m (fun y => .narrow (bf16.narrow e.rnd true (num32 y)))
  | .vcvtE4m3FSat a b m => un a b m (fun y => .narrow (e4m3.narrow e.rnd true (num32 y)))
  | .vcvtE5m2FSat a b m => un a b m (fun y => .narrow (e5m2.narrow e.rnd true (num32 y)))
  | .vaddFs a b _ m => un a b m (fun y => .fp (addF e.rnd y e.fc))
  | .vmulFs a b _ m => un a b m (fun y => .fp (mulF e.rnd y e.fc))
  | .vfmaFs a b _ m => s.vecElem e a m [a, b] (fun _ => true) (fun i =>
      .fp (fmaF e.rnd false false (s.lane e.ctx a i) (s.lane e.ctx b i) e.fc))
  | .vbcastX a _ m => s.vecElem e a m [] (fun _ => true) (fun _ => .plain e.xb)
  | .vbcastF a _ m => s.vecElem e a m [] (fun _ => true) (fun _ => .plain e.fc)
  | .viota a m => s.vecElem e a m [] (fun _ => true) (fun i => .plain (BitVec.ofNat 32 i))
  | .vextX a b _ => s.vecExt e a b
  | .vinsX a _ _ => s.vecIns e a
  | _ => s

/-- The address of element `i` of a strided form. -/
def SeqEntry.addr (e : SeqEntry) (stride : Word) (i : Nat) : Word := e.ea + BitVec.ofNat 32 i * stride

/-- The access of an entry that is a vector load or store. -/
def State.accessOf (s : State) (e : SeqEntry) : Option LaneAccess :=
  let never (_ : Word) : Bool := false
  let indexed (c : VReg) (i : Nat) : Word := wrapAddr e.ctx e.ea (e.ea + 4 * s.lane e.ctx c i)
  match e.op with
  | .vld a _ _ m => some ⟨true, a, m, [], e.addr 4, never⟩
  | .vst a _ _ m => some ⟨false, a, m, [], e.addr 4, never⟩
  | .vlds a _ _ _ m => some ⟨true, a, m, [], e.addr e.xc, never⟩
  | .vsts a _ _ _ m => some ⟨false, a, m, [], e.addr e.xc, never⟩
  | .vldb a _ _ m => some ⟨true, a, m, [], e.addr 0, never⟩
  | .vldx a _ c _ m => some ⟨true, a, m, [c], indexed c, never⟩
  | .vstx a _ c _ m => some ⟨false, a, m, [c], indexed c, fun w => !e.prv && s.vecManaged e.ctx w⟩
  | _ => none

/-- What an entry does when it starts: page 3. For VSLIDEUP, `elements below x[c] are not written` holds of active elements, and masked-off and
tail ones follow MPOL and TPOL there too (DESIGN CHOICE between 10 R282 and R269; log 46). -/
def State.runPage3 (s : State) (e : SeqEntry) : State :=
  match e.op with
  | .vperm a b c m =>
    let p := vOperands a b c
    s.vecElem e a m [p.1, p.2] (fun _ => true) (fun i =>
      let k := (s.lane e.ctx p.2 i).toNat
      .plain (if k < (s.ctxOf e.ctx).count then s.lane e.ctx p.1 k else 0))
  | .vzip a b c m =>
    let p := vOperands a b c
    s.vecElem e a m [p.1, p.2] (fun _ => true) (fun i => .plain (s.lane e.ctx (if i % 2 = 0 then p.1 else p.2) (i / 2)))
  | .vunzip a b c m =>
    let p := vOperands a b c
    s.vecElem e a m [p.1, p.2] (fun _ => true) (fun i =>
      .plain (if 2 * i < e.vl then s.lane e.ctx p.1 (2 * i) else s.lane e.ctx p.2 (2 * i - e.vl)))
  | .vrev a b m => s.vecElem e a m [b] (fun _ => true) (fun i => .plain (s.lane e.ctx b (e.vl - 1 - i)))
  | .vslideup a b _ m =>
    s.vecElem e a m [b] (fun i => e.xc.toNat ≤ i) (fun i => .plain (s.lane e.ctx b (i - e.xc.toNat)))
  | .vslidedn a b _ m =>
    s.vecElem e a m [b] (fun _ => true) (fun i =>
      .plain (if i + e.xc.toNat < e.vl then s.lane e.ctx b (i + e.xc.toNat) else 0))
  | .vcompress a b m => s.vecCompress e a b m
  | .vexpand a b m => s.vecExpand e a b m
  | .vredaddF a b m => s.vecReduce e b m 0 (addF e.rnd) (fun w c => c.setF a (defaultNan w))
  | .vredmaxF a b m => s.vecReduce e b m 0xFF800000 (minMaxF true) (fun w c => c.setF a (defaultNan w))
  | .vredminF a b m => s.vecReduce e b m 0x7F800000 (minMaxF false) (fun w c => c.setF a (defaultNan w))
  | .vredaddI a b m => s.vecReduce e b m 0 (noFlags (· + ·)) (fun w c => c.setX a w)
  | .vredmaxI a b m => s.vecReduce e b m 0x80000000 (noFlags maxS) (fun w c => c.setX a w)
  | .vredminI a b m => s.vecReduce e b m 0x7FFFFFFF (noFlags minS) (fun w c => c.setX a w)
  | .vpopc a b m =>
    (s.noteReads e.ctx (if m.msel = 0 then [b] else [maskReg m, b])).updOf e.ctx (e.put (fun c =>
      c.setX a (BitVec.ofNat 32 (s.setLanes e b m).length)))
  | .vfirst a b m => s.vecFind e a b m
  | .vexp a b m => s.vecUn e a b m (fun y => .fp (vexpF y))
  | .vlog a b m => s.vecUn e a b m (fun y => .fp (vlogF y))
  | .vrcp a b m => s.vecUn e a b m (fun y => .fp (vrcpF e.rnd y))
  | .vrsqrt a b m => s.vecUn e a b m (fun y => .fp (vrsqrtF e.rnd y))
  | .vtanh a b m => s.vecUn e a b m (fun y => .fp (vtanhF y))
  | .vsigm a b m => s.vecUn e a b m (fun y => .fp (vsigmF y))
  | .vtopk a b _ m => s.vecTopk e a b m
  | .vtnorm a b _ => s.vecTnorm e a b
  | .vquant a b _ => s.vecQuant e a b
  | .vdequant a b _ => s.vecDequant e a b
  | _ => s

/-- What an entry does when it starts. -/
def State.runEntry (s : State) (e : SeqEntry) : State :=
  match s.accessOf e with
  | some x => if x.load then s.vecLoad e x else s.vecStore e x
  | none => (s.runPage2 e).runPage3 e

/-- The step of a body group in bytes (10 R264). -/
def SeqEntry.step (e : SeqEntry) : Word :=
  match e.op with
  | .vld _ _ _ _ => 4 * BitVec.ofNat 32 e.vl
  | .vst _ _ _ _ => 4 * BitVec.ofNat 32 e.vl
  | .vlds _ _ _ _ _ => e.xc * BitVec.ofNat 32 e.vl
  | .vsts _ _ _ _ _ => e.xc * BitVec.ofNat 32 e.vl
  | .vldb _ _ _ _ => 4
  | _ => 0

/-- The first element that satisfies `p`, between those before and those after it. -/
def splitFirst {α : Type} (p : α → Bool) : List α → Option (List α × α × List α)
  | [] => none
  | x :: rest => if p x then some ([], x, rest) else (splitFirst p rest).map (fun r => (x :: r.1, r.2))

/-- The entry that an item runs next: for a VLOOP with the address of its iteration (10 R263, R264). -/
def SeqItem.next? : SeqItem → Option SeqEntry
  | .one e => some e
  | .loop _ body count pos iter => (body[pos]?).map (fun e => { e with ea := e.ea + BitVec.ofNat 32 (count - iter) * e.step })

/-- An item whose next entry has accessed memory has started. -/
def SeqItem.begun (i : SeqItem) : Bool := (i.next?).any (fun e => e.early ≠ [])

/-- The item with the elements that its next entry has accessed early. -/
def SeqItem.setEarly (i : SeqItem) (l : List (Nat × Word)) : SeqItem :=
  match i with
  | .one e => .one { e with early := l }
  | .loop a body count pos iter => .loop a (body.mapIdx (fun n e => if n = pos then { e with early := l } else e)) count pos iter

/-- What is left of an item once its next entry has run. -/
def SeqItem.rest : SeqItem → List SeqItem
  | .one _ => []
  | .loop a body count pos iter =>
    if pos + 1 < body.length then [.loop a body count (pos + 1) iter]
    else if 1 < iter then [.loop a body count 0 (iter - 1)]
    else []

/-- The oldest item of a sequencer that may start or has started. -/
def State.oldestItem (s : State) (core : AgentId) : Option (List SeqItem × SeqItem × List SeqItem) :=
  splitFirst (fun i => i.begun || s.mayStart i.ctx) (s.coreOf core).seq

/-- The sequencer of a core starts its oldest entry that may start, which runs to its end (10 R256, R263; log 5). -/
def State.startEntry (s : State) (core : AgentId) : State :=
  match s.oldestItem core with
  | none => s
  | some (older, i, later) =>
    let s := s.updCore core (fun k => { k with seq := older ++ (i.setEarly []).rest ++ later })
    match i.next? with
    | some e => s.runEntry e
    | none => s

/-- The oldest vector load or store accesses one of its elements before the others (10 R280, 17 R464). -/
def State.lanePart (s : State) (core : AgentId) (n : Nat) : State :=
  match s.oldestItem core with
  | none => s
  | some (older, i, later) =>
    match i.next? with
    | none => s
    | some e =>
      match s.accessOf e with
      | none => s
      | some x =>
        if (s.leftElems e x).contains n then
          let w := if x.load then s.vecWord e.ctx (x.addr n) else s.lane e.ctx x.reg n
          let t := if x.load then s.noteLoad e.ctx (x.addr n) else e.storeElem x (s.lane e.ctx x.reg) s n
          t.updCore core (fun k => { k with seq := older ++ i.setEarly (e.early ++ [(n, w)]) :: later })
        else s

/-- SEQUENCER_START (10 R256). -/
def execSequencerStart (core : AgentId) (s : State) : Res := .next (s.startEntry core)

/-- VLOOP (10 R263, R265). -/
def execVloop (a b : XReg) (s : State) : Res :=
  let n := (s.ctx.getX b).toNat
  let count := (s.ctx.getX a).toNat
  if n < 1 ∨ 16 < n then s.illegal 9
  else
   s.coreOnly
    (if s.ctx.count = 0 then s.trap Cause.vectorLanes s.ctx.vlanes
     else if 16 < s.seqUsed s.cur + n then s.waits .sequencer
     else
       let c := s.ctx
       s.done (fun k => { k with
         vloop := some ⟨count, n, [], c.pcLow, s.group.words.length, c.lcnt, c.lend, c.lrem, c.lact⟩ }))

end Sys2Proof.Machine
end

