-- ==== Sys2Proof/Machine/Transfer.lean ====
section
/-!
DEFINITION. Machine/Transfer.lean: channel operations, streams, delegation, and key-routed sends (06 R174; 12 R360, R361; 13
R389-R407).
-/
namespace Sys2Proof.Machine

/-! ### The checks of a channel operation (13 R390, R397) -/

/-- A closed channel ends an operation as CM selects (13 R397). -/
def State.closedChan (s : State) (e : EReg) : Res :=
  let x := s.ctx.ep e
  if x.cm then s.failChan e 6
  else s.trap Cause.chanClosed (BitVec.ofNat 32 (x.closedAt.1 * 2 ^ 16 + x.closedAt.2.1 * 2 ^ 8 + e.toNat))

/-- Step 1: the register state. A receive on a closed channel still takes what arrived before the notice. -/
def State.onChannel (s : State) (e : EReg) (recv : Bool) (k : Res) : Res :=
  match (s.ctx.ep e).st with
  | .none => s.trap Cause.epStale (e.setWidth 32)
  | .waiting => s.trap Cause.epStale (e.setWidth 32)
  | .kr => s.trap Cause.epStale (e.setWidth 32)
  | .delegated => s.trap Cause.epDelegated (e.setWidth 32)
  | .closed => if recv && (s.ctx.ep e).inbox != [] then k else s.closedChan e
  | .opened => k

/-- PROTO_MISMATCH at a register. -/
def State.mismatch (s : State) (e : EReg) : Res :=
  s.trap Cause.protoMismatch (BitVec.ofNat 32 ((s.ctx.ep e).state * 2 ^ 8 + e.toNat))

/-- An enabled edge of the current state. -/
def Ep.fit (x : Ep) (p : Edge → Bool) : Option Nat := (x.auto.enabled x.state x.ctrs).find? (fun j => p (x.auto.edge j))

/-- Bytes that the address checks of a kind use (13 R390). -/
def Ep.checkBytes (x : Ep) (kind : Nat) : Nat :=
  if x.st = .opened ∨ x.st = .closed then
    match x.fit (fun d => d.kind = kind) with
    | some j => shapeBytes (x.auto.edge j).shape
    | none => 4
  else 4

/-- Take edge `j`. -/
def Ep.advance (x : Ep) (j : Nat) : Ep := { x with state := (x.auto.take x.state j x.ctrs).1, ctrs := (x.auto.take x.state j x.ctrs).2 }

/-- A send that fits (13 R387, R391): it waits for the context's earlier accesses, for credit, and for a switched-out peer; then the
message leaves. -/
def State.sendOn (s : State) (e : EReg) (j : Nat) (m : Msg) : Res :=
  let x := s.ctx.ep e
  if !s.released s.cur then s.waits .interlock
  else if x.peerLook ≤ x.sent ∨ x.deferred ≠ [] then s.waits .endpoint
  else
    let own := s.nameOf s.cur e
    (s.send x.peerMod x.port (.msg own x.peer s.modnum (s.tenantOf s.cur) x.freed false m)).done (fun c =>
      (c.updEp e (fun x => { x.advance j with sent := x.sent + 1, freed := 0 })).setT true)

/-- A receive that fits: it waits until a message is present (13 R390); a message partly read through a stream does not fit (13
R393). -/
def State.recvOn (s : State) (e : EReg) (k : Msg → Res) : Res :=
  let x := s.ctx.ep e
  if x.readPos ≠ 0 then s.mismatch e
  else
    match x.inbox with
    | [] => s.waits .endpoint
    | m :: _ => k m

/-- The register after a receive by edge `j`: the slot is freed. -/
def Ep.consume (x : Ep) (j : Nat) : Ep := { x.advance j with inbox := x.inbox.tail, freed := x.freed + 1 }

/-! ### Payloads in memory (13 R392) -/

/-- The number of the first byte of a payload, or its fault: ALIGN, a window fault, PEER_ABSENT or ECC_UNCORRECTABLE. -/
def State.payloadAt (s : State) (ea : Word) (n : Nat) (send : Bool) : Except (BitVec 8) Nat :=
  let a := s.cur
  let win := if send then Cause.loadWindow else Cause.storeWindow
  let managed (b : AgentId) (o : Nat) : Bool := !send && !s.ctx.prv && (List.range n).any (fun i => s.hwManaged b (o + i))
  let ok (flat : Nat) : Except (BitVec 8) Nat := if send && s.hasBad flat n then .error Cause.ecc else .ok flat
  if ea.toNat % 4 ≠ 0 then .error Cause.align
  else
    match place a ea.toNat with
    | .ownTcm o => if o + n ≤ tcmSize a then (if managed a o then .error win else ok (ownTcmAt a o)) else .error win
    | .scratch f => if ea.toNat + n ≤ 0x00140000 then ok f else .error win
    | .matrix f => if ea.toNat + n ≤ 0x03020000 then ok f else .error win
    | .peer st c k o =>
      if o + n ≤ 0x20000 then
        (if managed (.core st c k 0) o then .error win
         else if s.present a st c k then ok (tcmAt st c k o) else .error Cause.peerAbsent)
      else .error win
    | .shared => .error win
    | .event _ => .error win
    | .aperture _ => .error win
    | .port _ => .error win
    | .unmapped => .error win

/-- A payload longer than a word is read or written word by word, other accesses between, where the draw says so; else at once (17
R464). -/
def State.wholePayload (s : State) (n : Nat) : Bool := n ≤ 4 || Config.choice s.draws % 2 = 0

/-- The payload that the group in issue has begun to read or write: its first byte, its length, and the bytes that it writes. -/
def State.openPayload (s : State) : Option (Nat × Nat × Option (List Byte) × List (Nat × List Byte)) :=
  match s.ctx.pend with
  | .payload flat n put done => some (flat, n, put, done)
  | .none => none
  | .asked _ _ _ => none
  | .half _ _ _ _ => none
  | .rmw _ _ _ _ _ => none
  | .port => none
  | .got _ => none
  | .bad _ _ => none

/-- The group begins to read or write its payload word by word. -/
def State.beginPayload (s : State) (flat n : Nat) (put : Option (List Byte)) : Res :=
  .next (s.upd (fun c => { c with pend := .payload flat n put [], wait := .load }))

/-- The bytes of a payload: words read before as they were read, the others as they stand. -/
def State.payloadBytes (s : State) (flat n : Nat) (done : List (Nat × List Byte)) : List Byte :=
  ((List.range ((n + 3) / 4)).flatMap (fun i => (lookup? done i).getD (s.bytesAt (flat + 4 * i) (min 4 (n - 4 * i))))).take n

/-- Write the words of a payload that are not yet written. -/
def State.payloadRest (s : State) (flat : Nat) (bs : List Byte) (done : List (Nat × List Byte)) : State :=
  (List.range ((bs.length + 3) / 4)).foldl (fun s i =>
    if (lookup? done i).isSome then s else s.storeBytes (flat + 4 * i) ((bs.drop (4 * i)).take 4)) s

/-- Word `i` of the payload of a SEND or RECV is read or written before the others (17 R464). -/
def State.payloadPart (s : State) (a : AgentId) (i : Nat) : State :=
  match (s.ctxOf a).pend with
  | .payload flat n put done =>
    let k := min 4 (n - 4 * i)
    if n ≤ 4 * i ∨ (lookup? done i).isSome then s
    else
      let did (s : State) (bs : List Byte) : State := s.updOf a (fun c => { c with pend := .payload flat n put ((i, bs) :: done) })
      match put with
      | some bs => did (s.storeBytes (flat + 4 * i) ((bs.drop (4 * i)).take 4)) []
      | none => if s.hasBad (flat + 4 * i) k then s else did (s.correct (flat + 4 * i) k) (s.bytesAt (flat + 4 * i) k)
  | .none => s
  | .asked _ _ _ => s
  | .half _ _ _ _ => s
  | .rmw _ _ _ _ _ => s
  | .port => s
  | .got _ => s
  | .bad _ _ => s

/-- A send by an edge has nothing left to wait for. -/
def State.sendReady (s : State) (x : Ep) : Bool := s.released s.cur && x.sent < x.peerLook && x.deferred = []

/-- SEND (13 R392). -/
def execSend (a : EReg) (b : XReg) (imm : Imm) (s : State) : Res :=
  let ea := s.ctx.ea b imm 1
  let x := s.ctx.ep a
  match s.payloadAt ea (x.checkBytes Kind.send) true with
  | .error code => s.trap code ea
  | .ok flat =>
    s.onChannel a false
      (match x.fit (fun d => d.kind = Kind.send) with
        | none => s.mismatch a
        | some j =>
          let d := x.auto.edge j
          let n := shapeBytes d.shape
          match s.openPayload with
          | some (_, _, _, done) => (s.correct flat n).sendOn a j ⟨Kind.send, d.tag, d.shape, s.payloadBytes flat n done, none⟩
          | none =>
            if s.sendReady x && !s.wholePayload n then s.beginPayload flat n none
            else (s.correct flat n).sendOn a j ⟨Kind.send, d.tag, d.shape, s.bytesAt flat n, none⟩)

/-- RECV (13 R392). -/
def execRecv (a : EReg) (b : XReg) (imm : Imm) (s : State) : Res :=
  let ea := s.ctx.ea b imm 1
  let x := s.ctx.ep a
  let edge (k : Nat → Msg → Res) : Res :=
    s.onChannel a true
      (match x.fit (fun d => d.kind = Kind.recv) with
        | none => s.mismatch a
        | some j => s.recvOn a (k j))
  match s.openPayload with
  | some (flat, _, _, done) =>
    edge (fun j m => (s.payloadRest flat m.payload done).done (fun c => (c.updEp a (·.consume j)).setT true))
  | none =>
    match s.payloadAt ea (x.checkBytes Kind.recv) false with
    | .error code => s.trap code ea
    | .ok flat =>
      edge (fun j m =>
        if s.wholePayload m.payload.length then (s.storeBytes flat m.payload).done (fun c => (c.updEp a (·.consume j)).setT true)
        else s.beginPayload flat m.payload.length (some m.payload))

/-! ### Payloads in registers -/

/-- The first `n` bytes of vector elements. -/
def State.laneBytes (s : State) (a : AgentId) (r : VReg) (n : Nat) : List Byte :=
  ((List.range ((n + 3) / 4)).flatMap (fun i => wordBytes4 (s.lane a r i))).take n

/-- VECTOR_LANES of SENDV and RECVV (13 R392), and the wait for the sequencer (10 R260). -/
def State.laneOp (s : State) (n : Nat) (k : Res) : Res :=
  s.coreOnly
    (if s.ctx.count = 0 ∨ 4 * s.ctx.vl < n then s.trap Cause.vectorLanes s.ctx.vlanes
     else if s.seqBusy s.cur then s.waits .sequencer
     else k)

/-- SENDV (13 R392). -/
def execSendv (a : EReg) (b : VReg) (s : State) : Res :=
  let x := s.ctx.ep a
  s.laneOp (x.checkBytes Kind.send)
    (s.onChannel a false
      (match x.fit (fun d => d.kind = Kind.send) with
        | none => s.mismatch a
        | some j =>
          let d := x.auto.edge j
          (s.noteReads s.cur [b]).sendOn a j ⟨Kind.send, d.tag, d.shape, s.laneBytes s.cur b (shapeBytes d.shape), none⟩))

/-- Element `i` with the bytes of a payload in their places. -/
def payloadElem (old : Word) (bs : List Byte) (i : Nat) : Option Word :=
  let mine := (bs.drop (4 * i)).take 4
  if mine = [] then none else some (wordOfBytes (mine ++ (wordBytes4 old).drop mine.length))

/-- RECVV (13 R392). -/
def execRecvv (a : EReg) (b : VReg) (s : State) : Res :=
  let x := s.ctx.ep a
  s.laneOp (x.checkBytes Kind.recv)
    (s.onChannel a true
      (match x.fit (fun d => d.kind = Kind.recv) with
        | none => s.mismatch a
        | some j => s.recvOn a (fun m =>
          -- a last element that is written in part is read first, and keeps an uncorrectable error
          let n := m.payload.length
          let s := if n % 4 = 0 then s else s.correct (vregAt (agentNo s.cur) b.toNat (n / 4)) 4
          (s.writeParts s.cur s.ctx.pcLow b (fun i => 4 * i + 4 ≤ n) (fun i =>
            payloadElem ((s.ctx.getV b).toArray.getD i 0) m.payload i)).done (fun c =>
            (c.updEp a (·.consume j)).setT true))))

/-- SENDX (13 R392). -/
def execSendx (a : EReg) (b : XReg) (s : State) : Res :=
  let x := s.ctx.ep a
  s.onChannel a false
    (match x.fit (fun d => d.kind = Kind.send && shapeBytes d.shape ≤ 4) with
      | none => s.mismatch a
      | some j =>
        let d := x.auto.edge j
        s.sendOn a j ⟨Kind.send, d.tag, d.shape, bytesOf (s.ctx.getX b).toNat (shapeBytes d.shape), none⟩)

/-- RECVX (13 R392). -/
def execRecvx (a : EReg) (b : XReg) (s : State) : Res :=
  let x := s.ctx.ep a
  s.onChannel a true
    (match x.fit (fun d => d.kind = Kind.recv && shapeBytes d.shape ≤ 4) with
      | none => s.mismatch a
      | some j => s.recvOn a (fun m => s.done (fun c => ((c.updEp a (·.consume j)).setX b (wordOfBytes m.payload)).setT true)))

/-- SELECT (13 R392). -/
def execSelect (a : EReg) (label : BitVec 6) (s : State) : Res :=
  let x := s.ctx.ep a
  s.onChannel a false
    (match x.fit (fun d => d.kind = Kind.select && d.label = label.toNat) with
      | none => s.mismatch a
      | some j => s.sendOn a j ⟨Kind.select, label.toNat, 0, [], none⟩)

/-- OFFER (13 R392): the edge with the label that arrives is taken. -/
def execOffer (a : XReg) (b : EReg) (s : State) : Res :=
  let x := s.ctx.ep b
  s.onChannel b true
    (match x.fit (fun d => d.kind = Kind.offer) with
      | none => s.mismatch b
      | some _ => s.recvOn b (fun m =>
        match x.fit (fun d => d.kind = Kind.offer && d.label = m.tag) with
        | none => s.mismatch b
        | some j => s.done (fun c => ((c.updEp b (·.consume j)).setX a (BitVec.ofNat 32 m.tag)).setT true)))

/-! ### Delegation (13 R394, R395) -/

/-- The image of an endpoint that a DSEND carries. -/
def Ep.image (x : Ep) (stub : Word) (stubMod : BitVec 9) : EpImage :=
  { auto := x.auto, state := x.state, ctrs := x.ctrs, gen := x.gen, peer := x.peer, peerMod := x.peerMod, peerTen := x.peerTen
    peerLook := x.peerLook, port := x.port, former := x.former
    closed := if x.st = .closed then some x.closedAt else none, cm := x.cm, cc := x.cc, sent := x.sent, readPos := x.readPos
    stub := stub, stubMod := stubMod }

/-- Streams bound to an endpoint are unbound. -/
def Ctx.unbindEp (c : Ctx) (e : EReg) : Ctx :=
  { c with streams := c.streams.map (fun t => if t = .endpoint e then .unbound else t) }

/-- The stub that takes over what the register holds: slots freed and not yet reported go with the first item as credit. -/
def Ep.stub (x : Ep) (name : Word) (tenant : Nat) : Stub :=
  { name := name, tenant := tenant, peer := x.peer, peerMod := x.peerMod, port := x.port, state := x.state, ctr := x.ctr, target := none
    items := x.inbox.map (.msg 0), direct := x.direct, earlier := x.moving }

/-- DSEND (13 R394). -/
def execDsend (a b : EReg) (s : State) : Res :=
  if a = b then s.illegal 9
  else
    let x := s.ctx.ep a
    let y := s.ctx.ep b
    s.onChannel a false (s.onChannel b false
      (match x.fit (fun d => d.kind = Kind.dsend) with
        | none => s.mismatch a
        | some j =>
          if stubCount s.cur ≤ s.unit.stubs.length then s.waits .endpoint
          else if !s.released s.cur then s.waits .interlock
          else if x.peerLook ≤ x.sent ∨ x.deferred ≠ [] then s.waits .endpoint
          else
            let name := s.nameOf s.cur b
            let t := s.tenantOf s.cur
            -- messages still held for a switched-out peer and slots the holder has freed go before the move
            let s := s.undefer s.cur b
            let s := if y.freed = 0 then s else s.send y.peerMod y.port (.credit name y.peer y.freed)
            let s := s.updUnit s.cur (fun u => { u with stubs := u.stubs ++ [y.stub name t] })
            let s := s.upd (fun c => (c.unbindEp b).updEp b (fun y => { y with
              st := .delegated, res := none, inbox := [], direct := [], moving := false, readPos := 0, freed := 0 }))
            s.sendOn a j ⟨Kind.dsend, (x.auto.edge j).tag, 0, [], some (y.image name s.modnum)⟩))

/-- The register that a delegated end is installed in; an outcome not yet reported stays (13 R385). -/
def Ep.install (e : Ep) (g : EpImage) (slot : Nat) (res : Nat × Nat) : Ep :=
  { Ep.reset with
    st := if g.closed.isSome then .closed else .opened, closedAt := g.closed.getD (0, 0, 0), pend := e.pend, port := g.port
    former := g.former, cm := g.cm, cc := g.cc, pmod := e.pmod, gen := g.gen, reason := e.reason, peer := g.peer, peerMod := g.peerMod
    peerTen := g.peerTen, peerLook := g.peerLook, auto := g.auto, slot := some slot, state := g.state, ctrs := g.ctrs, res := some res
    sent := g.sent, readPos := g.readPos, moving := true }

/-- DRECV (13 R395). -/
def execDrecv (a b : EReg) (s : State) : Res :=
  let x := s.ctx.ep a
  s.onChannel a true
    (match x.fit (fun d => d.kind = Kind.drecv) with
      | none => s.mismatch a
      | some j => s.recvOn a (fun m =>
        match m.ep with
        | none => s.mismatch a
        | some g =>
          if (s.ctx.ep b).st ≠ .none then s.failChan a 2
          else
            match s.freeSlot s.cur with
            | none => s.failChan a 7
            | some slot =>
              match s.ctx.allocate g.auto.resv with
              | none => s.failChan a 1
              | some res =>
                -- a request held at the register finds it in use
                let s := s.refuseHeld (s.ctx.ep b) 2
                let s := (s.fillSlot s.cur slot g.auto true).upd (fun c => c.updEp b (·.install g slot res))
                let name := s.nameOf s.cur b
                let s := if g.closed.isSome then s else s.send g.peerMod g.port (.moved name g.peer name s.modnum false)
                let s := s.send g.stubMod (s.routePort (s.tenantOf s.cur) g.stubMod) (.movedStub g.stub name s.modnum)
                s.done (fun c => (c.updEp a (·.consume j)).setT true)))

/-! ### Streams (06 R174; 12 R360, R361; 13 R393) -/

/-- The address of the generator's next element. -/
def Affine.addr (g : Affine) : Word :=
  let w (n : Nat) : Word := (g.words[n]?).getD 0
  w 1 + BitVec.ofNat 32 g.i0 * w 4 + BitVec.ofNat 32 g.i1 * w 5 + BitVec.ofNat 32 g.i2 * w 6 + BitVec.ofNat 32 g.i3 * w 7

/-- The count of a level. -/
def Affine.count (g : Affine) (level : Nat) : Nat :=
  let w := ((g.words[2 + level / 2]?).getD 0).toNat
  if level % 2 = 0 then w % 65536 else w / 65536

/-- The generator after an access. -/
def Affine.next (g : Affine) : Affine :=
  if g.i0 + 1 < g.count 0 then { g with i0 := g.i0 + 1 }
  else if g.i1 + 1 < g.count 1 then { g with i0 := 0, i1 := g.i1 + 1 }
  else if g.i2 + 1 < g.count 2 then { g with i0 := 0, i1 := 0, i2 := g.i2 + 1 }
  else if g.i3 + 1 < g.count 3 then { g with i0 := 0, i1 := 0, i2 := 0, i3 := g.i3 + 1 }
  else { g with exhausted := true }

def Affine.writes (g : Affine) : Bool := ((g.words[0]?).getD 0).toNat % 4 = 1

def Ctx.stream (c : Ctx) (b : SReg) : Stream := c.streams[b.toNat]
def Ctx.setStream (c : Ctx) (b : SReg) (t : Stream) : Ctx := { c with streams := c.streams.set b.toNat t }

/-- The generator behind a stream, or its fault. -/
def State.generator (s : State) (b : SReg) (write : Bool) (g : Affine) (k : Res) : Res :=
  let code := if write then Cause.storeWindow else Cause.loadWindow
  if g.writes ≠ write then s.trap code (4 + b.setWidth 32)
  else if g.exhausted then s.trap code (8 + b.setWidth 32)
  else if (tcmOrScratch s.cur g.addr.toNat 4).isNone then s.trap code g.addr
  else k

/-- The next 4 bytes of the message that a stream reads, by edge `j` when it is a new message. -/
def Ep.readWord (x : Ep) (m : Msg) : Word × Ep :=
  let bs := (m.payload.drop x.readPos).take 4
  let x' := if m.payload.length ≤ x.readPos + 4 then { x with inbox := x.inbox.tail, readPos := 0, freed := x.freed + 1 }
    else { x with readPos := x.readPos + 4 }
  (wordOfBytes bs, x')

/-- A read of a stream bound to an endpoint (13 R393). -/
def State.streamRecv (s : State) (e : EReg) (put : Word → Ctx → Ctx) : Res :=
  let x := s.ctx.ep e
  s.onChannel e true
    (match x.inbox with
      | m :: _ =>
        if x.readPos ≠ 0 then
          let r := x.readWord m
          s.done (fun c => put r.1 (c.setEp e r.2))
        else
          match x.fit (fun d => d.kind = Kind.recv) with
          | none => s.mismatch e
          | some j =>
            let r := (x.advance j).readWord m
            s.done (fun c => put r.1 (c.setEp e r.2))
      | [] => if x.readPos = 0 ∧ (x.fit (fun d => d.kind = Kind.recv)).isNone then s.mismatch e else s.waits .endpoint)

/-- SRD and SRDF (06 R174). -/
def State.streamRead (s : State) (b : SReg) (put : Word → Ctx → Ctx) : Res :=
  match s.ctx.stream b with
  | .unbound => s.trap Cause.loadWindow (b.setWidth 32)
  | .endpoint e => s.streamRecv e put
  | .affine g =>
    s.generator b false g
      (s.loadInto g.addr 4 (fun bs c => put (wordOfBytes bs) (c.setStream b (.affine g.next))))

/-- SWR and SWRF (06 R174). -/
def State.streamWrite (s : State) (b : SReg) (w : Word) : Res :=
  match s.ctx.stream b with
  | .unbound => s.trap Cause.storeWindow (b.setWidth 32)
  | .endpoint _ => s.trap Cause.storeWindow (4 + b.setWidth 32)
  | .affine g =>
    s.generator b true g
      (match s.store s.cur g.addr (wordBytes4 w) false with
        | .done t => t.done (fun c => c.setStream b (.affine g.next))
        | .wait t => .next t
        | .bad code tval => s.trap code tval)

/-- SRD (06 R174). -/
def execSrd (a : XReg) (b : SReg) (s : State) : Res := s.streamRead b (fun w c => c.setX a w)
/-- SRDF (06 R174). -/
def execSrdf (a : FReg) (b : SReg) (s : State) : Res := s.streamRead b (fun w c => c.setF a w)
/-- SWR (06 R174). -/
def execSwr (a : XReg) (b : SReg) (s : State) : Res := s.streamWrite b (s.ctx.getX a)
/-- SWRF (06 R174). -/
def execSwrf (a : FReg) (b : SReg) (s : State) : Res := s.streamWrite b (s.ctx.getF a)

/-- SBIND (13 R393): the register must be OPEN. -/
def execSbind (a : SReg) (b : EReg) (s : State) : Res :=
  s.onChannel b false (s.done (fun c => c.setStream a (.endpoint b)))

/-- Word `n` of an affine descriptor obeys its table (12 R360). -/
def affineWordOk (n : Nat) (w : Word) : Bool :=
  match n with
  | 0 => bitsOf w.toNat 31 24 = 5 && bitsOf w.toNat 23 2 = 0 && w.toNat % 4 ≤ 1
  | 2 => bitsOf w.toNat 31 16 ≠ 0 && w.toNat % 65536 ≠ 0
  | 3 => bitsOf w.toNat 31 16 ≠ 0 && w.toNat % 65536 ≠ 0
  | _ => w.toNat % 4 = 0

/-- SBINDA (12 R360). -/
def execSbinda (a : SReg) (b : XReg) (s : State) : Res :=
  let d := s.ctx.getX b
  if d.toNat % 4 ≠ 0 then s.trap Cause.align d
  else
    match tcmOrScratch s.cur d.toNat 32 with
    | none => s.trap Cause.loadWindow d
    | some flat =>
      match s.firstWrong flat 8 affineWordOk, s.readBlock flat 8 with
      | some n, _ => (s.correct flat 32).trap Cause.loadWindow (d + BitVec.ofNat 32 (4 * n))
      | none, none => s.trap Cause.ecc d
      | none, some (t, ws) => t.done (fun c => c.setStream a (.affine ⟨ws, 0, 0, 0, 0, false⟩))

/-- SUNBIND (13 R393). -/
def execSunbind (a : SReg) (s : State) : Res := s.done (fun c => c.setStream a .unbound)

/-! ### Key-routed sends and the receive-accumulate unit (13 R404-R406) -/

/-- The destination index of a key (13 R405). -/
def keyDest (log2n : Nat) (key : Word) : Nat := if log2n = 0 then 0 else (key * 0x9E3779B9).toNat / 2 ^ (32 - log2n)

/-- A route table's words are well formed (13 R404). -/
def routeOk (ws : List Word) : Bool :=
  let w0 := ((ws[0]?).getD 0).toNat
  bitsOf w0 31 24 = 7 && bitsOf w0 23 4 = 0 && w0 % 16 ≤ 8

/-- A word of a destination in a route table (13 R404). -/
def routeDest (w : Word) : Bool := w.toNat % 4096 = 0

/-- The words of the table of a KR register, or its fault: of a word that cannot be read only where no other word is at fault (06
R180). The state is that after the words were read (12 R371). -/
def State.routeTable (s : State) (rtab : BitVec 24) : State × Except (BitVec 8) (List Word) :=
  let at_ := rtab.toNat * 256
  match tcmOrScratch s.cur at_ 4 with
  | none => (s, .error Cause.loadWindow)
  | some flat =>
    if s.hasBad flat 4 then
      -- whatever word 0 held, word 1 names a destination
      (s.correct (flat + 4) 4, .error (if (s.firstWrong (flat + 4) 1 (fun _ => routeDest)).isSome then Cause.loadWindow else Cause.ecc))
    else if !routeOk [s.wordAt flat] then (s.correct flat 4, .error Cause.loadWindow)
    else
      let n := 2 ^ ((s.wordAt flat).toNat % 16)
      match tcmOrScratch s.cur at_ (4 * (n + 1)), s.firstWrong (flat + 4) n (fun _ => routeDest), s.readBlock flat (n + 1) with
      | none, _, _ => (s.correct flat 4, .error Cause.loadWindow)
      | some _, some _, _ => (s.correct flat (4 * (n + 1)), .error Cause.loadWindow)
      | some _, none, none => (s.correct flat (4 * (n + 1)), .error Cause.ecc)
      | some _, none, some (t, ws) => (t, .ok ws)

/-- Send the contributions of destinations from `d` on. -/
def State.contribute (s : State) (e : EReg) (pairs : List (Word × Word)) (log2n : Nat) (dom : Option (BitVec 10)) :
    Nat → List Word → State
  | _, [] => s
  | d, name :: rest =>
    let mine := pairs.filter (fun p => keyDest log2n p.1 = d)
    State.contribute { s with mesh := s.mesh ++ [Mesh.contribution s.cur e name (s.tenantOf s.cur) mine dom false] } e pairs log2n dom
      (d + 1) rest

/-- VKSEND (13 R405). A register that is not KR and a COUNT of 0 are causes of one rank, which the spec does not order: the register's
comes first here (log 46). -/
def execVksend (a : EReg) (b c : VReg) (s : State) : Res :=
  s.coreOnly
    (let x := s.ctx.ep a
     match x.st with
     | .none => s.trap Cause.epStale (a.setWidth 32)
     | .waiting => s.trap Cause.epStale (a.setWidth 32)
     | .delegated => s.trap Cause.epDelegated (a.setWidth 32)
     | .opened => s.mismatch a
     | .closed => s.mismatch a
     | .kr =>
       match s.routeTable x.rtab with
       | (t, .error code) => t.trap code (x.rtab.setWidth 32 <<< 8)
       | (t, .ok ws) =>
         if s.ctx.count = 0 then t.trap Cause.vectorLanes s.ctx.vlanes
         else if s.seqBusy s.cur then s.waits .sequencer
         else if !s.released s.cur then s.waits .interlock
         else
           let pairs := (List.range s.ctx.vl).map (fun i => (s.lane s.cur b i, s.lane s.cur c i))
           let log2n := ((ws[0]?).getD 0).toNat % 16
           let t := (t.noteReads s.cur [b, c]).contribute a pairs log2n s.ctx.innermost 0 ws.tail
           t.done (fun k => { k with contribsOut := k.contribsOut + ws.tail.length }.setT true))

/-- The status word of RAUCFG (13 R406). -/
def Rau.status (r : Rau) : Word :=
  BitVec.ofNat 32 (bit r.sat * 2 ^ 31 + bit r.drop * 2 ^ 30 + bit r.fovf * 2 ^ 29 + r.contribs * 2 ^ 18 + r.elems)

/-- One element applied to the bins of its destination (13 R406). A bin word with an uncorrectable error stays as it is and is
reported. -/
def State.rauElem (s : State) (a : AgentId) (st c : Nat) (p : Word × Word) : State :=
  let r := (s.ctxOf a).rau
  let count (s : State) (f : Rau → Rau) : State := s.updOf a (fun x => { x with rau := f { x.rau with elems := min (x.rau.elems + 1) 262143 } })
  if r.kind = 0 then count s (fun r => { r with drop := true })
  else
    let flat := scratchAt st c (r.base.toNat + 4 * (p.1.toNat % 2 ^ r.log2bins.toNat))
    if s.hasBad flat 4 then count (s.reportOf a (0x00100000 + r.base.toNat + 4 * (p.1.toNat % 2 ^ r.log2bins.toNat))) id
    else
      let s := s.correct flat 4
      let old := s.wordAt flat
      if r.kind = 1 then
        let e := Elem.clamp (old.toInt + p.2.toInt)
        count (s.storeWord flat e.w) (fun r => { r with sat := r.sat || e.sat })
      else
        let w := (addF 0 old p.2).1
        let special (x : Word) : Bool := 0x7F800000 ≤ x.toNat % 2 ^ 31
        count (s.storeWord flat w) (fun r => { r with fovf := r.fovf || (special w && !special old && !special p.2) })

/-- A contribution reaches its destination: applied and counted, discarded by a hart, or dropped, which marks the sending register (13
R405, R406). -/
def State.applyContribution (s : State) (src : AgentId) (e : EReg) (dst : Word) (tenant : Nat) (pairs : List (Word × Word)) : State :=
  let s := s.updOf src (fun c => { c with contribsOut := c.contribsOut - 1 })
  let lost (s : State) : State := s.updEp src e (fun x => if x.st = .kr then { x with lost := true } else x)
  match agentOfName dst with
  | none => lost s
  | some a =>
    if (s.ctxOf a).phase ≠ .live ∨ s.tenantOf a ≠ tenant then lost s
    else
      let counted (s : State) : State := s.updOf a (fun c => { c with rau := { c.rau with contribs := min (c.rau.contribs + 1) 2047 } })
      match a with
      | .core st c _ _ => counted (pairs.foldl (fun s p => s.rauElem a st c p) s)
      | _ => counted (s.updOf a (fun c => { c with rau := { c.rau with drop := true, elems := min (c.rau.elems + pairs.length) 262143 } }))

/-- CONTRIBUTION_APPLY (13 R406). -/
def execContributionApply (n : Nat) (s : State) : Res :=
  match s.arrives n with
  | some (.contribution src e dst tenant pairs _ _) => .next ((s.taken n).applyContribution src e dst tenant pairs)
  | _ => .next s

/-- One element of a contribution that has arrived at a core context is applied; the rest stands in the mesh (17 R464). -/
def State.elementPart (s : State) (n : Nat) : State :=
  match s.arrives n with
  | some (.contribution src e dst tenant (p :: rest) dom _) =>
    match agentOfName dst with
    | some (.core st c k x) =>
      let a := AgentId.core st c k x
      if (s.ctxOf a).phase ≠ .live ∨ (s.ctxOf a).stopped ∨ s.tenantOf a ≠ tenant then s
      else { s.rauElem a st c p with mesh := s.mesh.set n (.contribution src e dst tenant rest dom true) }
    | _ => s
  | _ => s

/-- A contribution to a context that is being applied. -/
def Mesh.begunAt (a : AgentId) : Mesh → Bool
  | .contribution _ _ dst _ _ _ begun => begun && agentOfName dst = some a
  | _ => false

/-- Contributions that are being applied to a context are applied whole (13 R406, 18 R478). -/
def State.finishBegun (s : State) (a : AgentId) : State :=
  let mine := s.mesh.filter (Mesh.begunAt a)
  if mine = [] then s
  else
    mine.foldl (fun s m =>
      match m with
      | .contribution src e dst tenant pairs _ _ => s.applyContribution src e dst tenant pairs
      | _ => s) { s with mesh := s.mesh.filter (fun m => !m.begunAt a) }

/-- RAUCFG (13 R406). A new configuration waits for a contribution whose elements are being applied. -/
def execRaucfg (a b : XReg) (s : State) : Res :=
  let w := s.ctx.getX b
  let kind := bitsOf w.toNat 31 30
  let log2 := bitsOf w.toNat 29 26
  let base := bitsOf w.toNat 17 0
  let first := BitVec.ofNat 32 (0x00100000 + base)
  let uses := kind = 1 || kind = 2
  if bitsOf w.toNat 25 18 ≠ 0 ∨ (uses && (base % 4 ≠ 0 || 0x40000 < base + 4 * 2 ^ log2 || isHart s.cur)) then s.trap Cause.storeWindow first
  else
    if kind = 3 then
      let st := s.ctx.rau.status
      s.done (fun c => c.setX a st)
    else
      let s := s.finishBegun s.cur
      let st := s.ctx.rau.status
      s.done (fun c => { c with
        rau := ⟨BitVec.ofNat 2 kind, BitVec.ofNat 4 log2, BitVec.ofNat 18 base, false, false, false, 0, 0⟩ }.setX a st)

end Sys2Proof.Machine
end

