-- ==== Sys2Proof/Machine/Retire.lean ====
section
/-!
DEFINITION. Machine/Retire.lean: END, END.FAIL, SPAWN, retirement by a fatal trap or a stop, and the delivery of traps (06 R175-R178,
R182, R184; 18 R474, R491).
-/
namespace Sys2Proof.Machine

/-! ### What retirement waits for (06 R175) -/

/-- The tile is flushed, every store is answered, the copy jobs, matrix commands and sequencer entries of the context are done. -/
def State.quiet (s : State) (a : AgentId) : Bool :=
  s.flushed a && !s.unacked a && !s.jobBusy a && !s.matrixBusy a && !s.seqBusy a

/-- The first of the traps that wait at a retirement: a refusal or a job fault (06 R175). -/
def State.pendingCause (s : State) (a : AgentId) : Option (BitVec 8) :=
  if (s.refusalDue a).isSome then some Cause.postedRefused
  else if (s.ctxOf a).jobFaults ≠ [] then some Cause.jobFault
  else none

/-! ### The step of retirement (06 R175, R176; 18 R491) -/

/-- Every endpoint register is left for good and its generation increments (06 R175, 13 R374). -/
def State.leaveEnds (s : State) (a : AgentId) (cause : Nat) : State :=
  (List.range 16).foldl (fun s n =>
    let e := BitVec.ofNat 4 n
    let x := (s.ctxOf a).ep e
    ((s.abandon a e cause cause 5).dropSlot a x).updEp a e Ep.clear) s

/-- The channels of the registers in use are closed and those registers return to NONE (03 R84, 13 R374); a register in NONE is left. -/
def State.parkEnds (s : State) (a : AgentId) (cause : Nat) : State :=
  (List.range 16).foldl (fun s n =>
    let e := BitVec.ofNat 4 n
    let x := (s.ctxOf a).ep e
    if x.st = .none then s else ((s.abandon a e cause cause 5).dropSlot a x).updEp a e Ep.clear) s

/-- Automaton slots that a stopped context's queue has loaded, or that the context's endpoints use, and that no other live context uses,
are freed (13 R384, 18 R491). -/
def State.freeSlots (s : State) (a : AgentId) : State :=
  let c := s.ctxOf a
  let mine (x : Nat × Slot) : Bool := c.eps.toList.any (fun e => e.slot = some x.1) || (x.2.queue.isSome && x.2.queue = c.origin.queue?)
  let others := (s.ctxs.filter (fun p => p.1 ≠ a && unitKey p.1 = unitKey a && p.2.phase = .live)).flatMap (fun p => p.2.eps.toList.filterMap (·.slot))
  if (s.unitOf a).slots.any mine then
    s.updUnit a (fun u => { u with slots := u.slots.filter (fun x => !mine x || others.contains x.1) })
  else s

/-- Automaton slots that a queue has loaded and that no endpoint of a live context uses are freed at its teardown (13 R384). -/
def State.freeQueueSlots (s : State) (q : Nat) : State :=
  let used (u : AgentId) (n : Nat) : Bool := s.ctxs.any (fun p => unitKey p.1 = u && p.2.phase = .live && p.2.eps.toList.any (fun e => e.slot = some n))
  let left (u : AgentId) (x : Nat × Slot) : Bool := x.2.queue ≠ some q || used u x.1
  { s with
    units := s.units.map (fun p => (p.1, { p.2 with slots := p.2.slots.filter (left p.1) }))
    switches := s.switches.map (fun w => (w.1, { w.2 with
      units := w.2.units.map (fun p => (p.1, { p.2 with slots := p.2.slots.filter (fun x => x.2.queue ≠ some q) })) })) }

/-- Mutexes that the context holds go to their next waiters (15 R437). -/
def State.dropMutexes (s : State) (a : AgentId) : State :=
  if (s.unitOf a).mutexes.any (fun m => m.2.owner = some a) then
    s.updUnit a (fun u => { u with mutexes := u.mutexes.map (fun m => if m.2.owner = some a then (m.1, m.2.handOver) else m) })
  else s

/-- Refusal records of the context are discarded, and the loop buffer it holds is free (12 R351, 06 R172). -/
def Core.leave (k : Core) (a : AgentId) : Core :=
  { k with
    journal := k.journal.filter (fun p => p.2.ctx ≠ a)
    seq := k.seq.filter (fun e => e.ctx ≠ a)
    loopBuf := match k.loopBuf with
      | some b => if b.holder = ctxIndex a then none else some b
      | none => none }

/-- The state of a context that has retired: no lanes, no domain, no stream, nothing pending. Its registers keep their bits. -/
def Ctx.leave (c : Ctx) (p : Phase) : Ctx :=
  { c.setCount 0 with
    phase := p, retiring := none, child := false, origin := .none, want := 0, vmin := 0, owed := 0, vloop := none
    dom := Vector.replicate 4 ⟨false, 0⟩, live := 0, pause := .no, causality := none, watchdog := none, arrival := none, barrierFree := false
    nanRecord := none, operandTrap := none, resumable := false, mchain := { c.mchain with susp := false }, jobFaults := []
    clearedRefusals := []
    streams := Vector.replicate 4 .unbound, flushing := false, wait := .none, pend := .none, haltReq := false, halted := false
    stopped := false, fetchBuf := [], missed := false, stepping := false, inIssue := [], flight := [], pauseFlags := 0 }

/-- A seat of a site is reserved until the site is released; a child, the context of a message and a hart become idle (03 R56, R74). -/
def Ctx.after (c : Ctx) : Phase :=
  match c.origin with
  | .member _ _ _ _ => if c.child then .idle else .reserved
  | .none => .idle
  | .message _ => .idle
  | .loader _ => .idle
  | .firmware => .idle

/-- Cause of the channels that a retirement closes (13 R398). -/
def Retire.channelCause : Retire → Nat
  | .ended => 0
  | .failed => 0
  | .fatal _ => 1
  | .stopped => 5

/-- The one step in which a context retires. -/
def State.retire (s : State) (a : AgentId) (how : Retire) : State :=
  let c := s.ctxOf a
  let s := s.leaveQueues a
  let s := s.finishBegun a
  let s := if how = .stopped then s.freeSlots a else s
  let s := s.leaveEnds a how.channelCause
  let s := s.dropMutexes a
  let s := s.leaveDomain a
  let s := s.updCore a (fun k => k.leave a)
  let s := (s.updOf a (fun x => x.leave c.after)).forgetLanes a 0
  let s := s.serveLanes a
  s.countEnd a c.origin c.child how

/-! ### END and END.FAIL (06 R175, R176) -/

/-- The wait of END, and retirement when it is over. A suspended matrix command is cancelled (11 R325). -/
def State.endGroup (s : State) (how : Retire) : Res :=
  s.outsideLoop
    (let t := (s.startFlush s.cur).cancelMatrix s.cur
     if t.quiet s.cur then
       match t.pendingCause s.cur with
       | none => .next (t.retire s.cur how)
       | some code => .next (t.retire s.cur (.fatal code))
     else t.waits .retire)

/-- END (06 R175). -/
def execEndCtx (s : State) : Res := s.endGroup .ended
/-- END.FAIL (06 R176). -/
def execEndFail (s : State) : Res := s.endGroup .failed

/-! ### Fatal traps and stops (06 R182, 18 R491) -/

/-- Matrix commands of a stopped context, but the tile operation in service, end as a cancel ends them (11 R325, 18 R491). -/
def State.cancelQueued (s : State) (a : AgentId) : State :=
  -- a ring step in progress completes first
  let s := (if s.member (coreKey a) then s.ringStep a else s).cancelMatrix a
  let busy := (s.unitOf a).service = some (coreKey a) || (s.head? a).any (fun m => m.early ≠ [])
  let ring := s.member a
  let cut (m : MCmd) : Option MCmd :=
    if m.ctx ≠ a || m.cancelled then some m
    else if m.kind = .mmar && ring then
      -- a ring point that the chain has reached and not passed is one of those that remain
      some { m with done := if m.atRing then m.done - 1 else m.done, susp := false, cancelled := true, atRing := true, flags := 0, sat := false }
    else none
  let q := (s.coreOf a).mqueue
  let flags := (q.filter (fun m => m.ctx = a)).foldl (fun f m => f ||| m.flags) (0 : BitVec 5)
  let sat := q.any (fun m => m.ctx = a && m.sat)
  match q with
  | [] => s
  | h :: rest =>
    let q' := if busy && h.ctx = a then h :: rest.filterMap cut else (h :: rest).filterMap cut
    ((s.updOf a (fun c => c.orFp flags sat)).updCore a (fun k => { k with mqueue := q' })).soleRing (coreKey a)

/-- Copy jobs of a stopped context finish the rows in progress and write their mailboxes with STATUS 2 (12 R365). -/
def State.cancelJobs (s : State) (a : AgentId) : State :=
  let u := jobUnit a
  let mine := (s.unitOf u).jobs.filter (fun j => j.ctx = a)
  if mine = [] then s
  else
    let s := mine.foldl (fun s j => s.finishRows j) s
    let s := s.updUnit u (fun x => { x with jobs := x.jobs.filter (fun j => j.ctx ≠ a) })
    mine.foldl (fun s j => s.writeMail j (mailWord 2 0 j.id)) s

/-- What a stop leaves of an item of the sequencer: of its own context, the entry that has started (18 R478, R491). -/
def SeqItem.cut (a : AgentId) (i : SeqItem) : Option SeqItem :=
  if i.ctx ≠ a then some i
  else if i.begun then i.next?.map .one
  else none

/-- A stop discards the entries of the sequencer and the work that is not in service. -/
def State.cutShort (s : State) (a : AgentId) : State :=
  ((s.cancelQueued a).cancelJobs a).updCore a (fun k => { k with seq := k.seq.filterMap (·.cut a) })

/-- The turn of a context that retires by a fatal trap or a stop: its work ends, its tile is flushed, and then it retires. -/
def State.retireTurn (s : State) (a : AgentId) (how : Retire) : State :=
  let s := if how = .stopped then s.cutShort a else s.cancelMatrix a
  let s := s.startFlush a
  if s.quiet a then s.retire a how else s

/-- The turn of a context that is retiring, if it is. -/
def State.retiringTurn (s : State) (a : AgentId) : Option State :=
  match (s.ctxOf a).retiring with
  | some how => some ({ s with cur := a }.retireTurn a how)
  | none => none

/-- Contexts that are retiring and take turns of their own. -/
def State.retirers (s : State) : List AgentId := (s.ctxs.filter (fun p => p.2.phase = .live && p.2.retiring.isSome)).map (·.1)

/-! ### SPAWN (06 R178) -/

/-- The lowest-numbered idle context of a core. -/
def State.idleOn (s : State) (a : AgentId) : Option AgentId :=
  match a with
  | .core st c k _ => ((List.range 4).map (fun x => AgentId.core st c k x)).find? (fun b => (s.ctxOf b).phase = .idle)
  | _ => none

/-- An endpoint register at a context start: it keeps its generation, and PMOD is the module's own number (13 R373). -/
def Ep.start (e : Ep) (mod : BitVec 9) : Ep := { Ep.reset with gen := e.gen, pmod := mod }

/-- A context that starts: everything is as at a context start. `stop` is the stop time of its switch set. 03 R58 gives zero for every
register that it does not name, while the register tables give MFMT, MROWMASK, DECL and SWITCHAT values of their own (11 R301, R302; 15
R417; 18 R476): the tables' values stand here (log 46). -/
def Ctx.start (old : Ctx) (tenant : Nat) (o : Origin) (stop : BitVec 64) (mod : BitVec 9) : Ctx :=
  { Ctx.reset with phase := .live, tenant := tenant, origin := o, switchat := stop, eps := old.eps.map (·.start mod) }

/-- The stop time that contexts of a tenant read in SWITCHAT (18 R476). -/
def State.stopTime (s : State) (tenant : Nat) : BitVec 64 :=
  match lookup? s.switches tenant with
  | some w => if w.phase = .scheduled then BitVec.ofNat 64 w.stop else BitVec.allOnes 64
  | none => BitVec.allOnes 64

/-- The child of a SPAWN. -/
def Ctx.child_ (c old : Ctx) (a : XReg) (pc : Word) (stop : BitVec 64) (mod : BitVec 9) : Ctx :=
  { (Ctx.start old c.tenant c.origin stop mod) with child := true, x := c.x, pc := c.pc, tvec := c.tvec, rm := c.rm }.setX a 0 |>.setPc pc

/-- SPAWN (06 R178). On a hart an odd x[b] raises ALIGN, as the first line of the pseudocode has it, and otherwise T := 0 (DESIGN CHOICE: the
last sentence of the rule gives T := 0 there always; log 46). -/
def execSpawn (a b : XReg) (s : State) : Res :=
  let c := s.ctx
  let pc := c.getX b
  if pc.getLsbD 0 then s.trap Cause.align pc
  else
    match s.idleOn s.cur with
    | none => s.done (fun k => k.setT false)
    | some k =>
      let child := c.child_ (s.ctxOf k) a pc c.switchat s.modnum
      (s.setCtxOf k child).done (fun x => (x.setX a (BitVec.ofNat 32 (ctxIndex k))).setT true)

/-! ### Trap delivery (18 R474) -/

/-- A context at a group boundary at which a trap may be taken. -/
def State.atBoundary (s : State) (a : AgentId) : Bool := (s.ctxOf a).candidate && !s.stopDue a

/-- TRAP_DELIVERY (18 R474): the turn of a context, when a trap of items 1 to 3, CAUSALITY_CYCLE or a fatal trap's retirement is due. -/
def execTrapDelivery (ag : AgentId) (s : State) : Res :=
  match s.retiringTurn ag with
  | some t => .next t
  | none => if s.atBoundary ag && s.due ag ≠ .none then .next ({ s with cur := ag }.dueTurn ag (s.due ag)) else .next s

end Sys2Proof.Machine
end

