-- ==== Sys2Proof/Machine/Arrivals.lean ====
section
/-!
DEFINITION. Machine/Arrivals.lean: the events of instruction fetch, loads, posted stores and translation (04 R113-R116; 06 R142; 12
R350, R351, R358).
-/
namespace Sys2Proof.Machine

/-- What fetching the next group of a context does, when it may issue and no trap is due. -/
def State.fetchTurn (s : State) (a : AgentId) : Option Fetched :=
  if s.atBoundary a && s.due a = .none && !isHart a then some ({ s with cur := a }.fetch a) else none

/-- LINE_FILL (04 R113): a context whose next group needs an absent line starts its fill and waits. -/
def execLineFill (ag : AgentId) (s : State) : Res :=
  match s.fetchTurn ag with
  | some (.later t) => if (t.ctxOf ag).wait = .fill then .next t else .next s
  | _ => .next s

/-- SCHEDULE_SLIP (04 R116): a context whose group extends into the next block spends its turn loading that block. -/
def execScheduleSlip (ag : AgentId) (s : State) : Res :=
  match s.fetchTurn ag with
  | some (.later t) => if (t.ctxOf ag).slips ≠ (s.ctxOf ag).slips then .next t else .next s
  | _ => .next s

/-- FILL_ARRIVAL (04 R113, R114): the line at an address of a tenant arrives at a cluster. -/
def execFillArrival (u : AgentId) (tenant : Nat) (line : BitVec 48) (s : State) : Res :=
  match u with
  | .core st c _ _ => .next (s.fillArrival st c tenant (line.toNat / 64))
  | _ => .next s

/-- LOAD_RETURN (06 R142, 12 R348): the data of a waiting load, or its fault, have arrived; its group completes when the context is
next chosen. -/
def execLoadReturn (ag : AgentId) (s : State) : Res := .next (s.loadReturn ag)

/-- STORE_PERFORMED (12 R350, R351): the store of a journal entry reaches its home. -/
def execStorePerformed (core : AgentId) (entry : BitVec 4) (s : State) : Res := .next (s.perform core entry.toNat)
/-- STORE_ACK (12 R350). -/
def execStoreAck (core : AgentId) (entry : BitVec 4) (s : State) : Res := .next (s.acknowledge core entry.toNat)
/-- STORE_REFUSAL (12 R351). -/
def execStoreRefusal (core : AgentId) (entry : BitVec 4) (s : State) : Res := .next (s.refuseStore core entry.toNat)

/-- TRANSLATION_REQUEST (12 R358): the access that starts a translation, made by the context in issue. -/
def execTranslationRequest (write : Bool) (va : BitVec 48) (s : State) : Res :=
  match s.store s.cur (if write then 0xA0000008 else 0xA0000000) (bytesOf va.toNat 8) false with
  | .done t => .next t
  | .wait t => .next t
  | .bad code tval => s.trap code tval

/-- The word a translation port holds (12 R358). -/
def portWord (va : Nat) : Walk → Word
  | .ok row => BitVec.ofNat 32 (0xC0000000 + row * 2 ^ 21 + va % 2 ^ 21)
  | .fail r => BitVec.ofNat 32 r

/-- TRANSLATION_DONE (12 R356, R358): the older of the translations in progress is done. Reason 3 comes before the others, and the tenant is
that of TENANT as it then stands (DESIGN CHOICE: 12 R358 gives the reasons no order, nor the moment at which TENANT is taken; log 46). -/
def execTranslationDone (ag : AgentId) (s : State) : Res :=
  match (s.ctxOf ag).port with
  | [] => .next s
  | (write, va) :: rest =>
    let put (s : State) (w : Word) : State :=
      s.updOf ag (fun c => { c with port := rest, portResult := c.portResult.set! (bit write) w })
    if homeMemoryCore va.toNat ≠ ag then .next (put s 3)
    else
      let p := s.translate ag (s.hartOf ag).tenant.toNat va.toNat (if write then .write else .read)
      .next (put p.1 (portWord va.toNat p.2))

end Sys2Proof.Machine
end

