-- ==== Sys2Proof/Machine/Sha.lean ====
section
/-!
DEFINITION. Machine/Sha.lean: SHA-256 (22 R533, R534) and the CRC-64 of ECMA-182 (22 R528), as their standards define them.
-/
namespace Sys2Proof.Machine

/-! ### SHA-256 -/

/-- `r0` and the largest number of `bits` bits more whose `k`-th power is at most `n`, found one bit at a time. -/
def rootBits (k n : Nat) : Nat → Nat → Nat
  | 0, r0 => r0
  | b + 1, r0 => rootBits k n b (if (r0 + 2 ^ b) ^ k ≤ n then r0 + 2 ^ b else r0)

/-- The first 32 bits of the fractional part of the `k`-th root of `p`. -/
def rootFraction (k p : Nat) : BitVec 32 := BitVec.ofNat 32 (rootBits k (p * 2 ^ (32 * k)) 37 0)

/-- No number from 2 to `d + 1` divides `n`, `n` itself apart. -/
def noDivisor (n : Nat) : Nat → Bool
  | 0 => true
  | d + 1 => (n % (d + 2) != 0 || n == d + 2) && noDivisor n d

/-- The 64 primes up to 311. -/
def shaPrimes : List Nat := (List.range 312).filter (fun n => 2 ≤ n && noDivisor n 16)

/-- The round constants: the standard takes them from the cube roots of the first 64 primes. -/
def shaK : List (BitVec 32) := shaPrimes.map (rootFraction 3)

/-- The initial hash value: from the square roots of the first 8 primes. -/
def shaInit : List (BitVec 32) := (shaPrimes.take 8).map (rootFraction 2)

/-- Big-endian bytes. -/
def beBytes (n : Nat) : Nat → List Byte
  | 0 => []
  | k + 1 => BitVec.ofNat 8 (n / 2 ^ (8 * k)) :: beBytes n k

/-- The padded message: a one bit, zeros, and the length in bits in 64 bits. -/
def shaPad (m : List Byte) : List Byte :=
  m ++ [0x80] ++ List.replicate ((119 - m.length % 64) % 64) 0 ++ beBytes (8 * m.length) 8

def shaWords : Nat → List Byte → List (BitVec 32)
  | 0, _ => []
  | n + 1, bs => BitVec.ofNat 32 ((bs.take 4).foldl (fun v b => v * 256 + b.toNat) 0) :: shaWords n (bs.drop 4)

/-- The exclusive or of a word turned right by each of the amounts. -/
def turns (by_ : List Nat) (x : BitVec 32) : BitVec 32 := by_.foldl (fun acc r => acc ^^^ x.rotateRight r) 0

/-- The message schedule: `n` words more, from the last 16, newest first. -/
def shaExtend : Nat → List (BitVec 32) → List (BitVec 32)
  | 0, w => w
  | n + 1, w =>
    let at_ (i : Nat) : BitVec 32 := (w[i]?).getD 0
    let small (r q sh i : Nat) : BitVec 32 := turns [r, q] (at_ i) ^^^ (at_ i >>> sh)
    shaExtend n ((at_ 15 + small 7 18 3 14 + at_ 6 + small 17 19 10 1) :: w)

/-- One round on the working variables a to h. -/
def shaRound (v : List (BitVec 32)) (k w : BitVec 32) : List (BitVec 32) :=
  match v with
  | [a, b, c, d, e, f, g, h] =>
    let grown := turns [6, 11, 25] e + (g ^^^ (e &&& (f ^^^ g))) + h + w + k
    let mixed := turns [2, 13, 22] a + ((a &&& (b ||| c)) ||| (b &&& c))
    (grown + mixed) :: a :: b :: c :: (d + grown) :: [e, f, g]
  | l => l

def shaBlock (h : List (BitVec 32)) (bs : List Byte) : List (BitVec 32) :=
  let w := (shaExtend 48 (shaWords 16 bs).reverse).reverse
  let v := (shaK.zip w).foldl (fun v p => shaRound v p.1 p.2) h
  (h.zip v).map (fun p => p.1 + p.2)

def shaBlocks : Nat → List (BitVec 32) → List Byte → List (BitVec 32)
  | 0, h, _ => h
  | n + 1, h, bs => shaBlocks n (shaBlock h (bs.take 64)) (bs.drop 64)

/-- SHA-256 of bytes: 32 bytes. -/
def sha256 (m : List Byte) : List Byte :=
  let p := shaPad m
  (shaBlocks (p.length / 64) shaInit p).flatMap (fun w => beBytes w.toNat 4)

/-- A measurement takes in an image: M := SHA-256(M, SHA-256(image)) (22 R533). -/
def measure (m image : List Byte) : List Byte := sha256 (m ++ sha256 image)

/-! ### CRC-64 -/

/-- Eight steps of the division by the polynomial 0x42F0E1EBA9EA3693, most significant bit first. -/
def crcBits : Nat → BitVec 64 → BitVec 64
  | 0, c => c
  | n + 1, c => crcBits n (if c.getLsbD 63 then (c <<< 1) ^^^ 0x42F0E1EBA9EA3693 else c <<< 1)

/-- CRC-64 as ECMA-182 defines it. -/
def crc64 (bs : List Byte) : BitVec 64 :=
  bs.foldl (fun c b => crcBits 8 (c ^^^ ((b.setWidth 64 : BitVec 64) <<< (56 : Nat)))) 0

end Sys2Proof.Machine
end

