-- ==== Sys2Proof/Machine/Image.lean ====
section
/-!
DEFINITION. Machine/Image.lean: reading and writing device virtual addresses for an engine (12 R354-R356), and program images (02
R33-R36).
-/
namespace Sys2Proof.Machine

/-! ### Device virtual addresses -/

/-- The number of the byte at a VA for a tenant, by the memory core of its home channel; none where the translation fails. -/
def State.vaFlat (s : State) (tenant va : Nat) (i : Intent) : State × Option Nat :=
  let va := va % 2 ^ 48
  match s.translate (homeMemoryCore va) tenant va i with
  | (s, .ok row) => (s, some (vaAt va row))
  | (s, .fail _) => (s, none)

/-- Read `n` bytes from a VA, over at most `pages` pages; none where a page cannot be translated or a word holds an uncorrectable
error. -/
def State.readVa (s : State) (tenant : Nat) : Nat → Nat → Nat → State × Option (List Byte)
  | 0, _, n => (s, if n = 0 then some [] else none)
  | pages + 1, va, n =>
    if n = 0 then (s, some [])
    else
      let k := min n (2 ^ 21 - va % 2 ^ 21)
      match s.vaFlat tenant va .read with
      | (s, none) => (s, none)
      | (s, some flat) =>
        if s.hasBad flat k then (s, none)
        else
          let s := s.correct flat k
          match State.readVa s tenant pages (va + k) (n - k) with
          | (s', some rest) => (s', some (s.bytesAt flat k ++ rest))
          | (s', none) => (s', none)

/-- Bytes at a VA, whatever their number. -/
def State.readBytesVa (s : State) (tenant va n : Nat) : State × Option (List Byte) := s.readVa tenant (n / 2 ^ 21 + 2) va n

def State.readWordsVa (s : State) (tenant va n : Nat) : State × Option (List Word) :=
  match s.readBytesVa tenant va (4 * n) with
  | (s, some bs) => (s, some (wordsOf n bs))
  | (s, none) => (s, none)

/-! ### Program images (02 R33-R36) -/

/-- A section: its kind, size, place and file offset. -/
structure Section_ where
  kind : Nat
  size : Nat
  place : Nat
  foff : Nat
  deriving DecidableEq, Repr

/-- An image: entry offset, the first text section's file offset, and its sections. -/
structure Image where
  entry : Nat
  text : Nat
  sections : List Section_
  deriving DecidableEq, Repr

/-- Sections of a table, where no reserved field or kind is present. A SIZE or FOFF that is no multiple of 4, or an image that is not at a
multiple of 64, is taken as it is written (DESIGN CHOICE: 02 R36 and R38 do not count them among what is malformed; log 46). -/
def parseSections : Nat → List Word → Option (List Section_)
  | 0, _ => some []
  | n + 1, ws =>
    let w (i : Nat) : Nat := ((ws[i]?).getD 0).toNat
    let kind := w 0 / 2 ^ 28
    if kind > 4 ∨ w 0 % 2 ^ 28 ≠ 0 ∨ (kind ≤ 1 ∧ w 2 ≠ 0) then none
    else (parseSections n (ws.drop 4)).map (fun l => ⟨kind, w 1, w 2, w 3⟩ :: l)

/-- The sizes of the allocations an image must fit (02 R36): TCM and scratchpad bytes. -/
def Section_.fits (x : Section_) (tcm scr : Nat) : Bool :=
  if x.kind = 2 then x.place + x.size ≤ tcm else if x.kind = 3 then x.place + x.size ≤ scr else true

/-- Read and check an image for allocations of the given sizes; none where it is malformed or cannot be read (02 R36). -/
def State.readImage (s : State) (tenant va tcm scr : Nat) : State × Option Image :=
  match s.readWordsVa tenant va 4 with
  | (s, none) => (s, none)
  | (s, some h) =>
    let w (i : Nat) : Nat := ((h[i]?).getD 0).toNat
    let n := bitsOf (w 1) 15 8
    if w 0 ≠ 0x4E530001 ∨ w 1 / 2 ^ 16 ≠ 0 ∨ w 1 % 256 ≠ 1 ∨ n = 0 ∨ 16 < n ∨ w 3 ≠ 0 ∨ w 2 % 2 = 1 then (s, none)
    else
      match s.readWordsVa tenant (va + 16) (4 * n) with
      | (s, none) => (s, none)
      | (s, some t) =>
        match parseSections n t with
        | none => (s, none)
        | some secs =>
          match secs.find? (fun x => x.kind = 0) with
          | none => (s, none)
          | some text =>
            if text.size ≤ w 2 ∨ !secs.all (fun x => x.fits tcm scr) then (s, none)
            else (s, some ⟨w 2, text.foff, secs⟩)

/-- The contents of the sections of a kind, with their places; none where one cannot be read. -/
def State.readSections (s : State) (tenant va kind : Nat) : List Section_ → State × Option (List (Nat × List Byte))
  | [] => (s, some [])
  | x :: rest =>
    if x.kind ≠ kind then s.readSections tenant va kind rest
    else
      match s.readBytesVa tenant (va + x.foff) x.size with
      | (s, none) => (s, none)
      | (s, some bs) =>
        match s.readSections tenant va kind rest with
        | (s, some l) => (s, some ((x.place, bs) :: l))
        | (s, none) => (s, none)

/-- Write a block of zeros of `n` bytes with pieces over it. Of pieces that overlap the last in the section table stands (DESIGN CHOICE: 02 R35
gives the copies no order; log 46). -/
def State.loadBlock (s : State) (flat n : Nat) (pieces : List (Nat × List Byte)) : State :=
  pieces.foldl (fun s p => s.storeBytes (flat + p.1) p.2) (s.storeBytes flat (List.replicate n 0))

end Sys2Proof.Machine
end

