-- ==== Sys2Proof/Machine/Queues.lean ====
section
/-!
DEFINITION. Machine/Queues.lean: host queues and their service cores: doorbells, active messages, submission entries, loader programs
(03 R48-R61, R84, R85).
-/
namespace Sys2Proof.Machine

/-! ### Queues and doorbells (03 R48-R55) -/

/-- A queue at its creation, bound to a service core. -/
def HostQueue.new (svc : Nat) : HostQueue :=
  { svc := svc, life := .inUse, entries := [], olds := [], starting := none, sqTail := 0, sqHead := 0, refCount := 0, refEntry := 0, refReason := 0, slotWords := []
    amStatus := Vector.replicate 8 0, doorbells := [], amDone := 0, fv := false, fcause := 0, fctx := 0, text := 0, lstate := 0
    lstack := 0, lchan := 0, lcause := 0 }

/-- HOST_QUEUE_CREATE (03 R48): up to 16 queues per service core; the binding does not change while the queue exists. The queue must be
among those of its tenant's partition entry (22 R531). A queue created anew under the number of one that was torn down has the recent
completions of that number (DESIGN CHOICE: 02 R40 is silent; log 46). -/
def execHostQueueCreate (q svc : Nat) (s : State) : Res :=
  let fresh : Bool := match lookup? s.queues q with
    | some h => h.life = .torn
    | none => true
  let known : Bool := match lookup? s.partitions (queueTenant q) with
    | some p => p.queues.contains q
    | none => false
  let load := s.queues.countP (fun p => p.2.svc = svc && p.2.life ≠ .torn)
  if q < 1024 ∧ svc < 64 ∧ fresh ∧ known ∧ load < 16 then .next { s with queues := assign s.queues q (.new svc) } else .next s

/-- A queue that takes doorbells: from boot stage 6 on, while it is in use (22 R535, 18 R489). -/
def State.openQueue (s : State) (q : Nat) : Option HostQueue :=
  match lookup? s.queues q with
  | some h => if h.life = .inUse ∧ s.bootStage = 6 then some h else none
  | none => none

/-- Record a refusal (03 R54). -/
def HostQueue.refuse (h : HostQueue) (count : BitVec 16) (reason : Nat) : HostQueue :=
  { h with refCount := min (h.refCount + 1) 0xFFFF, refEntry := count.setWidth 8, refReason := BitVec.ofNat 4 reason }

/-- SQ_TAIL_DOORBELL (03 R51). -/
def execSqTailDoorbell (q : Nat) (tail : BitVec 16) (s : State) : Res :=
  match s.openQueue q with
  | none => .next s
  | some h =>
    let h := if 64 < (tail - h.sqHead).toNat then h.refuse tail 1 else { h with sqTail := tail, doorbells := h.doorbells ++ [.sq tail s.order] }
    .next { s with queues := assign s.queues q h, order := s.order + 1 }

/-- Word `n` of a message slot. -/
def HostQueue.slotWord (h : HostQueue) (slot : BitVec 3) (n : Nat) : Word := lookupD 0 h.slotWords (4 * slot.toNat + n)

/-- AM_BELL (03 R55): a slot whose status is PENDING ignores the doorbell. -/
def execAmBell (q : Nat) (slot : BitVec 3) (s : State) : Res :=
  match s.openQueue q with
  | none => .next s
  | some h =>
    if h.amStatus[slot.toNat] = 1 then .next s
    else
      let words := (List.range 4).map (h.slotWord slot)
      let h := { h with amStatus := h.amStatus.set slot.toNat 1, doorbells := h.doorbells ++ [.am slot.toNat words s.order] }
      .next { s with queues := assign s.queues q h, order := s.order + 1 }

/-- The doorbells still to handle. One of a count is over once the entries up to it are taken, or those up to SQ_TAIL where a later write
made that smaller. -/
def HostQueue.pending (h : HostQueue) : List Doorbell :=
  h.doorbells.dropWhile (fun d =>
    match d with
    | .sq t _ => h.sqHead = t || 64 < (t - h.sqHead).toNat || h.sqHead = h.sqTail
    | .am _ _ _ => false)

/-- The word of the window belongs to an entry that has been rung and not taken (03 R51). -/
def HostQueue.rung (h : HostQueue) (n : Nat) : Bool := (n / 8 + 64 - h.sqHead.toNat % 64) % 64 < (h.sqTail - h.sqHead).toNat

/-- The host writes a word of an entry; of one that has been rung, the value that it had may still be taken. -/
def HostQueue.writeEntry (h : HostQueue) (n : Nat) (w : Word) : HostQueue :=
  { h with
    entries := assign h.entries n w
    olds := if h.rung n then (n, lookupD 0 h.entries n) :: h.olds else h.olds }

/-- Place of a doorbell in the order of arrival. -/
def Doorbell.arrived : Doorbell → Nat
  | .am _ _ n => n
  | .sq _ n => n

/-! ### Active messages (03 R56-R58, R60, R71) -/

/-- The earliest doorbell still to handle at a service core: its place in the order of arrival (03 R56). -/
def State.firstBell (s : State) (svc : Nat) : Option Nat :=
  ((s.queues.filter (fun p => p.2.svc = svc && p.2.life = .inUse)).filterMap (fun p => p.2.pending.head?.map (·.arrived))).min?

/-- The quadrant of a cluster (01 R14). -/
def quadrant (c : Nat) : Nat := 2 * bit (16 ≤ c / 40) + bit (20 ≤ c % 40)

/-- A team with SCRK = 256 holds the cluster (03 R71). -/
def State.heldAlone (s : State) (st c : Nat) : Bool :=
  s.launches.any (fun l => l.scrk = 256 && (l.heldSites (s.topTeam l)).any (fun x => x.stack = st && x.cluster = c))

/-- A cluster whose partition stops for a switch, or is switched out: nothing starts there (18 R477). -/
def State.stopsAt (s : State) (a : AgentId) : Bool :=
  match a with
  | .core st c _ _ =>
    (match s.clusterTenant st c with
      | some t => s.frozen t
      | none => false)
  | _ => false

/-- A context holds a saved team (03 R56), or its partition stops for a switch or is switched out: a message for such a context gets SWITCHED,
though it is idle (DESIGN CHOICE: 03 R57 gives that status for a saved team alone; log 46). -/
def State.holdsSaved (s : State) (a : AgentId) : Bool :=
  (s.ctxOf a).phase = .saved || s.stopsAt a || s.switches.any (fun p => p.2.ctxs.any (fun x => x.ag = a))

/-- The start state of a context started by an active message (03 R58). -/
def State.messageCtx (s : State) (a : AgentId) (q slot : Nat) (h : HostQueue) (w : List Word) : Ctx :=
  let x := ctxIndex a
  let word (n : Nat) : Word := (w[n]?).getD 0
  let base := BitVec.ofNat 32 (x * 0x8000)
  let c := Ctx.start (s.ctxOf a) (queueTenant q) (.message q) (s.stopTime (queueTenant q)) s.modnum
  { c with pc := h.text + (word 1).setWidth 48 }
    |>.setX 10 (word 2) |>.setX 11 (word 3) |>.setX 12 (BitVec.ofNat 32 slot) |>.setX 13 (BitVec.ofNat 32 q)
    |>.setX 3 base |>.setX 2 (if x = 3 then 0x1F000 else base + 0x8000)

/-- Handle a message: the status its slot gets, and the machine (03 R56, R57). -/
def State.handleMessage (s : State) (svc q slot : Nat) (h : HostQueue) (w : List Word) : State × Nat :=
  let target := ((w[0]?).getD 0).toNat
  let st := bitsOf target 31 28
  let c := bitsOf target 27 17
  let a : AgentId := .core st c (bitsOf target 16 14) (bitsOf target 13 12)
  if ((w[1]?).getD 0).getLsbD 0 ∨ target % 4096 ≠ 0 then (s, 6)
  else if 1280 ≤ c ∨ st * 4 + quadrant c ≠ svc ∨ s.clusterTenant st c ≠ some (queueTenant q) then (s, 5)
  else if (s.ctxOf a).phase = .live ∨ s.heldAlone st c then (s, 3)
  else if s.holdsSaved a then (s, 4)
  else if (s.ctxOf a).phase = .reserved then (s, 3)
  else (s.setCtxOf a (s.messageCtx a q slot h w), 2)

/-- ACTIVE_MESSAGE (03 R56): the earliest doorbell of the service core, when it is a message. -/
def execActiveMessage (svc : Nat) (s : State) : Res :=
  match s.firstBell svc with
  | none => .next s
  | some n =>
    match s.queues.find? (fun p => p.2.svc = svc && p.2.life = .inUse && (match p.2.pending with
        | .am _ _ k :: _ => k = n
        | _ => false)) with
    | none => .next s
    | some (q, h) =>
      match h.pending with
      | .am slot words _ :: rest =>
        let r := s.handleMessage svc q slot h words
        .next (r.1.updQueue q (fun h => { h with doorbells := rest, amStatus := h.amStatus.set! slot (BitVec.ofNat 4 r.2) }))
      | _ => .next s

/-! ### Submission entries (03 R50-R54) -/

/-- A word of an entry as the service core takes it: the `n`-th draw chooses among its values since the entry was rung (03 R51; log 1). -/
def HostQueue.entryWord (h : HostQueue) (i n : Nat) : Word :=
  match h.olds.filter (fun p => p.1 = i) with
  | [] => lookupD 0 h.entries i
  | l => ((lookupD 0 h.entries i) :: l.map (·.2)).getD (Config.choice n % (l.length + 1)) 0

/-- The words of the entry that the service core takes next, when a count is the doorbell to handle. -/
def HostQueue.entry? (h : HostQueue) (n : Nat) : Option (List Word) :=
  match h.pending with
  | .sq _ _ :: _ => some ((List.range 8).map (fun i => h.entryWord (8 * (h.sqHead.toNat % 64) + i) (n + i)))
  | _ => none

def entryWord (e : List Word) (n : Nat) : Nat := ((e[n]?).getD 0).toNat
/-- CMD. -/
def entryCmd (e : List Word) : Nat := entryWord e 0 / 2 ^ 24
/-- STOP of a LOADER entry. -/
def entryStop (e : List Word) : Bool := bitsOf (entryWord e 3) 21 21 = 1
/-- The address of words 1 and 2. -/
def entryAddr (e : List Word) : Nat := bitsOf (entryWord e 2) 15 0 * 2 ^ 32 + entryWord e 1

/-- The entry meets BAD_ENTRY: a reserved CMD, a reserved field, or REC_LO[5:0] (03 R50, R53). -/
def badEntry (e : List Word) : Bool :=
  let w := entryWord e
  let common := w 0 % 2 ^ 24 ≠ 0 || w 1 % 64 ≠ 0 || w 2 / 2 ^ 16 ≠ 0 || w 6 ≠ 0 || w 7 ≠ 0 || bitsOf (w 4) 31 24 ≠ 0 || bitsOf (w 4) 15 13 ≠ 0
  match entryCmd e with
  | 1 => common || w 3 ≠ 0 || w 4 ≠ 0 || w 5 ≠ 0
  | 2 => common || bitsOf (w 3) 21 21 ≠ 0 || bitsOf (w 4) 23 16 ≠ 0
  | 3 => common || bitsOf (w 3) 20 0 ≠ 0 || bitsOf (w 4) 12 0 ≠ 0
  | _ => true

/-- The entry is taken: SQ_HEAD advances (03 R52). -/
def HostQueue.taken (h : HostQueue) : HostQueue :=
  { h with doorbells := h.pending, sqHead := h.sqHead + 1, olds := h.olds.filter (fun p => p.1 / 8 ≠ h.sqHead.toNat % 64) }

/-- The entry is refused with a reason, and taken. -/
def State.refuseEntry (s : State) (q : Nat) (reason : Nat) : State := s.updQueue q (fun h => (h.refuse h.sqHead reason).taken)

/-- BAD_QUEUE (03 R53, R76). -/
def State.badDevice (s : State) (q : Nat) (e : List Word) : Bool :=
  let st := bitsOf (entryWord e 3) 31 28
  let sl := bitsOf (entryWord e 3) 27 22
  let off := bitsOf (entryWord e 3) 20 0
  let cap := bitsOf (entryWord e 4) 12 0
  let last := off + 64 + cap * 32 - 1
  off % 64 ≠ 0 || !(List.range 12).any (fun i => cap = 2 ^ (i + 1)) || 0x180000 ≤ last ||
    (List.range (last / 65536 + 1)).any (fun u => off / 65536 ≤ u && s.sliceTenant st sl (u * 65536) ≠ some (queueTenant q))

/-- A record is malformed (02 R38). -/
def recordMalformed (w : Nat → Nat) : Bool :=
  w 0 / 2 ^ 24 ≠ 1 || bitsOf (w 0) 15 0 ≠ 0 || bitsOf (w 1) 31 24 ≠ 0 || bitsOf (w 1) 23 0 = 0 || w 2 = 0 || bitsOf (w 4) 31 16 ≠ 0 ||
    bitsOf (w 8) 31 16 ≠ 0 || bitsOf (w 13) 30 12 ≠ 0 || bitsOf (w 13) 11 10 ≠ 0 || bitsOf (w 14) 31 24 ≠ 0 || bitsOf (w 15) 31 17 ≠ 0 ||
    256 < bitsOf (w 15) 16 8 || 128 < bitsOf (w 15) 7 0 || bitsOf (w 15) 7 0 < bitsOf (w 14) 23 16 + 1

/-- The status of a completed launch among the recent ones of a queue (02 R40). -/
def State.recentStatus (s : State) (q : Nat) (lid : Word) : Option Nat :=
  (s.recent.find? (fun r => r.1 = q && r.2.1 = lid)).map (fun r => r.2.2)

/-- The dispatcher holds a launch ID of a queue (02 R40). -/
def State.known (s : State) (q : Nat) (lid : Word) : Bool := (s.launch? q lid).isSome || (s.recentStatus q lid).isSome

/-- The dispatcher accepts what a launch depends on (02 R40, 03 R63): its place while it is in flight, and whether it completed with a status
other than DONE. A launch ID names the launch in flight, or the most recent that completed; one accepted later is another launch. -/
def State.dependence (s : State) (q : Nat) (lid : Word) : Option Nat × Bool :=
  match s.launch? q lid with
  | some k => (some k.order, false)
  | none => (none, s.recentStatus q lid ≠ some 1)

/-- The global dispatcher accepts a launch (03 R63, R75): one that cannot run has its status at once. -/
def State.accept (s : State) (q : Nat) (ws : List Word) (dq : Option DeviceQueue) : State :=
  let l : Launch :=
    { q := q, recWords := ws, order := s.order, needs := [], depFailed := false, eligible := false
      dq := dq.map (fun d => { d with producer := (s.dependence q d.plid).1, lost := (s.dependence q d.plid).2 })
      status := none, blocked := false, nextTeam := 0, records := []
      teams := [], reserved := [], tdone := 0, tfail := 0, fctx := 0xFFFFFFFF, fcause := 0, firstPlaced := none, swapAsked := false
      swapStart := 0, swapN := 0, sites := [], writing := none }
  let producerUnknown : Bool := match dq with
    | some d => !s.known q d.plid
    | none => false
  let l :=
    if recordMalformed l.word || (dq.isSome && l.dv) then l.finish 2 1
    else if l.deps.any (fun d => !s.known q d) || producerUnknown then l.finish 2 3
    else
      let deps := l.deps.map (s.dependence q)
      { l with needs := deps.filterMap (·.1), depFailed := deps.any (·.2) }
  { s with launches := s.launches ++ [l], order := s.order + 1 }

/-- Take a LAUNCH or TEMPLATE entry: its checks in the order of 03 R53, then acceptance. -/
def State.submit (s : State) (q : Nat) (e : List Word) (dq : Option DeviceQueue) : State :=
  if badEntry e then s.refuseEntry q 2
  else if dq.isSome && s.badDevice q e then s.refuseEntry q 5
  else
    match s.readWordsVa (queueTenant q) (entryAddr e) 16 with
    | (s, none) => s.refuseEntry q 6
    | (s, some ws) =>
      if ((ws[7]?).getD 0).toNat % 32 ≠ 0 then s.refuseEntry q 3
      else if (s.launch? q ((ws[2]?).getD 0)).isSome then s.refuseEntry q 4
      else (s.updQueue q HostQueue.taken).accept q ws dq

/-- The next entry of a queue in use, when its doorbell is the earliest of the service core (03 R56) and no loader of the queue is being
started. -/
def State.nextEntry (s : State) (q : Nat) : Option (List Word) :=
  match s.openQueue q with
  | some h => if h.pending.head?.map (·.arrived) = s.firstBell h.svc ∧ h.starting.isNone then h.entry? s.draws else none
  | none => none

/-- LAUNCH (03 R52): an entry whose CMD is LAUNCH, or reserved, which is refused. -/
def execLaunch (q : Nat) (s : State) : Res :=
  match s.nextEntry q with
  | some e => if entryCmd e = 2 ∨ entryCmd e = 3 then .next s else .next (s.submit q e none)
  | none => .next s

/-- TEMPLATE (03 R75, R76). -/
def execTemplate (q : Nat) (s : State) : Res :=
  match s.nextEntry q with
  | some e =>
    if entryCmd e = 2 then
      .next (s.submit q e (some ⟨bitsOf (entryWord e 3) 31 28, bitsOf (entryWord e 3) 27 22, bitsOf (entryWord e 3) 20 0,
        bitsOf (entryWord e 4) 12 0, BitVec.ofNat 32 (entryWord e 5), none, false, 0, none, none⟩))
    else .next s
  | none => .next s

/-! ### Loader programs (03 R84, R85) -/

/-- The memory core of a LOADER entry. -/
def entryCore (e : List Word) : AgentId := .memoryCore (bitsOf (entryWord e 3) 31 28) (bitsOf (entryWord e 3) 27 22)

/-- The queue whose loader program runs on a hart. -/
def State.loaderOf (s : State) (a : AgentId) : Option Nat :=
  match (s.ctxOf a).phase, (s.ctxOf a).origin with
  | .live, .loader q => some q
  | _, _ => none

/-- BAD_AGENT (03 R53): not bound to the tenant alone, or a loader of another queue runs there. -/
def State.badAgent (s : State) (q : Nat) (a : AgentId) : Bool :=
  (s.partitions.filter (fun p => p.2.agents.contains a)).map (·.1) ≠ [queueTenant q] ||
    (match s.loaderOf a with
      | some q' => q' ≠ q
      | none => false) ||
    s.queues.any (fun p => p.1 ≠ q && p.2.starting.any (fun x => x.1 = a))

def State.setLoader (s : State) (q : Nat) (a : AgentId) (state : Nat) (cause : BitVec 8) : State :=
  let ch := match a with
    | .memoryCore _ c => c
    | _ => 0
  s.updQueue q (fun h => { h with lstate := BitVec.ofNat 4 state, lstack := stackOf a, lchan := ch, lcause := cause })

/-- Ask a loader program to stop, at a point where it may (18 R477, R491). -/
def State.stopLoader (s : State) (a : AgentId) : State :=
  if (s.ctxOf a).stoppable ∧ (s.ctxOf a).retiring.isNone then
    (s.leaveQueues a).updOf a (fun c => { c with stopped := true, wait := .none, inIssue := [], halted := false, retiring := some .stopped })
  else s

/-- Measured loaders of a tenant (22 R533). -/
def State.measureLoader (s : State) (tenant : Nat) (image : List Byte) : State :=
  { s with monitor := { s.monitor with
      mLoader := assign s.monitor.mLoader tenant (measure (lookupD (List.replicate 32 0) s.monitor.mLoader tenant) image) } }

/-- Extent of an image: header, section table and contents. -/
def Image.extent (i : Image) : Nat := (i.sections.map (fun x => x.foff + x.size)).foldl max (16 + 16 * i.sections.length)

/-- Parts of the memory core's TCM below its channel buffer region, in bytes. -/
def loaderLimit (chbufk : Nat) : Nat := 0x10000 - 0x400 - chbufk * 1024

/-- Steps 2 to 4 of a loader's start (03 R84): none where the image is malformed, cannot be read, or does not fit. The spec does not say
whether such an image is measured, since step 2 reads and measures before the fit is known: here it is not (log 46). -/
def State.loadLoader (s : State) (q : Nat) (a : AgentId) (e : List Word) : State × Bool :=
  let t := queueTenant q
  let k := bitsOf (entryWord e 4) 23 16
  let limit := loaderLimit k
  let idle (s : State) : State := s.updOf a (fun c => { c with phase := .idle, origin := .none })
  match s.readImage t (entryAddr e) limit 0 with
  | (s, none) => (idle s, false)
  | (s, some im) =>
    if 0x10000 - 0x400 < k * 1024 ∨ limit < im.extent then (idle s, false)
    else
      match s.readBytesVa t (entryAddr e) im.extent with
      | (s, none) => (idle s, false)
      | (s, some bs) =>
        let s := (s.measureLoader t bs).storeBytes (ownTcmAt a 0) bs
        let s := (im.sections.filter (fun x => x.kind = 2)).foldl (fun s x =>
          s.storeBytes (ownTcmAt a x.place) ((bs.drop x.foff).take x.size)) s
        let s := s.updHart a (fun h => { h with tenant := BitVec.ofNat 6 t, former := h.tenant })
        let c := Ctx.start (s.ctxOf a) t (.loader q) (BitVec.allOnes 64) s.modnum
        (s.setCtxOf a ({ c with
          pc := BitVec.ofNat 48 (im.text + im.entry), sizek := BitVec.ofNat 8 k, basek := BitVec.ofNat 7 (limit / 1024) }.setX 10
            (BitVec.ofNat 32 (entryWord e 5))), true)

/-- The steps of 03 R84 for an entry that has been taken: a loader of the same queue is stopped first; the loader of service firmware is
parked, and its channels close with ABORT; then the image is loaded. -/
def State.startLoader (s : State) (q : Nat) (a : AgentId) (e : List Word) : State :=
  if (s.loaderOf a).isSome then s.stopLoader a
  else
    let r := ((s.parkEnds a 6).updQueue q (fun h => { h with starting := none })).loadLoader q a e
    if r.2 then r.1.setLoader q a 2 0 else r.1.setLoader q a 4 0xFF

/-- LOADER (03 R84): the entry is checked and taken, with LSTATE 1; the event goes on with an entry that waits for an old loader of the
queue to stop. -/
def execLoader (q : Nat) (s : State) : Res :=
  match (s.openQueue q).bind (·.starting) with
  | some (a, e) => .next (s.startLoader q a e)
  | none =>
    match s.nextEntry q with
    | none => .next s
    | some e =>
      let a := entryCore e
      if entryCmd e ≠ 3 ∨ entryStop e then .next s
      else if badEntry e then .next (s.refuseEntry q 2)
      else if s.badAgent q a then .next (s.refuseEntry q 7)
      else .next (((s.updQueue q (fun h => { h.taken with starting := some (a, e) })).setLoader q a 1 0).startLoader q a e)

/-- LOADER_STOP (03 R85): a STOP entry for a memory core that runs no loader program of the queue changes nothing. -/
def execLoaderStop (q : Nat) (s : State) : Res :=
  match s.nextEntry q with
  | none => .next s
  | some e =>
    let a := entryCore e
    if entryCmd e ≠ 3 ∨ !entryStop e then .next s
    else if badEntry e then .next (s.refuseEntry q 2)
    else if s.loaderOf a = some q then
      if (s.ctxOf a).stoppable then .next (((s.setLoader q a 2 0).stopLoader a).updQueue q HostQueue.taken) else .next s
    else .next (s.updQueue q HostQueue.taken)

end Sys2Proof.Machine
end

