-- ==== Sys2Proof/Machine/Place.lean ====
section
/-!
DEFINITION. Machine/Place.lean: the global and stack dispatchers up to the start of a team: eligibility, advertisements, batches,
reservations, placement and loading (02 R28, R29, R35-R42; 03 R63-R73).
-/
namespace Sys2Proof.Machine

/-! ### Free contexts and units (03 R64, R67-R71) -/

/-- Contexts of a cluster ordered by context number and then by core (03 R68). -/
def seatOrder (st c : Nat) : List AgentId := (List.range 32).map (fun i => AgentId.core st c (i % 8) (i / 8))

/-- Free contexts of a cluster, in that order. A team with SCRK = 256 has the whole cluster for its site (03 R71). Those of a partition that
stops for a switch, or is switched out, are not free (DESIGN CHOICE: 03 R64 does not say; log 46). -/
def State.freeCtxs (s : State) (st c : Nat) : List AgentId :=
  if s.heldAlone st c then [] else (seatOrder st c).filter (fun a => (s.ctxOf a).phase = .idle && !s.holdsSaved a)

/-- Clusters of a tenant on a stack. -/
def State.clustersOf (s : State) (tenant st : Nat) : List Nat :=
  match lookup? s.partitions tenant with
  | none => []
  | some p => (List.range 32).flatMap (fun y => if p.rows.contains (st, y) then (List.range 40).map (fun x => y * 40 + x) else [])

/-- FREE and LARGEST (03 R64). -/
def State.freeOn (s : State) (tenant st : Nat) : Nat × Nat :=
  let ns := (s.clustersOf tenant st).map (fun c => (s.freeCtxs st c).length)
  (ns.sum, ns.foldl max 0)

/-- A stretch of units is free of taken stretches. -/
def unitsFree (taken : List (Nat × Nat)) (b n : Nat) : Bool := !taken.any (fun t => t.1 < b + n && b < t.1 + t.2)

/-- The lowest, or the highest, free run of `n` units below `top`. -/
def lowestRun (taken : List (Nat × Nat)) (top n : Nat) : Option Nat :=
  (List.range (top + 1)).find? (fun b => b + n ≤ top && unitsFree taken b n)
def highestRun (taken : List (Nat × Nat)) (top n : Nat) : Option Nat :=
  (List.range (top + 1)).reverse.find? (fun b => b + n ≤ top && unitsFree taken b n)

/-- TCM units of a core that seats take: allocations and buffer regions. -/
def seatUnits (seats : List Seat) (a : AgentId) : List (Nat × Nat) :=
  (seats.filter (fun p => coreKey p.ctx = coreKey a)).flatMap (fun p => [(p.tcmBase, p.tcmSize), (p.bufBase, p.bufSize)])

/-- Give members their TCM units (03 R69): the channel buffer region from the highest free units below the residual tiles, the
allocation from the lowest free run. -/
def giveSeats (alloc buf : Nat) (taken : List Seat) : List AgentId → Option (List Seat)
  | [] => some []
  | a :: rest =>
    match highestRun (seatUnits taken a) 124 buf with
    | none => none
    | some bb =>
      match lowestRun ((bb, buf) :: seatUnits taken a) 124 alloc with
      | none => none
      | some tb =>
        let seat : Seat := ⟨a, tb, alloc, if buf = 0 then 0 else bb, buf⟩
        (giveSeats alloc buf (seat :: taken) rest).map (fun l => seat :: l)

/-- The site a team would take in a cluster, if it fits (03 R67, R71): `held` are the sites held there. -/
def Launch.fitIn (l : Launch) (st c : Nat) (free : List AgentId) (held : List Site) (alone : Bool) : Option Site :=
  if free.length < l.size ∨ alone ∨ (l.scrk = 256 ∧ (free.length < 32 ∨ held ≠ [])) then none
  else
    match giveSeats (l.tcmk - l.chbufk) l.chbufk (held.flatMap (·.seats)) (free.take l.size) with
    | none => none
    | some seats =>
      (lowestRun (held.map (fun x => (x.scrBase, x.scrSize))) 256 l.scrk).map (fun b => ⟨st, c, seats, if l.scrk = 0 then 0 else b, l.scrk⟩)

/-- The same with the machine as it stands, and sites `extra` taken besides. -/
def State.fit (s : State) (l : Launch) (st c : Nat) (extra : List Site) : Option Site :=
  let here (x : Site) : Bool := x.stack = st && x.cluster = c
  let more := extra.filter here
  let gone := more.flatMap (fun x => x.seats.map (·.ctx))
  let alone := s.heldAlone st c || (l.scrk = 256 && more != [])
  l.fitIn st c ((s.freeCtxs st c).filter (fun a => !gone.contains a)) (s.heldSites.filter here ++ more) alone

/-- Of two fitting clusters, the one with fewer free contexts; ties go to the lower index, which comes first (03 R67). -/
def better (x y : Option (Nat × Site)) : Option (Nat × Site) :=
  match x, y with
  | none, _ => y
  | some _, none => x
  | some a, some b => if b.1 < a.1 then some b else some a

/-- The site for a team on a stack. -/
def State.bestSite (s : State) (l : Launch) (st : Nat) (extra : List Site) : Option Site :=
  ((s.clustersOf l.tenant st).foldl (fun best c =>
    let used := (extra.filter (fun x => x.stack = st && x.cluster = c)).flatMap (·.seats)
    better best ((s.fit l st c extra).map (fun x => ((s.freeCtxs st c).length - used.length, x)))) none).map (·.2)

/-! ### Eligibility (02 R39, R40; 03 R63, R72) -/

/-- The clusters of a tenant, with their stacks. -/
def State.allClusters (s : State) (tenant : Nat) : List (Nat × Nat) :=
  (List.range 16).flatMap (fun st => (s.clustersOf tenant st).map (fun c => (st, c)))

/-- Teams of a launch that an empty cluster holds, counting up to `n`. -/
def Launch.emptyHolds (l : Launch) (held : List Site) : Nat → Nat
  | 0 => 0
  | n + 1 =>
    let used := held.flatMap (fun x => x.seats.map (·.ctx))
    match l.fitIn 0 0 ((seatOrder 0 0).filter (fun a => !used.contains a)) held (l.scrk = 256 && held != []) with
    | some x => Launch.emptyHolds l (held ++ [x]) n + 1
    | none => 0

/-- TOO_LARGE (02 R39, 03 R72): no empty cluster could hold one team, or the partition not all teams of a gang. -/
def State.tooLarge (s : State) (l : Launch) : Bool :=
  124 < (l.size + 7) / 8 * l.tcmk || (l.dv && (s.allClusters l.tenant).length * l.emptyHolds [] 32 < l.count)

/-- LAUNCH_ELIGIBLE (02 R40, 03 R63). -/
def execLaunchEligible (q : Nat) (lid : BitVec 32) (s : State) : Res :=
  match s.launch? q lid with
  | none => .next s
  | some l =>
    if l.status.isSome ∨ l.eligible then .next s
    else if l.depFailed then .next (s.updLaunch q lid (fun l => l.finish 5 0))
    else if l.needs = [] then
      .next (s.updLaunch q lid (fun l => if s.tooLarge l then l.finish 2 5 else { l with eligible := true }))
    else .next s

/-! ### Advertisements and batches (03 R64-R66) -/

/-- Stack dispatchers see changes of FREE and LARGEST (03 R64). -/
def State.noteFree (s : State) : State :=
  { s with ads := s.ads.map (fun p =>
      let f := s.freeOn p.1.2 p.1.1
      if f = p.2.seen then p else (p.1, { p.2 with seen := f, changed := true })) }

/-- ADVERTISEMENT (03 R64): after a change, at most once in 64 cycles; a stack that has never had clusters of the tenant sends none. One that
raises a value lets gangs of the tenant try again. -/
def execAdvertisement (stack tenant : Nat) (s : State) : Res :=
  let f := s.freeOn tenant stack
  let put (raised : Bool) : State :=
    { s with
      ads := assign s.ads (stack, tenant) ⟨f.1, f.2, s.time.toNat, f, false⟩
      launches := if raised then s.launches.map (fun l => if l.tenant = tenant then { l with blocked := false } else l) else s.launches }
  match lookup? s.ads (stack, tenant) with
  | none => if s.clustersOf tenant stack = [] then .next s else .next (put true)
  | some ad =>
    if (f = ad.seen ∧ !ad.changed) ∨ s.time.toNat < ad.sentAt + 64 then .next s
    else .next (put (ad.free < f.1 || ad.largest < f.2))

/-- FREE and LARGEST as the global dispatcher holds them. -/
def State.advert (s : State) (st tenant : Nat) : Nat × Nat :=
  match lookup? s.ads (st, tenant) with
  | some ad => (ad.free, ad.largest)
  | none => (0, 0)

/-- Teams of a size that a stack's advertisement has room for. -/
def State.roomFor (s : State) (l : Launch) (st : Nat) : Nat :=
  let ad := s.advert st l.tenant
  if l.size ≤ ad.1 ∧ l.size ≤ ad.2 then ad.1 / l.size else 0

/-- The fitting stack with the highest FREE, the lowest-numbered of equals. -/
def State.bestStack (s : State) (l : Launch) : Option Nat :=
  ((List.range 16).foldl (fun (best : Option (Nat × Nat)) st =>
    if s.roomFor l st = 0 then best
    else
      match best with
      | none => some (st, (s.advert st l.tenant).1)
      | some b => if b.2 < (s.advert st l.tenant).1 then some (st, (s.advert st l.tenant).1) else some b) none).map (·.1)

def State.stackQueue (s : State) (st : Nat) : List Queued := lookupD [] s.stackQueues st

/-- Teams of a launch in a stack queue. -/
def State.queuedOn (s : State) (l : Launch) (st : Nat) : Nat := (s.stackQueue st).countP (fun t => t.q = l.q && t.lid = l.lid)

/-- The launch has teams not yet sent, and may be served. -/
def Launch.waiting (l : Launch) : Bool := l.eligible && l.status.isNone && l.sites = [] && l.nextTeam < l.total

/-- A launch may be served now: some stack fits one of its teams; a gang when floor(FREE ÷ S) summed over the stacks covers it and its last
attempt is not blocked. -/
def State.servable (s : State) (l : Launch) : Bool :=
  l.waiting &&
    (if l.dv then l.reserved = [] && !l.blocked && l.count ≤ ((List.range 16).map (fun st => (s.advert st l.tenant).1 / l.size)).sum
     else (s.bestStack l).isSome)

/-- Sites for `n` more teams of a gang on a stack, as many as can be placed. -/
def State.siteMore (s : State) (l : Launch) (st : Nat) (got : List Site) : Nat → List Site
  | 0 => got
  | n + 1 =>
    match s.bestSite l st got with
    | some x => State.siteMore s l st (got ++ [x]) n
    | none => got

/-- The sites that the stacks reserve in turn (03 R65). -/
def State.gangSites (s : State) (l : Launch) : List Site :=
  (List.range 16).foldl (fun got st => s.siteMore l st got (l.count - got.length)) []

/-- Send `n` teams to a stack (03 R65, R66): none are sent when they would overfill its queue. -/
def State.sendBatch (s : State) (l : Launch) (st n : Nat) : State :=
  let queue := s.stackQueue st
  if 256 < queue.length + n then s
  else
    let team (i : Nat) : Queued :=
      ⟨l.q, l.lid, l.nextTeam + i, l.prio, s.order + i, lookup? l.records (l.nextTeam + i)⟩
    let ad := lookupD ⟨0, 0, 0, (0, 0), false⟩ s.ads (st, l.tenant)
    { s with
      stackQueues := assign s.stackQueues st (queue ++ (List.range n).map team)
      order := s.order + n
      ads := assign s.ads (st, l.tenant) { ad with free := ad.free - n * l.size }
      lastServed := assign s.lastServed l.prio l.order
      lastBatch := some s.time.toNat }.updLaunch l.q l.lid (fun l => { l with nextTeam := l.nextTeam + n })

/-- Sites reserved on a stack for teams of a gang not yet sent there. -/
def State.unsentOn (s : State) (l : Launch) (st : Nat) : Nat := (l.reserved.filter (fun x => x.stack = st)).length - s.queuedOn l st

/-- The next batch of a gang whose sites are reserved. -/
def State.gangBatch (s : State) (l : Launch) : State :=
  match (List.range 16).find? (fun st => s.unsentOn l st ≠ 0) with
  | none => s
  | some st => s.sendBatch l st (min 64 (min (s.unsentOn l st) (l.total - l.nextTeam)))

/-- The launch to serve: of the highest level with a servable launch, the next after the one served last, in acceptance order. -/
def State.pickLaunch (s : State) : Option Launch :=
  let ls := s.launches.filter s.servable
  let level := (ls.map Launch.prio).foldl max 0
  let here := ls.filter (fun l => l.prio = level)
  match lookup? s.lastServed level with
  | none => here.head?
  | some o =>
    match here.find? (fun l => o < l.order) with
    | some l => some l
    | none => here.head?

/-- Contexts of reserved sites are held against every other placement, and against active messages (03 R56, R65). -/
def State.holdSeats (s : State) (sites : List Site) : State :=
  (sites.flatMap (·.seats)).foldl (fun s p => s.updOf p.ctx (fun c => { c with phase := .reserved })) s

/-- The reserved sites of a launch are released, and those of a swapping launch that no team needs any more. -/
def State.dropReserved (s : State) (q : Nat) (lid : Word) : State :=
  match s.launch? q lid with
  | none => s
  | some l =>
    let s := s.updLaunch q lid (fun l => { l with reserved := [] })
    (l.reserved.foldl State.freeSeats s).freeSites q lid

/-- BATCH (03 R65): at most one in 32 cycles; a gang that holds its sites comes first. -/
def execBatch (s : State) : Res :=
  let early : Bool := match s.lastBatch with
    | some t => s.time.toNat < t + 32
    | none => false
  if early then .next s
  else
    match s.launches.find? (fun l => l.waiting && l.reserved ≠ []) with
    | some l => .next (s.gangBatch l)
    | none =>
      match s.pickLaunch with
      | none => .next s
      | some l =>
        if l.dv then
          let sites := s.gangSites l
          if sites.length < l.count then .next (s.updLaunch l.q l.lid (fun l => { l with blocked := true }))
          else
            let s := (s.updLaunch l.q l.lid (fun l => { l with reserved := sites })).holdSeats sites
            .next (s.gangBatch { l with reserved := sites })
        else
          match s.bestStack l with
          | none => .next s
          | some st => .next (s.sendBatch l st (min 64 (min (l.total - l.nextTeam) ((s.advert st l.tenant).1 / l.size))))

/-! ### Placement and start (02 R29, R39, R42; 03 R66-R71) -/

/-- The start state of a member, but for its PC (02 R29, R42). -/
def Launch.memberCtx (l : Launch) (old : Ctx) (site : Site) (seat : Seat) (team member : Nat) (record : Option (List Word)) (stop : BitVec 64) (modnum : BitVec 9) : Ctx :=
  let base := BitVec.ofNat 32 (seat.tcmBase * 1024)
  let c := Ctx.start old l.tenant (.member l.q l.lid team member) stop modnum
  let x10 := match record with
    | some r => (r[7]?).getD 0
    | none => l.arg 0
  let x11 := match record with
    | some _ => base
    | none => l.arg 1
  let rows : Word := match record with
    | some r => BitVec.ofNat 32 (2 ^ (((r[0]?).getD 0).toNat % 64) - 1)
    | none => 0xFFFFFFFF
  { c with
    phase := .reserved, sizek := BitVec.ofNat 8 seat.bufSize, basek := BitVec.ofNat 7 seat.bufBase, mrowmask := rows
    dom := if l.dv then c.dom.set 0 ⟨true, BitVec.ofNat 10 l.did⟩ else c.dom }
    |>.setX 2 (base + BitVec.ofNat 32 (seat.tcmSize * 1024)) |>.setX 3 base |>.setX 4 (BitVec.ofNat 32 (0x100000 + site.scrBase * 1024))
    |>.setX 10 x10 |>.setX 11 x11 |>.setX 12 (BitVec.ofNat 32 team) |>.setX 13 (BitVec.ofNat 32 member) |>.setX 14 (BitVec.ofNat 32 l.size)

/-- Reserve the contexts of a team at a site, and register its members in their domain (03 R60, 15 R415). -/
def State.seatTeam (s : State) (l : Launch) (site : Site) (team : Nat) (record : Option (List Word)) : State :=
  let s := (site.seats.zipIdx).foldl (fun s p =>
    let a := p.1.ctx
    let s := s.setCtxOf a (l.memberCtx (s.ctxOf a) site p.1 team p.2 record (s.stopTime l.tenant) s.modnum)
    if l.dv then s.joinDomain a l.did else s) s
  s.updLaunch l.q l.lid (fun l => { l with
    teams := l.teams ++ [⟨team, site, record, .loading, [], false, false⟩]
    firstPlaced := if l.firstPlaced.isNone then some s.globalClock.toNat else l.firstPlaced })

/-- The order of a stack queue: priority, then arrival (03 R66). -/
def Queued.before (x y : Queued) : Bool := y.prio < x.prio || (x.prio = y.prio && x.order < y.order)

def insertQueued (t : Queued) : List Queued → List Queued
  | [] => [t]
  | u :: rest => if t.before u then t :: u :: rest else u :: insertQueued t rest

def sortQueued (l : List Queued) : List Queued := l.foldr insertQueued []

/-- The site for the next team of a launch on a stack: a reserved one of a gang, or the best fit. -/
def State.siteFor (s : State) (l : Launch) (st : Nat) : Option Site :=
  if l.dv then l.reserved.find? (fun x => x.stack = st) else s.bestSite l st []

/-- The first team of a stack queue that finds a site. -/
def State.placeable (s : State) (st : Nat) : List Queued → Option (Queued × Launch × Site)
  | [] => none
  | t :: rest =>
    match s.launch? t.q t.lid with
    | none => s.placeable st rest
    | some l =>
      match s.siteFor l st with
      | some x => if s.frozen l.tenant then s.placeable st rest else some (t, l, x)
      | none => s.placeable st rest

/-- A DV = 1 launch whose domain does not exist for its tenant when its first team is placed (02 R39). Of a domain of the tenant with a level
above 0 the spec says nothing; the launch is placed there, DOM0 naming it (log 46). -/
def State.noDomain (s : State) (l : Launch) : Bool :=
  l.dv && l.teams = [] &&
    (match s.domain? l.did with
      | some d => d.tenant ≠ l.tenant
      | none => true)

/-- TEAM_PLACEMENT (03 R66-R71). Teams of launches that place no further team leave the queue. -/
def execTeamPlacement (stack : Nat) (s : State) : Res :=
  let live (t : Queued) : Bool := match s.launch? t.q t.lid with
    | some l => l.status.isNone
    | none => false
  let queue := sortQueued ((s.stackQueue stack).filter live)
  let s := { s with stackQueues := assign s.stackQueues stack queue }
  match s.placeable stack queue with
  | none => .next s
  | some (t, l, x) =>
    if s.noDomain l then .next ((s.updLaunch l.q l.lid (fun l => l.finish 2 4)).dropReserved l.q l.lid)
    else
      let s := { s with stackQueues := assign s.stackQueues stack (queue.filter (· ≠ t)) }
      let s := s.updLaunch l.q l.lid (fun l => { l with reserved := l.reserved.erase x })
      .next (s.seatTeam l x t.team t.record)

/-! ### Loading (02 R35, R36, R42; 03 R73) -/

/-- Write a member's TCM allocation: zeros, the tcm sections, and the record copy over its first 32 bytes. -/
def State.fillSeat (s : State) (seat : Seat) (tcm : List (Nat × List Byte)) (record : Option (List Word)) : State :=
  let copy : List (Nat × List Byte) := match record with
    | some r => [(0, r.flatMap wordBytes4)]
    | none => []
  s.loadBlock (ownTcmAt seat.ctx (seat.tcmBase * 1024)) (seat.tcmSize * 1024) (tcm ++ copy)

/-- What the copy unit reads for a team: where the text begins, and the tcm and scratch sections. -/
def State.readTeam (s : State) (l : Launch) : State × Option (Nat × List (Nat × List Byte) × List (Nat × List Byte)) :=
  match s.readImage l.tenant l.image ((l.tcmk - l.chbufk) * 1024) (l.scrk * 1024) with
  | (s, none) => (s, none)
  | (s, some im) =>
    match s.readSections l.tenant l.image 2 im.sections with
    | (s, none) => (s, none)
    | (s, some tcm) =>
      match s.readSections l.tenant l.image 3 im.sections with
      | (s, none) => (s, none)
      | (s, some scr) => (s, some (l.image + im.text + im.entry, tcm, scr))

/-- The load cannot be completed: the contexts are released, and the launch fails with IMAGE (02 R36, 03 R73). -/
def State.dropTeam (s : State) (l : Launch) (t : Team) : State :=
  let s := t.site.seats.foldl (fun s p => (s.leaveDomain p.ctx).updOf p.ctx (fun c => c.leave .reserved)) s
  let s := s.updLaunch l.q l.lid (fun l => { l.finish 2 2 with teams := l.teams.filter (fun x => x.index ≠ t.index) })
  (s.freeSeats t.site).dropReserved l.q l.lid

/-- The cluster of a team being loaded starts a fill of the line that holds the entry PC, unless it holds that line, or 8 fills are
outstanding (DESIGN CHOICE: 04 R113 has a context's miss wait for a free one, and does not speak of a load; log 46). -/
def State.entryFill (s : State) (tenant : Nat) (site : Site) (pc : Nat) : State :=
  s.updUnit (.core site.stack site.cluster 0 0) (fun u =>
    if (u.line? tenant (pc / 64)).isSome then u else u.startFill tenant (pc / 64))

/-- TEAM_LOAD_COMPLETE (03 R73): every write of the load has been made, and the members start. -/
def execTeamLoadComplete (q : Nat) (lid : BitVec 32) (team : Nat) (s : State) : Res :=
  match s.launch? q lid with
  | none => .next s
  | some l =>
    match l.team? team with
    | none => .next s
    | some t =>
      if t.phase ≠ .loading then .next s
      else
        match s.readTeam l with
        | (s, none) => .next (s.dropTeam l t)
        | (s, some (pc, tcm, scr)) =>
          let s := t.site.seats.foldl (fun s p => s.fillSeat p tcm t.record) s
          let s := s.loadBlock (scratchAt t.site.stack t.site.cluster (t.site.scrBase * 1024)) (t.site.scrSize * 1024) scr
          let s := t.site.seats.foldl (fun s p => s.updOf p.ctx (fun c => { c with phase := .live, pc := BitVec.ofNat 48 pc })) s
          .next ((s.entryFill l.tenant t.site pc).updLaunch q lid (fun l => l.updTeam team (fun t => { t with phase := .running })))

end Sys2Proof.Machine
end

