-- ==== Sys2Proof/Machine/Complete.lean ====
section
/-!
DEFINITION. Machine/Complete.lean: completion records, MSI-X unmasking, device queues of template launches, and the start of team
swapping (02 R43-R47; 03 R75-R83).
-/
namespace Sys2Proof.Machine

/-! ### Completion (02 R44-R47) -/

/-- Every team that was placed has retired or stopped. -/
def Launch.settled (l : Launch) : Bool := l.teams.all (fun t => t.phase = .retired)

/-- The status that the retirement of its last team gives an eligible launch (02 R45, 03 R62, R79). -/
def State.natural (s : State) (l : Launch) : Option Completion :=
  let all : Bool := match l.dq with
    | none => l.teams.length = l.count && l.settled
    | some d =>
      match d.final with
      | some f => drained f (s.dqWord d 4) && d.got.isNone && l.teams.length = d.started && l.settled
      | none => false
  if !all || !l.eligible then none else if l.tfail = 0 then some ⟨1, 0⟩ else some ⟨2, 6⟩

/-- The status of a launch whose record may be written now: every placed team has retired or stopped. At a teardown, records are
written in acceptance order (18 R491). -/
def State.finalStatus (s : State) (l : Launch) : Option Completion :=
  let torn : Bool := match lookup? s.queues l.q with
    | some h => h.life ≠ .inUse
    | none => false
  if torn && s.launches.any (fun k => k.q = l.q && k.order < l.order) then none
  else
    match l.status with
    | some c => if l.settled then some c else none
    | none => s.natural l

/-- FLAGS of a record: DFLAGS[7:0] of the launch's domain (02 R44). The spec does not say what they are when DID names no domain, which gives
0 here, or another tenant's, which gives that domain's flags (log 46). -/
def State.domFlags (s : State) (l : Launch) : Nat :=
  if l.dv then
    match s.domain? l.did with
    | some d => d.flags.toNat % 256
    | none => 0
  else 0

/-- Words 1 to 7 of a completion record, and word 0 (02 R44). -/
def State.recordOf (s : State) (l : Launch) (c : Completion) : List Word :=
  [BitVec.ofNat 32 (3 * 2 ^ 24 + c.reason * 2 ^ 8 + c.status), l.lid, BitVec.ofNat 32 l.tdone, BitVec.ofNat 32 l.tfail,
   s.globalClock.setWidth 32, s.globalClock.extractLsb' 32 32, l.fctx, BitVec.ofNat 32 (l.fcause.toNat * 2 ^ 8 + s.domFlags l)]

/-- Write a store of a dispatcher in a slice, which its trace ring records (03 R76, 18 R495). -/
def State.dqStore (s : State) (tenant : Nat) (d : DeviceQueue) (off kind : Nat) (w : Word) : State :=
  (s.storeWord (sliceAt d.stack d.slice (d.off + off)) w).ringEntry d.stack d.slice (d.off + off) kind s.cur true tenant 15 w

/-- A launch that others depend on, or the producer of a template launch, has completed; `bad` says with a status other than DONE (02 R40, 03
R63, R79). -/
def Launch.heard (l : Launch) (order : Nat) (bad : Bool) : Launch :=
  { l with
    needs := l.needs.filter (· ≠ order), depFailed := l.depFailed || (bad && l.needs.contains order)
    dq := l.dq.map (fun d => if d.producer = some order then { d with producer := none, lost := bad } else d) }

/-- Write the words of a record that are not yet in memory. -/
def State.recordRest (s : State) (flat : Nat) (ws : List Word) (done : List Nat) : State :=
  ws.zipIdx.foldl (fun s p => if done.contains p.2 then s else s.storeWord (flat + 4 * p.2) p.1) s

/-- Write the record and finish with the launch: its interrupt, its place among the recent completions, and CLOSED of its device queue.
Words 1 to 7 that are already in memory are not written again, and word 0 is written last. Where the address cannot be written, no byte of
the record is (log 18). -/
def State.writeRecord (s : State) (l : Launch) (c : Completion) : State :=
  let s := match s.vaFlat l.tenant l.record .write, l.writing with
    | (s, some flat), none => s.storeBytes flat ((s.recordOf l c).flatMap wordBytes4)
    | (s, some flat), some (ws, done) => s.recordRest flat ws done
    | (s, none), _ => s
  let s := s.updFunc (l.q / 16) (fun f => f.raise (l.q % 16))
  let s := match l.dq with
    | some d => s.dqStore l.tenant d 0x0C 0 (s.dqWord d 0x0C ||| 1)
    | none => s
  let mine := s.recent.filter (fun r => r.1 = l.q)
  let others := s.recent.filter (fun r => r.1 ≠ l.q)
  l.sites.foldl State.freeSeats { s with
    launches := (s.launches.filter (fun k => !k.named l.q l.lid)).map (fun k => k.heard l.order (c.status ≠ 1))
    recent := ((l.q, l.lid, c.status) :: mine).take 4096 ++ others }

/-- COMPLETION_RECORD (02 R47). -/
def execCompletionRecord (q : Nat) (lid : BitVec 32) (s : State) : Res :=
  match s.launch? q lid with
  | none => .next s
  | some l =>
    match s.finalStatus l with
    | none => .next s
    | some c => .next (s.writeRecord l c)

/-- Word `n` of words 1 to 7 of a record is written before the rest (02 R47; 17 R464, R465). The status of the launch is chosen then. -/
def State.recordPart (s : State) (q : Nat) (lid : Word) (n : Nat) : State :=
  match s.launch? q lid with
  | none => s
  | some l =>
    match s.finalStatus l with
    | none => s
    | some c =>
      let (ws, done) := l.writing.getD (s.recordOf l c, [])
      match s.vaFlat l.tenant l.record .write with
      | (s, none) => s
      | (s, some flat) =>
        if n = 0 ∨ 7 < n ∨ done.contains n then s
        else (s.storeWord (flat + 4 * n) (ws.getD n 0)).updLaunch q lid (fun l => { l.finish c.status c.reason with writing := some (ws, n :: done) })

/-- MSIX_UNMASK (02 R47). -/
def execMsixUnmask (func vector : Nat) (s : State) : Res :=
  if vector < 32 ∧ func < 64 then .next (s.updFunc func (fun f => f.unmask vector)) else .next s

/-! ### Device queues (02 R43; 03 R76-R79) -/

def State.updDq (s : State) (q : Nat) (lid : Word) (f : DeviceQueue → DeviceQueue) : State :=
  s.updLaunch q lid (fun l => { l with dq := l.dq.map f })

/-- Offset of the slot of an index. -/
def DeviceQueue.slot (d : DeviceQueue) (i : Word) : Nat := 64 + i.toNat % d.cap * 32

/-- A ragged tile record is malformed (02 R43). -/
def raggedMalformed (ws : List Word) : Bool :=
  let w (i : Nat) : Nat := ((ws[i]?).getD 0).toNat
  w 0 / 2 ^ 24 ≠ 2 || bitsOf (w 0) 23 6 ≠ 0 || bitsOf (w 0) 5 0 = 0 || 32 < bitsOf (w 0) 5 0 || bitsOf (w 4) 31 16 ≠ 0 || bitsOf (w 6) 31 16 ≠ 0

/-- HEAD moves past a slot (03 R78). -/
def State.stepHead (s : State) (t : Nat) (d : DeviceQueue) : State := s.dqStore t d 4 1 (s.dqWord d 4 + 1)

/-- A record is discarded or skipped. -/
def State.discard (s : State) (t : Nat) (d : DeviceQueue) : State := s.dqStore t d 8 0 (s.dqWord d 8 + 1)

/-- The record in the slot at HEAD, and whether it could be read; none where its word 0 is zero. A slot with an uncorrectable error holds no
well-formed record. -/
def State.slotRecord (s : State) (d : DeviceQueue) : Option (Bool × List Word) :=
  let flat := sliceAt d.stack d.slice (d.off + d.slot (s.dqWord d 4))
  let bad := s.hasBad flat 32
  if s.dqWord d (d.slot (s.dqWord d 4)) = 0 ∧ !bad then none else some (!bad, wordsOf 8 (s.bytesAt flat 32))

/-- Word 0 of the slot at HEAD is cleared, once its record has been read (03 R78). -/
def State.clearSlot (s : State) (t : Nat) (d : DeviceQueue) : State :=
  let at_ := d.slot (s.dqWord d 4)
  (s.correct (sliceAt d.stack d.slice (d.off + at_)) 32).dqStore t d at_ 0 0

/-- HEAD moves, and the record that was read starts a team, or is discarded (03 R78). -/
def State.takeRecord (s : State) (l : Launch) (d : DeviceQueue) (ok : Bool) (ws : List Word) : State :=
  let s := s.stepHead l.tenant d
  if !ok || raggedMalformed ws || l.count ≤ d.started then
    (s.discard l.tenant d).updLaunch l.q l.lid (fun l => { l with dq := some { d with got := none } })
  else
    s.updLaunch l.q l.lid (fun l => { l with
      records := l.records ++ [(d.started, ws)], dq := some { d with started := d.started + 1, got := none } })

/-- Consume the slot at HEAD (03 R78, R79), or go on with a slot that has been read and cleared. -/
def State.consume (s : State) (l : Launch) (d : DeviceQueue) : State :=
  match d.got, s.slotRecord d with
  | some (ok, ws), _ => s.takeRecord l d ok ws
  | none, some (ok, ws) => (s.clearSlot l.tenant d).takeRecord l d ok ws
  | none, none => if d.final.isSome then (s.stepHead l.tenant d).discard l.tenant d else s

/-- The dispatcher may consume a record. Nothing more is read once the producer has completed with a status other than DONE. -/
def State.consumes (s : State) (l : Launch) (d : DeviceQueue) : Bool :=
  let past : Bool := match d.final with
    | some f => drained f (s.dqWord d 4)
    | none => false
  l.eligible && l.status.isNone && (d.got.isSome || (!past && !d.lost))

/-- RECORD_CONSUME (03 R78, R79). Sites of a swapping launch that no record can need any more are released. -/
def execRecordConsume (q : Nat) (lid : BitVec 32) (s : State) : Res :=
  -- the global dispatcher belongs to the module, as the secure control core does (17 R467)
  let s := s.orderFor .secureCore
  match s.launch? q lid with
  | none => .next s
  | some l =>
    match l.dq with
    | none => .next s
    | some d => if s.consumes l d then .next ((s.consume l d).freeSites q lid) else .next s

/-- The record at HEAD is read and its word 0 cleared, before HEAD moves (03 R78, 17 R465). -/
def State.slotPart (s : State) (q : Nat) (lid : Word) : State :=
  let s := s.orderFor .secureCore
  match s.launch? q lid with
  | none => s
  | some l =>
    match l.dq with
    | none => s
    | some d =>
      match s.slotRecord d with
      | some r =>
        if s.consumes l d && d.got.isNone then (s.clearSlot l.tenant d).updDq q lid (fun d => { d with got := some r }) else s
      | none => s

/-- PRODUCER_COMPLETE (03 R79): `lid` names the template launch. -/
def execProducerComplete (q : Nat) (lid : BitVec 32) (s : State) : Res :=
  match s.launch? q lid with
  | none => .next s
  | some l =>
    match l.dq with
    | none => .next s
    | some d =>
      if d.producer.isSome ∨ d.final.isSome ∨ l.status.isSome ∨ d.got.isSome then .next s
      else if d.lost then .next ((s.updLaunch q lid (fun l => l.finish 5 0)).freeSites q lid)
      else .next ((s.updDq q lid (fun d => { d with final := some (s.dqWord d 0) })).freeSites q lid)

/-! ### Team swapping (03 R80, R81, R83) -/

/-- Teams of a launch that wait in stack queues are taken back. -/
def State.unqueue (s : State) (l : Launch) : State :=
  { s with stackQueues := s.stackQueues.map (fun p => (p.1, p.2.filter (fun t => !(t.q = l.q && t.lid = l.lid)))) }

/-- SWAP_START (03 R80): asked once, at the end of the first quantum. -/
def execSwapStart (q : Nat) (lid : BitVec 32) (s : State) : Res :=
  match s.launch? q lid with
  | none => .next s
  | some l =>
    match l.firstPlaced with
    | none => .next s
    | some t0 =>
      if l.dv ∨ l.swapAsked ∨ l.status.isSome ∨ s.globalClock.toNat < t0 + l.quantum then .next s
      else
        let s := s.updLaunch q lid (fun l => { l with swapAsked := true })
        let resident := l.teams.filter (fun t => t.phase ≠ .retired)
        if l.teams.length < l.total ∧ s.bestStack l = none ∧ resident ≠ [] then
          .next ((s.unqueue l).updLaunch q lid (fun l => { l with
            sites := (sortTeams resident).map (·.site), swapStart := s.globalClock.toNat, swapN := 0 }))
        else .next s
where
  /-- teams in order of team index -/
  sortTeams (l : List Team) : List Team := l.foldr insertTeam []
  insertTeam (t : Team) : List Team → List Team
    | [] => [t]
    | u :: rest => if t.index ≤ u.index then t :: u :: rest else u :: insertTeam t rest

/-- The next unretired team of a site after a team index, in cyclic order. -/
def nextOf (l : List Nat) (n : Nat) : Option Nat :=
  match l.find? (fun m => n < m) with
  | some m => some m
  | none => l.find? (fun m => m ≠ n)

/-- The turn of the next team of a site comes (03 R81): a saved team may be restored; one not started before is seated and loaded. -/
def State.bringNext (s : State) (q : Nat) (lid : Word) (k after : Nat) : State :=
  match s.launch? q lid with
  | none => s
  | some l =>
    match nextOf (l.siteTeams k) after, l.sites[k]? with
    | some n, some site =>
      match l.team? n with
      | some t =>
        if t.phase = .saved then
          { s with switches := s.switches.map (fun p => if p.2.team = some (q, lid, n) then (p.1, { p.2 with due := true }) else p) }
        else s
      | none => s.seatTeam l site n (lookup? l.records n)
    | _, _ => s

/-- The team that stands at a site. -/
def Launch.residentAt (l : Launch) (site : Site) : Option Team :=
  l.teams.find? (fun t => t.site = site && (t.phase = .running || t.phase = .loading))

/-- Contexts of a team, children included. -/
def State.teamCtxs (s : State) (q : Nat) (lid : Word) (n : Nat) : List AgentId :=
  (s.ctxs.filter (fun p => p.2.phase = .live && p.2.origin.ofTeam q lid n)).map (·.1)

/-- Bytes of the save area of a team (18 R483, R485): the header and directory in whole 64-byte blocks, and the sections. -/
def State.teamArea (s : State) (l : Launch) (t : Team) : Nat :=
  let n := (s.teamCtxs l.q l.lid t.index).length
  let sections := n + t.site.seats.length + (if t.site.scrSize = 0 then 0 else 1) + (if l.scrk = 256 then 1 else 0)
  (64 + 16 * sections + 63) / 64 * 64 + n * 12288 + (t.site.seats.map (fun p => (p.tcmSize + p.bufSize + 1) * 1024)).sum +
    t.site.scrSize * 1024 + (if l.scrk = 256 then 147456 else 0)

/-- Save-area bytes of a tenant's pool in use. -/
def State.poolUsed (s : State) (tenant : Nat) : Nat :=
  ((s.switches.filter (fun p => p.2.tenant = tenant)).flatMap (fun p => p.2.areas.map (fun x => x.2.length))).sum

/-- A resident team is swapped out: its stack dispatcher sets the stop time of its contexts from its own copy of TIME (01 R21; 03 R81; 18
R476). -/
def State.swapOut (s : State) (l : Launch) (t : Team) : State :=
  let cs := s.teamCtxs l.q l.lid t.index
  let w : Switch :=
    { tenant := l.tenant, team := some (l.q, l.lid, t.index), stop := (s.stackClock t.site.stack).toNat, resume := (s.stackClock t.site.stack).toNat, phase := .scheduled, due := false
      sealNo := 0, ctxs := [], cores := [], units := [], memory := [], mesh := [], accs := [], areas := [] }
  let s := { s with switches := s.switches ++ [(64 + s.order, w)], order := s.order + 1 }
  cs.foldl (fun s a => s.updOf a (fun c => { c with switchat := s.stackClock t.site.stack })) s

/-- One site at a boundary (03 R81, R83): a resident team gives way to the next unretired team, unless a member has a valid DOM register
or the save pool has no room; a site whose team has retired takes its next team. What happens at a site whose team is still being loaded, or
whose last swap is still in progress, the spec does not say: such a site passes the boundary over (log 46). -/
def State.swapSite (s : State) (q : Nat) (lid : Word) (k : Nat) : State :=
  match s.launch? q lid with
  | none => s
  | some l =>
    match l.sites[k]? with
    | none => s
    | some site =>
      match l.residentAt site with
      | some t =>
        let cs := s.teamCtxs q lid t.index
        let full : Bool := match lookup? s.partitions l.tenant with
          | some p => p.poolSize < s.poolUsed l.tenant + s.teamArea l t
          | none => true
        if t.phase ≠ .running ∨ (l.siteTeams k).length ≤ 1 ∨ full ∨ cs.any (fun a => (s.ctxOf a).innermost.isSome) ∨
            s.switches.any (fun p => p.2.team = some (q, lid, t.index)) then s
        else s.swapOut l t
      | none =>
        let last := ((l.teams.filter (fun t => t.site = site)).getLast?.map (·.index)).getD 0
        s.bringNext q lid k last

/-- QUANTUM_BOUNDARY (03 R81). -/
def execQuantumBoundary (q : Nat) (lid : BitVec 32) (s : State) : Res :=
  match s.launch? q lid with
  | none => .next s
  | some l =>
    if l.sites = [] ∨ s.frozen l.tenant ∨ s.globalClock.toNat < l.swapStart + (l.swapN + 1) * l.quantum then .next s
    else
      let s := s.updLaunch q lid (fun l => { l with swapN := l.swapN + 1 })
      .next ((List.range l.sites.length).foldl (fun s k => s.swapSite q lid k) s)

end Sys2Proof.Machine
end

