-- ==== Sys2Proof/Machine/SysRegs.lean ====
section
/-!
DEFINITION. Machine/SysRegs.lean: system registers, SRR and SRW (06 R147-R153, and the owner chapters of each range), and the events
that are register accesses with effects of their own.
-/
namespace Sys2Proof.Machine

/-! ### Names and numbers (06 R148) -/

inductive SysReg where
  | ctxstat | epc | cause | tval | tvec | kscr0 | kscr1 | lcnt | lstart | lend | lrem | ptimeh | pinsth | pswh
  | time | timeh | ctxname | fpcsr | rcsr | dflags | dom (k : BitVec 2) | decl | declh | vlanes | vl
  | mfmt | mcap | mgate | mchain | msatc | mrowmask | chbuf | journal | tracectl | switchat | switchath | slips | icmiss
  | acccfg | accstat | modnum | astore | instant | instanth | live | liveh | vseq | viter | mweight | mrset | mopaddr
  | tracestat | traceidx | tracedat (k : BitVec 2)
  | tenant | mrbase | mrhead | mrtail | slcsel | slcctl | slclo | slchi | slcidx | slcdat (k : BitVec 2) | tlbva | tlbinv
  deriving DecidableEq, Repr

/-- The assigned numbers up to 0x3FF. -/
def coreNumbers : List (Nat × SysReg) :=
  [(0x000, .ctxstat), (0x001, .epc), (0x002, .cause), (0x003, .tval), (0x004, .tvec), (0x005, .kscr0), (0x006, .kscr1),
   (0x008, .lcnt), (0x009, .lstart), (0x00A, .lend), (0x00B, .lrem), (0x00C, .ptimeh), (0x00D, .pinsth), (0x00E, .pswh),
   (0x010, .time), (0x011, .timeh), (0x014, .ctxname), (0x020, .fpcsr), (0x021, .rcsr), (0x022, .dflags)] ++
  [(0x028, .dom 0), (0x029, .dom 1), (0x02A, .dom 2), (0x02B, .dom 3), (0x02C, .decl), (0x02D, .declh), (0x030, .vlanes), (0x031, .vl),
   (0x038, .mfmt), (0x039, .mcap), (0x03A, .mgate), (0x03B, .mchain), (0x03C, .msatc), (0x03D, .mrowmask), (0x040, .chbuf),
   (0x041, .journal), (0x048, .tracectl), (0x049, .switchat), (0x04A, .switchath), (0x0C0, .slips), (0x0C1, .icmiss)] ++
  [(0x100, .acccfg), (0x101, .accstat), (0x180, .modnum), (0x181, .astore), (0x200, .instant), (0x201, .instanth), (0x202, .live),
   (0x203, .liveh), (0x280, .vseq), (0x281, .viter), (0x300, .mweight), (0x301, .mrset), (0x302, .mopaddr), (0x380, .tracestat),
   (0x381, .traceidx), (0x382, .tracedat 0), (0x383, .tracedat 1), (0x384, .tracedat 2), (0x385, .tracedat 3)]

/-- The numbers of every hart (22 R540). -/
def hartNumbers : List (Nat × SysReg) := [(0x400, .tenant), (0x402, .mrhead)]

/-- The numbers of service cores only (22 R540, R543, R544). -/
def serviceNumbers : List (Nat × SysReg) :=
  [(0x401, .mrbase), (0x403, .mrtail), (0x410, .slcsel), (0x411, .slcctl), (0x412, .slclo), (0x413, .slchi), (0x414, .slcidx),
   (0x415, .slcdat 0), (0x416, .slcdat 1), (0x417, .slcdat 2), (0x418, .slcdat 3), (0x420, .tlbva), (0x421, .tlbinv)]

def isService : AgentId → Bool
  | .serviceCore _ _ => true
  | .core _ _ _ _ => false
  | .copyUnit _ _ => false
  | .saveEngine _ => false
  | .secureCore => false
  | .memoryCore _ _ => false
  | .linkEngine _ _ => false

/-- The register that a number names for an agent; none where it is unassigned there. -/
def sysReg? (a : AgentId) (n : Nat) : Option SysReg :=
  match lookup? coreNumbers n with
  | some r => some r
  | none =>
    match lookup? hartNumbers n with
    | some r => if isHart a then some r else none
    | none => if isService a then lookup? serviceNumbers n else none

/-- Registers that no access at program privilege
reaches: those marked kernel without a rule that lets programs read them, and all of 0x400 up (06 R147, R151; 18 R494; 22 R540). -/
def SysReg.kernelRead : SysReg → Bool
  | .epc | .cause | .tval | .kscr0 | .kscr1 | .ptimeh | .pinsth | .pswh | .tracestat | .traceidx | .tracedat _ => true
  | .tenant | .mrbase | .mrhead | .mrtail | .slcsel | .slcctl | .slclo | .slchi | .slcidx | .slcdat _ | .tlbva | .tlbinv => true
  | .ctxstat | .tvec | .lcnt | .lstart | .lend | .lrem | .time | .timeh | .ctxname | .fpcsr | .rcsr | .dflags | .dom _ => false
  | .decl | .declh | .vlanes | .vl | .mfmt | .mcap | .mgate | .mchain | .msatc | .mrowmask | .chbuf | .journal | .tracectl => false
  | .switchat | .switchath | .slips | .icmiss | .acccfg | .accstat | .modnum | .astore | .instant | .instanth => false
  | .live | .liveh | .vseq | .viter | .mweight | .mrset | .mopaddr => false

/-- Registers whose writes at program privilege raise PRIV, besides those no program reaches: DFLAGS, DOM0-DOM3, MGATE, MCHAIN, CHBUF,
JOURNAL, ACCCFG, ACCSTAT, MWEIGHT, MRSET, and on cores SLIPS and ICMISS (R204, R31, R304, R305, R340, R352, R446, R457, R307, R117). -/
def SysReg.kernelWrite (a : AgentId) (r : SysReg) : Bool :=
  r.kernelRead ||
    (match r with
      | .dflags | .dom _ | .mgate | .mchain | .chbuf | .journal | .acccfg | .accstat | .mweight | .mrset => true
      | .slips | .icmiss => !isHart a
      | _ => false)

/-! ### Reading -/

/-- What a read does: it gives a value; it waits; or the number is unassigned; or the privilege does not suffice. -/
inductive RegRead where
  | value (s : State) (w : Word)
  | wait
  | unassigned
  | denied

/-- VSEQ and VITER of a context: ACT with body length and position, and the iterations not finished (10 R266). Of several loops they show the
oldest in the sequencer, and one that is being collected only where none is there (DESIGN CHOICE: the rule names no loop; log 46). -/
def State.vseq (s : State) (a : AgentId) : Word × Word :=
  let loops := (s.coreOf a).seq.filterMap (fun e =>
    match e with
    | .one _ => none
    | .loop c body _ pos iter => if c = a then some (body.length, pos, iter) else none)
  match loops with
  | (n, pos, iter) :: _ => (BitVec.ofNat 32 (2 ^ 31 + n * 2 ^ 16 + pos), BitVec.ofNat 32 iter)
  | [] =>
    match (s.ctxOf a).vloop with
    | some l => (BitVec.ofNat 32 (2 ^ 31 + l.n * 2 ^ 16), BitVec.ofNat 32 l.count)
    | none => (0, 0)

/-- The part of the journal that JOURNAL selects (12 R352). -/
def State.journalPart (s : State) (a : AgentId) : Word :=
  let c := s.ctxOf a
  let j := (s.coreOf a).journal
  let record : Option (JEntry × BitVec 3) :=
    match lookup? j c.jentry.toNat with
    | some e =>
      match e.verdict with
      | .record r => some (e, r)
      | .posted => none
      | .performed => none
      | .rejected _ => none
    | none => none
  match c.jpart.toNat, record with
  | 3, _ => BitVec.ofNat 32 (((List.range 16).map (fun n => bit (lookup? j n).isSome * 2 ^ n)).sum)
  | _, none => 0
  | 0, some (e, r) => BitVec.ofNat 32 (2 ^ 31 + r.toNat * 2 ^ 28 + e.be.toNat * 2 ^ 24 + ctxIndex e.ctx)
  | 1, some (e, _) => e.ea
  | _, some (e, _) => e.data

/-- Capacity of an automaton store (13 R375): 64 in a cluster, 8 on a hart. -/
def storeSize (a : AgentId) : Nat := if isHart a then 8 else 64

/-- A word of a trace entry. -/
def TraceEntry.word (e : TraceEntry) (k : BitVec 2) : Word :=
  match k.toNat with
  | 0 => e.w0 | 1 => e.w1 | 2 => e.w2 | _ => e.w3

/-- The instant counter of the innermost domain (15 R430). -/
def State.instantOf (s : State) (a : AgentId) : BitVec 48 :=
  match (s.ctxOf a).innermost with
  | none => 0
  | some d =>
    match s.domain? d.toNat with
    | some k => k.instant
    | none => 0

/-- MCHAIN as read (11 R305). -/
def MChain.toWord (m : MChain) : Word :=
  BitVec.ofNat 32 (bit m.susp * 2 ^ 31 + m.reason.toNat * 2 ^ 28 + m.cmd.toNat * 2 ^ 24 + m.k.toNat * 2 ^ 16 + m.done.toNat)

/-- The slice that SLCSEL selects: the service core's stack, and the slice. -/
def State.selected (s : State) (a : AgentId) : Nat × Nat := (stackOf a, (s.hartOf a).slcsel.toNat)

/-- The value a register reads as, and what the read changes: shadows, DFLAGS, the index of TRACEDAT3 and SLCDAT3, and, as
after SRR of FPCSR and RCSR the flags of every earlier group are known (07 R203, 08 R224), the groups in flight. -/
def State.regValue (s : State) (a : AgentId) (r : SysReg) : State × Word :=
  let c := s.ctxOf a
  let k := s.coreOf a
  let u := s.unitOf a
  let h := s.hartOf a
  let sl := s.sliceOf (s.selected a).1 (s.selected a).2
  match r with
  | .ctxstat => (s, c.ctxstat)
  | .epc => (s, c.epc)
  | .cause => (s, c.cause)
  | .tval => (s, c.tval)
  | .tvec => (s, c.tvec)
  | .kscr0 => (s, c.kscr0)
  | .kscr1 => (s, c.kscr1)
  | .lcnt => (s, c.lcnt)
  | .lstart => (s, c.lstart)
  | .lend => (s, c.lend)
  | .lrem => (s, c.lrem.setWidth 32)
  | .ptimeh => (s, c.ptimeh)
  | .pinsth => (s, c.pinsth)
  | .pswh => (s, c.pswh)
  | .time => (s.updOf a (fun c => { c with timeh := (s.coreClock a).extractLsb' 32 32 }), (s.coreClock a).setWidth 32)
  | .timeh => (s, c.timeh)
  | .ctxname => (s, ctxName a)
  | .fpcsr => (s.updOf a (fun c => { c with flight := [] }), c.fpcsr.toWord)
  | .rcsr => (s.updOf a (fun c => { c with flight := [] }), c.rcsr.toWord)
  | .dflags =>
    match c.innermost with
    | none => (s, c.mergeFlags.setWidth 32)
    | some d =>
      let s := s.updDomain d.toNat (fun x => { x with flags := x.flags ||| c.mergeFlags })
      (s, match s.domain? d.toNat with
        | some x => x.flags.setWidth 32
        | none => c.mergeFlags.setWidth 32)
  | .dom i => (s, BitVec.ofNat 32 (bit (c.dom[i.toNat]).v * 2 ^ 31 + (c.dom[i.toNat]).id.toNat))
  | .decl => (s, c.decl.setWidth 32)
  | .declh => (s, c.decl.extractLsb' 32 32)
  | .vlanes => (s, c.vlanes)
  | .vl => (s, BitVec.ofNat 32 c.vl)
  | .mfmt => (s, c.mfmt)
  | .mcap => (s, 0x40448220)
  | .mgate => (s, BitVec.ofNat 32 (u.gated.toNat * 2 ^ 20 + u.mgateIdle.toNat))
  | .mchain => (s, c.mchain.toWord)
  | .msatc => (s, c.msatc)
  | .mrowmask => (s, c.mrowmask)
  | .chbuf => (s, BitVec.ofNat 32 (c.sizek.toNat * 2 ^ 16 + c.basek.toNat))
  | .journal => (s, s.journalPart a)
  | .tracectl => (s, BitVec.ofNat 32 (c.post.toNat * 2 ^ 22 + c.trigon.toNat * 2 ^ 8 + c.kinds.toNat))
  | .switchat => (s.updOf a (fun c => { c with swh := c.switchat.extractLsb' 32 32 }), c.switchat.setWidth 32)
  | .switchath => (s, c.swh)
  | .slips => (s, if isHart a then 0 else c.slips)
  | .icmiss => (s, if isHart a then 0 else c.icmiss)
  | .acccfg => (s, BitVec.ofNat 32 (u.acccfg.agex.toNat * 2 ^ 28 + u.acccfg.qwx.toNat * 2 ^ 20 + u.acccfg.quota.toNat * 2 ^ 8
      + u.acccfg.mwin.toNat))
  | .accstat => (s, BitVec.ofNat 32 (c.refused * 2 ^ 16 + bit c.drop * 2 ^ 15 + s.resv a * 2 ^ 8 + c.out))
  | .modnum => (s, s.modnum.setWidth 32)
  | .astore => (s, BitVec.ofNat 32 ((storeSize a - u.stubs.length) * 2 ^ 16 + (storeSize a - u.slots.length)))
  | .instant =>
    let n := s.instantOf a
    (s.updOf a (fun c => { c with insth := (n.extractLsb' 32 16).setWidth 32 }), n.setWidth 32)
  | .instanth => (s, if c.innermost.isSome then c.insth else 0)
  | .live => (s, c.live.setWidth 32)
  | .liveh => (s, c.live.extractLsb' 32 32)
  | .vseq => (s, (s.vseq a).1)
  | .viter => (s, (s.vseq a).2)
  | .mweight => (s, BitVec.ofNat 32 k.mweight)
  | .mrset => (s, u.mrset.setWidth 32)
  | .mopaddr => (s, c.mopaddr)
  | .tracestat => (s, BitVec.ofNat 32 (bit k.frozen * 2 ^ 31 + bit k.trigd * 2 ^ 30 + k.left % 1024 * 2 ^ 16 + k.head % 1024))
  | .traceidx => (s, BitVec.ofNat 32 k.idx)
  | .tracedat i =>
    let w := (lookupD ⟨0, 0, 0, 0⟩ k.trace k.idx).word i
    (if i = 3 then s.updCore a (fun k => { k with idx := (k.idx + 1) % 1024 }) else s, w)
  | .tenant => (s, h.tenant.setWidth 32)
  | .mrbase => (s, BitVec.ofNat 32 (h.mrbase.toNat * 2 ^ 11))
  | .mrhead => (s, BitVec.ofNat 32 (h.lost * 2 ^ 16 + h.headM))
  | .mrtail => (s, BitVec.ofNat 32 h.tailM)
  | .slcsel => (s, h.slcsel.setWidth 32)
  | .slcctl => (s, BitVec.ofNat 32 (bit sl.en * 2 ^ 31 + bit sl.filt * 2 ^ 30 + sl.ten.toNat * 2 ^ 24))
  | .slclo => (s, sl.lo.setWidth 32)
  | .slchi => (s, sl.hi.setWidth 32)
  | .slcidx => (s, BitVec.ofNat 32 (bit sl.wrap * 2 ^ 31 + sl.headR * 2 ^ 16 + sl.idxR))
  | .slcdat i =>
    let w := (lookupD ⟨0, 0, 0, 0⟩ sl.ring sl.idxR).word i
    (if i = 3 then s.updSlice (s.selected a).1 (s.selected a).2 (fun x => { x with idxR := (x.idxR + 1) % 1024 }) else s, w)
  | .tlbva => (s, h.tlbva.setWidth 32)
  | .tlbinv => (s, BitVec.ofNat 32 (bit h.tlbAll * 2 ^ 30 + bit h.tlbBusy.isSome * 2 ^ 29 + h.tlbTen.toNat))

/-- A read by number (06 R147). FPCSR waits until the flags of every earlier group are known (07 R203): those of sequencer entries and matrix
commands. The spec does not say whether the flags that come back with the acknowledgment of an earlier accumulate (16 R443) are flags of an
earlier group: here they are not waited for (log 46). -/
def State.readReg (s : State) (a : AgentId) (kernel : Bool) (n : Nat) : RegRead :=
  match sysReg? a n with
  | none => .unassigned
  | some r =>
    if r.kernelRead && !kernel then .denied
    else if r = .fpcsr && (s.seqBusy a || s.matrixBusy a) then .wait
    else
      let p := s.regValue a r
      .value p.1 p.2

/-! ### Writing -/

/-- What a write does: it is made; it waits; it raises DOMAIN with the number of the DOM register; or the number is unassigned, or the
privilege does not suffice. -/
inductive RegWrite where
  | done (s : State)
  | wait
  | domain (k : BitVec 2)
  | unassigned
  | denied

/-- CTXSTAT as written (06 R150). -/
def Ctx.writeStat (c : Ctx) (kernel : Bool) (w : Word) : Ctx :=
  if kernel then
    { c with prv := w.getLsbD 0, rm := w.getLsbD 1, ie := w.getLsbD 2, lact := w.getLsbD 3, t := w.getLsbD 4, pprv := w.getLsbD 8
             pie := w.getLsbD 9, plact := w.getLsbD 10, intrap := w.getLsbD 11 }
  else { c with rm := w.getLsbD 1, t := w.getLsbD 4 }

/-- The cause codes of 06 R185. -/
def causeCodes : List (BitVec 8) :=
  [Cause.illegal, Cause.priv, Cause.align, Cause.loadWindow, Cause.storeWindow, Cause.peerAbsent, Cause.postedRefused, Cause.ecc,
   Cause.protoMismatch, Cause.connectDual, Cause.chanClosed, Cause.epDelegated, Cause.epStale] ++
  [Cause.causality, Cause.emitWithdrawn, Cause.domain, Cause.watchdog, Cause.matrixOperand, Cause.matrixNan, Cause.matrixFormat,
   Cause.vectorLanes, Cause.fpTrap, Cause.rationalTrap, Cause.brk, Cause.syscall, Cause.jobFault]

/-- CODE as written over a field: 0, as at context start, or a code of 06 R185; another value is reserved and keeps the field (00 R6). -/
def codeWrite (old new : BitVec 8) : BitVec 8 := if new = 0 ∨ causeCodes.contains new then new else old

/-- CAUSE as written (06 R151): DEFER and ASYNC; a GLEN of 6 or 7 and an unlisted CODE keep their field (00 R6). -/
def causeWrite (old w : Word) : Word :=
  let glen : BitVec 3 := if 6 ≤ (w.extractLsb' 8 3).toNat then old.extractLsb' 8 3 else w.extractLsb' 8 3
  (0 : BitVec 18) ++ w.extractLsb' 12 2 ++ (0 : BitVec 1) ++ glen ++ codeWrite (old.setWidth 8) (w.setWidth 8)

/-- ACCCFG as written: a reserved QWX keeps the field (16 R446). -/
def AccCfg.write (g : AccCfg) (w : Word) : AccCfg :=
  ⟨w.extractLsb' 28 4, if 4 ≤ (w.extractLsb' 20 4).toNat then w.extractLsb' 20 4 else g.qwx, w.extractLsb' 8 8, w.extractLsb' 0 8⟩

/-- The trusted monitor lets a service core trace the owners of a stretch of a slice (22 R543). -/
def State.mayTrace (s : State) (a : AgentId) (st sl lo hi : Nat) : Bool :=
  let core := match a with
    | .serviceCore st q => st * 4 + q
    | _ => 0
  s.partitions.all (fun p =>
    !p.2.shared.any (fun r => r.1 = st && r.2.1 = sl && r.2.2.1 ≤ hi / 65536 && lo / 65536 ≤ r.2.2.2) || Config.mayTrace core p.1)

/-- SLCCTL (22 R543): EN from 0 to 1 clears the ring, HEAD and WRAP; a command outside the ranges the core may trace leaves the ring
disabled. -/
def State.writeSlcctl (s : State) (a : AgentId) (w : Word) : State :=
  let p := s.selected a
  let x := s.sliceOf p.1 p.2
  let en := w.getLsbD 31 && s.mayTrace a p.1 p.2 x.lo.toNat x.hi.toNat
  s.updSlice p.1 p.2 (fun x =>
    let x := if en && !x.en then { x with ring := [], headR := 0, wrap := false } else x
    { x with en := en, filt := w.getLsbD 30, ten := w.extractLsb' 24 6 })

/-- SLCLO and SLCHI. -/
def State.writeBound (s : State) (a : AgentId) (f : Slice → Slice) : State :=
  let p := s.selected a
  s.updSlice p.1 p.2 (fun x =>
    let x := f x
    { x with en := x.en && s.mayTrace a p.1 p.2 x.lo.toNat x.hi.toNat })

/-- TLBINV (22 R544): GO starts an invalidation unless one is in progress. -/
def HartRegs.writeTlbinv (h : HartRegs) (w : Word) : HartRegs :=
  let h := { h with tlbAll := w.getLsbD 30, tlbTen := w.extractLsb' 0 6 }
  if w.getLsbD 31 && h.tlbBusy.isNone then
    { h with tlbBusy := some (h.tlbTen.toNat, if h.tlbAll then none else some h.tlbva.toNat) }
  else h

/-- A write sets the writable fields of a register; reserved bits and values are ignored (00 R5, R6). -/
def State.regSet (s : State) (a : AgentId) (kernel : Bool) (r : SysReg) (w : Word) : RegWrite :=
  let ctx (f : Ctx → Ctx) : RegWrite := .done (s.updOf a f)
  let core (f : Core → Core) : RegWrite := .done (s.updCore a f)
  let hart (f : HartRegs → HartRegs) : RegWrite := .done (s.updHart a f)
  let slice (f : Slice → Slice) : RegWrite := .done (s.updSlice (s.selected a).1 (s.selected a).2 f)
  match r with
  | .ctxstat =>
    let c := s.ctxOf a
    .done ((s.setCtxOf a (c.writeStat kernel w)).loopBuffer a { c with lrem := 0 } (c.writeStat kernel w))
  | .epc => ctx (fun c => { c with epc := w &&& 0xFFFFFFFE })
  | .cause => ctx (fun c => { c with cause := causeWrite c.cause w })
  | .tval => ctx (fun c => { c with tval := w })
  | .tvec => ctx (fun c => { c with tvec := w &&& 0xFFFFFFFE })
  | .kscr0 => ctx (fun c => { c with kscr0 := w })
  | .kscr1 => ctx (fun c => { c with kscr1 := w })
  | .lcnt => ctx (fun c => { c with lcnt := w })
  | .lstart => ctx (fun c => { c with lstart := w &&& 0xFFFFFFFE })
  | .lend => ctx (fun c => { c with lend := w &&& 0xFFFFFFFE })
  | .lrem => ctx (fun c => { c with lrem := w.setWidth 5 })
  | .ptimeh => ctx (fun c => { c with ptimeh := w })
  | .pinsth => ctx (fun c => { c with pinsth := w })
  | .pswh => ctx (fun c => { c with pswh := w })
  | .fpcsr => ctx (fun c => c.writeFp (s.inFlight a) w)
  | .rcsr => ctx (fun c => c.writeRat (s.inFlight a) w)
  | .dflags =>
    match (s.ctxOf a).innermost with
    | none => .done s
    | some d => .done (s.updDomain d.toNat (fun x => { x with flags := x.flags &&& ~~~(w.setWidth 13) }))
  | .dom k =>
    match s.domWrite a k w with
    | none => .domain k
    | some (t, true) => .done t
    | some (_, false) => .wait
  | .decl => ctx (fun c => { c with decl := c.decl.extractLsb' 32 32 ++ w })
  | .declh => ctx (fun c => { c with decl := w ++ c.decl.setWidth 32 })
  | .vl => ctx (fun c => { c with vl := min (w.toNat % 128) c.count })
  | .mfmt => ctx (fun c => { c with mfmt := w &&& 0x00030FFF })
  | .mgate => .done (s.updUnit a (fun u => { u with mgateIdle := w.setWidth 16 }))
  | .mchain => .done (if w.getLsbD 30 && (s.ctxOf a).mchain.susp then s.cancelMatrix a else s)
  | .msatc => ctx (fun c => { c with msatc := w })
  | .mrowmask => ctx (fun c => { c with mrowmask := w })
  | .chbuf =>
    ctx (fun c => if c.eps.toList.any (fun e => e.res.isSome) then c else { c with sizek := w.extractLsb' 16 8, basek := w.setWidth 7 })
  | .journal =>
    let s := s.updOf a (fun c => { c with jpart := w.extractLsb' 4 2, jentry := w.setWidth 4 })
    .done (if w.getLsbD 8 then s.clearRecord a (w.toNat % 16) else s)
  | .tracectl => ctx (fun c => { c with post := w.extractLsb' 22 10, trigon := w.extractLsb' 8 5, kinds := w.setWidth 5 })
  | .slips => ctx (fun c => if isHart a then c else { c with slips := w })
  | .icmiss => ctx (fun c => if isHart a then c else { c with icmiss := w })
  | .acccfg => .done (s.updUnit a (fun u => { u with acccfg := u.acccfg.write w }))
  | .accstat => ctx (fun c => { c with refused := w.toNat / 2 ^ 16, drop := c.drop && !w.getLsbD 15 })
  | .mweight => core (fun k => if w.toNat % 16 = 0 then k else { k with mweight := w.toNat % 16 })
  | .mrset => .done (s.setMrset a (w.setWidth 8))
  | .tracestat => core (fun k => if w.getLsbD 31 then { k with frozen := false, trigd := false, left := 0 } else k)
  | .traceidx => core (fun k => { k with idx := w.toNat % 1024 })
  | .tenant => hart (fun h => match (s.ctxOf a).origin with
      | .loader _ => h
      | .none | .member _ _ _ _ | .message _ | .firmware => { h with tenant := w.setWidth 6 })
  | .mrbase => hart (fun h => { h with mrbase := w.extractLsb' 11 21 })
  | .mrtail => hart (fun h => if (h.headM + 128 - w.toNat % 128) % 128 ≤ 64 then { h with tailM := w.toNat % 128 } else h)
  | .slcsel => hart (fun h => { h with slcsel := w.setWidth 6 })
  | .slcctl => .done (s.writeSlcctl a w)
  | .slclo => .done (s.writeBound a (fun x => { x with lo := w.setWidth 21 }))
  | .slchi => .done (s.writeBound a (fun x => { x with hi := w.setWidth 21 }))
  | .slcidx => slice (fun x => { x with idxR := w.toNat % 1024 })
  | .tlbva => hart (fun h => { h with tlbva := w.setWidth 27 })
  | .tlbinv => hart (fun h => h.writeTlbinv w)
  | .time | .timeh | .ctxname | .vlanes | .mcap | .switchat | .switchath | .modnum | .astore | .instant | .instanth | .live => .done s
  | .liveh | .vseq | .viter | .mopaddr | .tracedat _ | .mrhead | .slcdat _ => .done s

/-- A write by number (06 R147). A program writes TVEC only while it holds zero (06 R152). -/
def State.writeReg (s : State) (a : AgentId) (kernel : Bool) (n : Nat) (w : Word) : RegWrite :=
  match sysReg? a n with
  | none => .unassigned
  | some r =>
    if (r.kernelWrite a && !kernel) || (r = .tvec && !kernel && (s.ctxOf a).tvec ≠ 0) then .denied
    else s.regSet a kernel r w

/-! ### SRR and SRW -/

/-- SRR (06 R147). -/
def execSrr (a : XReg) (reg : BitVec 12) (s : State) : Res :=
  match s.readReg s.cur s.ctx.prv reg.toNat with
  | .value t w => t.done (fun c => c.setX a w)
  | .wait => s.waits .interlock
  | .unassigned => s.illegal 9
  | .denied => s.privTrap reg.toNat

/-- SRW (06 R147): the group completes, and the write is in force for the next group. -/
def execSrw (a : XReg) (reg : BitVec 12) (s : State) : Res :=
  let w := s.ctx.getX a
  match s.writeReg s.cur s.ctx.prv reg.toNat w with
  | .unassigned => s.illegal 9
  | .denied => s.privTrap reg.toNat
  | .domain k => s.trap Cause.domain (k.setWidth 32)
  | .wait => s.waits .interlock
  | .done _ =>
    match (s.complete id).writeReg s.cur s.ctx.prv reg.toNat w with
    | .done t => .next t
    | .wait | .domain _ | .unassigned | .denied => s.done id

/-! ### Events that are accesses of the context in issue -/

/-- A write that is no group of its own. -/
def State.writes (s : State) (reg : Nat) (w : Word) : Res :=
  match s.writeReg s.cur s.ctx.prv reg w with
  | .done t => .next t
  | .wait => s.waits .interlock
  | .domain k => s.trap Cause.domain (k.setWidth 32)
  | .unassigned => s.illegal 9
  | .denied => s.privTrap reg

/-- A read that is no group of its own. -/
def State.reads (s : State) (a : XReg) (reg : Nat) : Res :=
  match s.readReg s.cur s.ctx.prv reg with
  | .value t w => .next (t.updOf s.cur (fun c => c.setX a w))
  | .wait => s.waits .interlock
  | .unassigned => s.illegal 9
  | .denied => s.privTrap reg

/-- MCHAIN_CANCEL (11 R305, R325): the write of MCHAIN with CANCEL set. -/
def execMchainCancel (s : State) : Res := s.writes 0x03B 0x40000000
/-- TVEC_WRITE (06 R152). -/
def execTvecWrite (value : Word) (s : State) : Res := s.writes 0x004 value
/-- DOM_WRITE (15 R415): the write of DOMk by the context in issue; PRIV at program privilege (02 R31). -/
def execDomWrite (k : BitVec 2) (value : Word) (s : State) : Res := s.writes (0x028 + k.toNat) value
/-- REGISTER_WRITE (00 R5, R6). -/
def execRegisterWrite (reg : BitVec 12) (value : Word) (s : State) : Res := s.writes reg.toNat value
/-- JOURNAL_CLEAR (12 R352): a write of JOURNAL that selects part 0 of the entry with CLR. -/
def execJournalClear (entry : BitVec 4) (s : State) : Res := s.writes 0x041 (BitVec.ofNat 32 (0x100 + entry.toNat))
/-- TRACE_UNFREEZE (18 R494). -/
def execTraceUnfreeze (s : State) : Res := s.writes 0x380 0x80000000
/-- TRACEDAT3_READ (18 R494). -/
def execTracedat3Read (a : XReg) (s : State) : Res := s.reads a 0x385
/-- SLICE_TRACE_ENABLE (22 R543). -/
def execSliceTraceEnable (value : Word) (s : State) : Res := s.writes 0x411 value
/-- SLCDAT3_READ (22 R543). -/
def execSlcdat3Read (a : XReg) (s : State) : Res := s.reads a 0x418
/-- TLB_INVALIDATE (22 R544). -/
def execTlbInvalidate (value : Word) (s : State) : Res := s.writes 0x421 value

/-- Every context of a tenant, the switched-out ones among them, has no unacknowledged accumulate and an empty residual tile (12 R356). -/
def State.settledAccs (s : State) (tenant : Nat) : Bool :=
  s.ctxs.all (fun p => s.tenantOf p.1 ≠ tenant || s.flushed p.1) &&
    s.switches.all (fun w => w.2.accs.all (fun m => m.tenant ≠ tenant) &&
      w.2.ctxs.all (fun x => x.ctx.tenant ≠ tenant || x.ctx.out = 0))

/-- TLB_INVALIDATE_DONE (22 R544): the translations are gone from every memory core, and BUSY clears. -/
def execTlbInvalidateDone (ag : AgentId) (s : State) : Res :=
  match (s.hartOf ag).tlbBusy with
  | none => .next s
  | some (t, page) =>
    if s.settledAccs t then
      let keep (e : Nat × Nat × Nat × Nat) : Bool := !(e.1 = t && (page = none || page = some e.2.1))
      let s := { s with harts := s.harts.map (fun (p : AgentId × HartRegs) => (p.1, { p.2 with tcache := p.2.tcache.filter keep })) }
      .next (s.updHart ag (fun h => { h with tlbBusy := none }))
    else .next s

end Sys2Proof.Machine
end

