-- ==== Sys2Proof/Machine/Switch.lean ====
section
/-!
DEFINITION. Machine/Switch.lean: gang switches, their save areas, and the teardown of host queues (18 R476-R491; 22 R527).
-/
namespace Sys2Proof.Machine

/-! ### Switch sets (18 R476) -/

/-- A context belongs to a switch set: to its team, or to a cluster of its partition. Harts are never switched. -/
def Switch.has (w : Switch) (s : State) (a : AgentId) (o : Origin) : Bool :=
  match w.team with
  | some (q, lid, n) => o.ofTeam q lid n
  | none =>
    match a with
    | .core st c _ _ => s.clusterTenant st c = some w.tenant
    | _ => false

/-- The live contexts of a switch set. -/
def State.setCtxs (s : State) (w : Switch) : List AgentId :=
  (s.ctxs.filter (fun p => p.2.phase = .live && w.has s p.1 p.2.origin)).map (·.1)

def State.updSwitch (s : State) (set : Nat) (f : Switch → Switch) : State :=
  { s with switches := s.switches.map (fun p => if p.1 = set then (p.1, f p.2) else p) }

/-- A partition switch, before anything is saved. -/
def Switch.new (tenant stop resume : Nat) : Switch :=
  { tenant := tenant, team := none, stop := stop, resume := resume, phase := .scheduled, due := true, sealNo := 0, ctxs := [], cores := []
    units := [], memory := [], mesh := [], accs := [], areas := [] }

/-- The context belongs to a team that is being swapped, whose stop time it keeps. -/
def State.swapping (s : State) (a : AgentId) (o : Origin) : Bool := s.switches.any (fun p => p.2.team.isSome && p.2.has s a o)

/-- The stop time as contexts read it in SWITCHAT, those that are yet to start among them. -/
def State.setStops (s : State) (w : Switch) (stop : BitVec 64) : State :=
  { s with ctxs := s.ctxs.map (fun p =>
      if w.has s p.1 p.2.origin && p.2.phase ≠ .idle && !s.swapping p.1 p.2.origin then (p.1, { p.2 with switchat := stop }) else p) }

/-- SWITCH_SCHEDULE (18 R476): the trusted monitor schedules a partition switch, or changes one whose stop time has not come. All ones is
no switch. -/
def execSwitchSchedule (tenant : Nat) (stop resume : BitVec 64) (s : State) : Res :=
  let w := Switch.new tenant stop.toNat resume.toNat
  let open_ : Bool := match lookup? s.switches tenant with
    | some old => old.phase = .scheduled && s.time.toNat < old.stop
    | none => true
  if 64 ≤ tenant ∨ (lookup? s.partitions tenant).isNone ∨ !open_ then .next s
  else
    let s := s.setStops w stop
    if stop = BitVec.allOnes 64 then .next { s with switches := erase s.switches tenant }
    else .next { s with switches := assign s.switches tenant w }

/-! ### Stopping and settling (18 R477-R480) -/

/-- Every member that may stop does, once its core's TIME is at least the stop time (01 R21, 18 R477); a stopped member's tile is flushed with
must-accept messages (16 R455). -/
def State.stopSet (s : State) (w : Switch) : State :=
  ((s.setCtxs w).filter (fun a => w.stop ≤ (s.coreClock a).toNat)).foldl (fun s a =>
    let c := s.ctxOf a
    let s := if !c.stopped && c.retiring.isNone && c.stoppable then s.stopCtx a else s
    if (s.ctxOf a).stopped then (s.finishBegun a).flushTile a else s) s

/-- A bell message of the set has not reached its bell (18 R478). -/
def State.ringing (s : State) (w : Switch) : Bool :=
  s.mesh.any (fun m =>
    match m with
    | .ring a b _ _ => w.has s a (s.ctxOf a).origin || (w.team = none && w.has s b .none)
    | _ => false)

/-- What a stopped member still waits for before it may be saved: acknowledgments of its stores and accumulates, the tile operation in
service for it, a ring step in which its core takes part, and the vector entries and rows of copy jobs in progress (18 R478). Spilled accumulates of a partition stay outstanding (18 R479). -/
def State.memberSettled (s : State) (w : Switch) (a : AgentId) : Bool :=
  let c := s.ctxOf a
  c.stopped && c.retiring.isNone && !s.unacked a && s.resv a = 0 &&
    !s.accs.any (fun m => m.owner = a && (m.must || m.dir = .ack || w.team.isSome)) && (w.team = none || c.contribsOut = 0) &&
    !(s.head? a).any (fun m => m.ctx = a && ((s.unitOf a).service = some (coreKey a) || m.early ≠ [])) && !(s.member (coreKey a) && (s.members a).all s.ringReady) &&
    !(s.coreOf a).seq.any (fun i => i.ctx = a && i.begun) && !(s.jobsOf a).any (fun j => j.ctx = a && j.parts ≠ [])

/-- A team of the partition is being loaded or swapped: that ends before the save of the partition. -/
def State.loadingIn (s : State) (w : Switch) : Bool :=
  w.team = none && (s.switches.any (fun p => p.2.team.isSome && p.2.tenant = w.tenant && p.2.phase ≠ .saved)) || w.team = none && s.launches.any (fun l => l.teams.any (fun t =>
    t.phase = .loading && s.clusterTenant t.site.stack t.site.cluster = some w.tenant))

/-- Every context of the set has stopped and its work has settled (18 R480). -/
def State.setSettled (s : State) (w : Switch) : Bool :=
  (s.setCtxs w).all (s.memberSettled w) && !s.ringing w && !s.loadingIn w

/-- Names of the two ends of what travels in the mesh. -/
def Mesh.ends : Mesh → List Word
  | .request r => [r.src, r.dst]
  | .withdraw a b => [a, b]
  | .outcome d p _ _ _ _ => [d, p]
  | .msg a b _ _ _ _ _ => [a, b]
  | .credit a b _ => [a, b]
  | .close a b _ _ _ _ => [a, b]
  | .moved a b _ _ _ => [a, b]
  | .movedStub d _ _ => [d]
  | .release a b _ => [a, b]
  | .contribution a _ d _ _ _ _ => [ctxName a, d]
  | .ring _ _ _ _ => []
  | .away _ _ m => m.ends

/-- A message of the partition (18 R479): one of its ends lies there. -/
def State.spills (s : State) (w : Switch) (m : Mesh) : Bool :=
  m.ends.any (fun n =>
    match agentOfName n with
    | some a => w.has s a .none
    | none => false)

/-- Routers and link engines move the partition's messages to their spill buffers (18 R479); in a team swap nothing is spilled. -/
def State.spill (s : State) (set : Nat) (w : Switch) : State :=
  if w.team.isSome then s
  else
    let mine (m : Acc) : Bool := w.has s m.owner .none
    { s with mesh := s.mesh.filter (fun m => !s.spills w m), accs := s.accs.filter (fun m => !mine m) }.updSwitch set (fun x => { x with
      mesh := s.mesh.filter (s.spills w), accs := s.accs.filter mine })

/-- SWITCH_STOP (18 R477-R480): from the stop time on, members stop and their work settles; then messages are spilled. -/
def execSwitchStop (set : Nat) (s : State) : Res :=
  match lookup? s.switches set with
  | none => .next s
  | some w =>
    if w.phase ≠ .scheduled then .next s
    else
      let s := s.stopSet w
      if w.stop ≤ s.time.toNat ∧ s.setSettled w then .next ((s.spill set w).updSwitch set (fun w => { w with phase := .settled })) else .next s

/-! ### Save areas (18 R481-R485) -/

/-- A section: its kind, owner and bytes. -/
structure SaveSection where
  kind : Nat
  owner : Nat
  bytes : List Byte
  deriving DecidableEq, Repr

/-- Bytes that the save engine's firmware defines (18 R483, R484; log 15). -/
def interior (kind owner from_ n : Nat) : List Byte := (List.range n).map (fun i => Config.saveInterior kind owner (from_ + i))

/-- Words as bytes, cut or filled with zeros to `n` bytes. -/
def wordField (n : Nat) (ws : List Word) : List Byte :=
  let bs := (ws.flatMap wordBytes4).take n
  bs ++ List.replicate (n - bs.length) 0

/-- The system registers of a context in its record (18 R484), with its PC. -/
def State.savedRegs (s : State) (a : AgentId) : List Word :=
  let c := s.ctxOf a
  let read (l : List SysReg) : List Word := l.map (fun r => (s.regValue a r).2)
  read [.ctxstat, .epc, .cause, .tval, .tvec] ++ [c.timeh, c.insth, c.swh, c.ptimeh, c.pinsth, c.pswh] ++
    read [.fpcsr, .rcsr, .dom 0, .dom 1, .dom 2, .dom 3, .decl, .declh, .live, .liveh, .vlanes, .vl, .mfmt, .mrowmask, .mchain, .mopaddr,
      .msatc, .chbuf, .accstat, .tracectl, .slips, .icmiss, .lcnt, .lstart, .lend, .lrem, .kscr0, .kscr1] ++
    [c.pc.setWidth 32, (c.pc.extractLsb' 32 16).setWidth 32]

/-- The pending traps of a context, as pairs of CAUSE and TVAL (18 R474, R484). -/
def State.pendingTraps (s : State) (a : AgentId) : List Word :=
  let c := s.ctxOf a
  let one (code : BitVec 8) (t : Option Word) : List Word := match t with
    | some w => [code.setWidth 32, w]
    | none => []
  one Cause.matrixOperand c.operandTrap ++ one Cause.watchdog c.watchdog ++
    one Cause.postedRefused ((s.refusalDue a).map (BitVec.ofNat 32)) ++ c.jobFaults.flatMap (fun j => one Cause.jobFault (some (j.setWidth 32))) ++
    one Cause.causality c.causality ++ one Cause.matrixNan c.nanRecord

/-- A CONTEXT record (18 R484): the interior of endpoint, stream, journal and queue entries is firmware's. The order of the registers
within their 256 bytes, of CUR and NXT within their 64, and of VSEQ, VITER and the sequencer entries, is log 15's. -/
def State.contextRecord (s : State) (x : SavedCtx) : List Byte :=
  let no := agentNo x.ag
  let c := x.ctx
  let regs (v : List Word) : List Byte := v.flatMap wordBytes4
  regs c.x.toList ++ regs c.f.toList ++ wordField 0x100 (s.savedRegs x.ag) ++ regs (c.dcur.toList ++ c.dnxt.toList) ++
    interior 1 no 0x240 0x4C0 ++ regs (c.windows.toList.flatMap (fun w => [w.w0, w.w1, w.w2, w.w3])) ++ interior 1 no 0x780 0x100 ++
    wordField 0x40 (s.pendingTraps x.ag) ++ interior 1 no 0x8C0 0x80 ++ regs [(s.vseq x.ag).1, (s.vseq x.ag).2] ++
    interior 1 no 0x948 0x238 ++ List.replicate 0x480 0 ++
    regs (c.v.toList.flatMap (fun v => (keepLanes (max c.count c.owed) v).toList))

/-- A section whose interior firmware defines, at most `top` bytes. -/
def opaqueSection (kind owner top : Nat) : SaveSection := ⟨kind, owner, interior kind owner 0 (min (Config.sectionSize kind) top)⟩

/-- Contents padded to whole blocks of 64 bytes. -/
def padBlock (bs : List Byte) : List Byte := bs ++ List.replicate ((bs.length + 63) / 64 * 64 - bs.length) 0

/-- Directory entries, with the offset at which the first of the sections lies. -/
def directory : Nat → List SaveSection → List Byte
  | _, [] => []
  | off, x :: rest =>
    bytesOf (x.kind * 2 ^ 24 + x.owner) 4 ++ bytesOf off 4 ++ bytesOf x.bytes.length 4 ++ bytesOf 0 4 ++
      directory (off + (padBlock x.bytes).length) rest

/-- A save area (18 R483). -/
def saveArea (w : Switch) (sealNo : Nat) (sections : List SaveSection) : List Byte :=
  let lid := match w.team with
    | some (_, lid, _) => lid.toNat
    | none => 0
  let team := match w.team with
    | some (_, _, n) => n
    | none => 0
  let header := bytesOf (9 * 2 ^ 24 + bit w.team.isSome * 2 ^ 16 + sections.length) 4 ++ bytesOf lid 4 ++ bytesOf w.stop 8 ++
    bytesOf (team % 2 ^ 24) 4 ++ bytesOf sealNo 4 ++ List.replicate 40 0
  let first := (64 + 16 * sections.length + 63) / 64 * 64
  padBlock (header ++ directory first sections) ++ sections.flatMap (fun x => padBlock x.bytes)

/-- A stretch of memory with its bytes. -/
def State.image (s : State) (flat n : Nat) : Nat × List Byte := (flat, s.bytesAt flat n)

/-- The memory of a cluster, in the order of its sections: TCMs, scratchpad, C tiles. -/
def State.clusterImages (s : State) (st c : Nat) : List (Nat × List Byte) :=
  (List.range 8).map (fun k => s.image (tcmAt st c k 0) 0x20000) ++ [s.image (scratchAt st c 0) 0x40000, s.image (matrixAt st c 0) 0x20000]

/-- The memory of a seat: the allocation, the channel buffer region and the residual tile. -/
def State.seatImages (s : State) (p : Seat) : List (Nat × List Byte) :=
  [s.image (ownTcmAt p.ctx (p.tcmBase * 1024)) (p.tcmSize * 1024), s.image (ownTcmAt p.ctx (p.bufBase * 1024)) (p.bufSize * 1024),
   s.image (tileBase p.ctx) 0x400]

/-- The sections of contexts. -/
def State.ctxSections (s : State) (l : List SavedCtx) : List SaveSection := l.map (fun x => ⟨1, agentNo x.ag, s.contextRecord x⟩)

def bytesIn (l : List (Nat × List Byte)) : List Byte := l.flatMap (·.2)

/-- What the MATRIX section of a cluster holds after the C tiles, in 16,384 bytes: the latches with their widths, the saturation counters,
MRSET, MGATE, the MWEIGHT of each core and the queues, whose entries' interior is firmware's (18 R483, R484). The order is log 15's. -/
def State.matrixState (s : State) (st c : Nat) : List Byte :=
  let u := AgentId.core st c 0 0
  let cores := (List.range 8).map (fun k => s.coreOf (.core st c k 0))
  let latch (k : Core) : List Byte := bytesOf k.latchWidth 4 ++ k.latch.take 1056 ++ List.replicate (1056 - k.latch.length) 0
  let count (t : Nat) : List Byte :=
    let n := lookupD (0, false) (s.unitOf u).satc t
    bytesOf (bit n.2 * 2 ^ 16 + n.1) 4
  cores.flatMap latch ++ (List.range 32).flatMap count ++ wordField 8 [(s.regValue u .mrset).2, (s.regValue u .mgate).2] ++
    cores.flatMap (fun k => bytesOf k.mweight 4) ++ interior 4 (clusterNo st c) 0x221C8 7736

/-- The MATRIX section of a cluster. -/
def State.matrixSection (s : State) (st c : Nat) : SaveSection :=
  ⟨4, clusterNo st c, (s.image (matrixAt st c 0) 0x20000).2 ++ s.matrixState st c⟩

/-! ### Spilled messages (18 R479, R481, R483) -/

/-- A router on a route between two stacks, by its module cluster number: the n-th draw chooses which (01 R11; log 1). -/
def routerOn (a b n : Nat) : Nat :=
  let r := stackRoute a b
  clusterNo (r.getD (Config.choice n % r.length) a) (Config.choice (n + 1) % 1280)

/-- Who spills a message: a router on its route, or the link engine of the port by which it leaves the module, as 0x80_0000 + port. -/
def Mesh.spiller (m : Mesh) (n : Nat) : Nat :=
  let inside : Nat := match m.ends.filterMap agentOfName with
    | a :: b :: _ => routerOn (stackOf a) (stackOf b) n
    | [a] => routerOn (stackOf a) (stackOf a) n
    | [] => 0
  match m with
  | .away _ (some p) _ => if Config.choice (n + 2) % 2 = 0 then 0x800000 + p else inside
  | _ => inside

/-- The same for an accumulate, a refusal or an acknowledgment, which travels between its owner and its home slice. -/
def Acc.spiller (m : Acc) (n : Nat) : Nat := routerOn (stackOf m.owner) m.stack n

/-- Who spilled the messages of a set, each once; `n` numbers the draws. -/
def Switch.spillers (w : Switch) (n : Nat) : List Nat :=
  (w.mesh.zipIdx.map (fun m => m.1.spiller (n + 3 * m.2)) ++ w.accs.zipIdx.map (fun m => m.1.spiller (n + 3 * (w.mesh.length + m.2)))).eraseDups

/-- The SPILL sections of given routers and link engines. -/
def spillSections (l : List Nat) : List SaveSection :=
  l.map (fun o => opaqueSection 7 o (if o < 0x800000 then 16384 else 32768))

/-- Every n-th of a list, from the i-th. -/
def shareOf {α : Type} (l : List α) (n i : Nat) : List α := (l.zipIdx.filter (fun x => x.2 % n = i)).map (·.1)

/-- Sections in lots of at most 255, which is what NSECT counts to: those beyond stand in a further area (18 R483; log 15). -/
def inLots (l : List SaveSection) : List (List SaveSection) :=
  (List.range ((l.length + 254) / 255)).map (fun i => (l.drop (255 * i)).take 255)

/-- The sections for one cluster of a partition switch; the domains and the spills of the set are spread over its clusters. -/
def State.clusterSections (s : State) (l : List SavedCtx) (doms spills : List Nat) (st c : Nat) : List SaveSection :=
  let mine := l.filter (fun x => unitKey x.ag = .core st c 0 0)
  s.ctxSections mine ++ (List.range 8).map (fun k => ⟨2, coreNo st c k, s.bytesAt (tcmAt st c k 0) 0x20000⟩) ++
    [⟨3, clusterNo st c, s.bytesAt (scratchAt st c 0) 0x40000⟩, s.matrixSection st c, opaqueSection 5 (clusterNo st c) 0x100000] ++
    doms.map (fun d => opaqueSection 6 d 0x10000) ++ spillSections spills

/-- The area of a team swap (18 R485). -/
def State.teamSections (s : State) (l : List SavedCtx) (site : Site) (alone : Bool) : List SaveSection :=
  let core (a : AgentId) : Nat := match a with
    | .core st c k _ => coreNo st c k
    | _ => 0
  s.ctxSections l ++ site.seats.map (fun p => ⟨2, core p.ctx, bytesIn (s.seatImages p)⟩) ++
    (if site.scrSize = 0 then [] else
      [⟨3, clusterNo site.stack site.cluster, s.bytesAt (scratchAt site.stack site.cluster (site.scrBase * 1024)) (site.scrSize * 1024)⟩]) ++
    (if alone then [s.matrixSection site.stack site.cluster] else [])

/-- The lowest multiple of 64 in the pool at which an area of `n` bytes lies clear of the tenant's other areas. -/
def freeArea (taken : List (Nat × Nat)) (base size n : Nat) : Option Nat :=
  let free (a : Nat) : Bool := a % 64 = 0 && base ≤ a && a + n ≤ base + size && !taken.any (fun t => t.1 < a + n && a < t.1 + t.2)
  (base :: taken.map (fun t => (t.1 + t.2 + 63) / 64 * 64)).foldl (fun (best : Option Nat) a =>
    if !free a then best
    else
      match best with
      | none => some a
      | some b => some (min a b)) none

/-- Places for areas in a pool, one after the other. -/
def placeAreas (base size : Nat) (taken : List (Nat × Nat)) : List (List Byte) → Option (List (Nat × List Byte))
  | [] => some []
  | x :: rest =>
    match freeArea taken base size x.length with
    | none => none
    | some a => (placeAreas base size ((a, x.length) :: taken) rest).map (fun l => (a, x) :: l)

/-- Areas of a tenant, as physical addresses and sizes. -/
def State.areasOf (s : State) (tenant : Nat) : List (Nat × Nat) :=
  (s.switches.filter (fun p => p.2.tenant = tenant)).flatMap (fun p => p.2.areas.map (fun x => (x.1, x.2.length)))

/-- Store bytes at a physical address, over at most `pages` rows of 2 MiB (12 R354). -/
def State.storePa (s : State) : Nat → Nat → List Byte → State
  | 0, _, _ => s
  | pages + 1, pa, bs =>
    let k := 2 ^ 21 - pa % 2 ^ 21
    if bs = [] then s else (s.storeBytes (paAt pa) (bs.take k)).storePa pages (pa + k) (bs.drop k)

/-- The bytes at a physical address equal those recorded, and none holds an uncorrectable error. -/
def State.samePa (s : State) : Nat → Nat → List Byte → Bool
  | 0, _, bs => bs = []
  | pages + 1, pa, bs =>
    let k := 2 ^ 21 - pa % 2 ^ 21
    let part := bs.take k
    if bs = [] then true
    else !s.hasBad (paAt pa) part.length && s.bytesAt (paAt pa) part.length = part && s.samePa pages (pa + k) (bs.drop k)

/-- The stack of a byte of cluster memory, shared SRAM or DRAM. -/
def stackOfByte (a : Nat) : Nat :=
  let o := a % 2 ^ 44
  match a / 2 ^ 44 with
  | 0 => o / 0x100000 / 1280
  | 1 => o / 0x40000 / 1280
  | 2 => o / 0x20000 / 1280
  | 3 => o / 0x180000 / 64
  | _ => o / 2 ^ 36

/-- A context save engine reads bytes, on behalf of no context: single-bit errors are corrected, others reported (12 R371, R372). -/
def State.engineReads (s : State) (flat n : Nat) : State :=
  if s.eccBad = [] ∧ s.eccOne = [] then s
  else
    (s.eccBad.filter (fun w => eccWord flat ≤ w && w < flat + n)).foldl (fun s w => s.report (stackOfByte w) 0xFFFFF w) (s.correct flat n)

/-- The same at a physical address, over at most `pages` rows. -/
def State.readPa (s : State) : Nat → Nat → Nat → State
  | 0, _, _ => s
  | pages + 1, pa, n =>
    let k := 2 ^ 21 - pa % 2 ^ 21
    if n = 0 then s else (s.engineReads (paAt pa) (min n k)).readPa pages (pa + k) (n - k)

/-- Pages that bytes at an address may touch. -/
def pagesFor (bs : List Byte) : Nat := bs.length / 2 ^ 21 + 2

/-! ### Saving (18 R481, R485) -/

/-- The name under which a swapped-out context keeps its mutexes, so that the team that follows on its site does not own them (18 R485). -/
def parked (a : AgentId) (set : Nat) : AgentId :=
  match a with
  | .core s c k x => .core s c k (x + 4 * set)
  | b => b

/-- Rename owners of mutexes. -/
def Cluster.renameOwners (u : Cluster) (f : AgentId → AgentId) : Cluster :=
  { u with mutexes := u.mutexes.map (fun m => (m.1, { m.2 with owner := m.2.owner.map f })) }

/-- What a core holds for given contexts, and what is left. -/
def Core.partFor (k : Core) (l : List AgentId) : Core :=
  { k with
    journal := k.journal.filter (fun p => l.contains p.2.ctx), seq := k.seq.filter (fun e => l.contains e.ctx)
    mqueue := k.mqueue.filter (fun m => l.contains m.ctx) }
def Core.without (k : Core) (key : AgentId) (l : List AgentId) : Core :=
  { k with
    journal := k.journal.filter (fun p => !l.contains p.2.ctx), seq := k.seq.filter (fun e => !l.contains e.ctx)
    mqueue := k.mqueue.filter (fun m => !l.contains m.ctx)
    loopBuf := match k.loopBuf with
      | some b => if l.any (fun a => coreKey a = key && ctxIndex a = b.holder) then none else some b
      | none => none }

/-- The cores of contexts, each once. -/
def coresOf (l : List AgentId) : List AgentId := (l.map coreKey).eraseDups

/-- A context whose state has been saved: its registers are vacant, its endpoint registers have generations that no saved name has. -/
def Ctx.vacate (c : Ctx) (p : Phase) : Ctx :=
  { Ctx.reset with
    phase := p, tenant := c.tenant, sizek := c.sizek, basek := c.basek
    eps := c.eps.map (fun e => { Ep.reset with gen := e.gen + 1 }) }

/-- Clusters of a partition on all stacks. -/
def State.setClusters (s : State) (w : Switch) : List (Nat × Nat) := s.allClusters w.tenant

/-- A cluster or a core at rest, with what no switch saves or clears. -/
def Core.vacant (k : Core) : Core :=
  { Core.reset with
    trace := k.trace, frozen := k.frozen, trigd := k.trigd, left := k.left, head := k.head, idx := k.idx, jseq := k.jseq }

/-- Save a partition. -/
def State.savePartition (s : State) (set : Nat) (w : Switch) (l : List SavedCtx) (areas : List (Nat × List Byte)) : State :=
  let cs := s.setClusters w
  let inSet (a : AgentId) : Bool := w.has s a .none
  let t : State := { s with
    cores := s.cores.map (fun p => if inSet p.1 then (p.1, p.2.vacant) else p)
    units := s.units.map (fun p => if inSet p.1 then (p.1, Cluster.reset) else p) }
  let t := l.foldl (fun (t : State) x => t.setCtxOf x.ag (x.ctx.vacate .saved)) t
  t.updSwitch set (fun x => { x with
    phase := .saved, sealNo := BitVec.ofNat 32 s.order, ctxs := l, areas := areas
    cores := s.cores.filter (fun p => inSet p.1), units := s.units.filter (fun p => inSet p.1)
    memory := cs.flatMap (fun c => s.clusterImages c.1 c.2) })

/-- Slots that only the given contexts' endpoints use. -/
def State.slotsOf (s : State) (l : List SavedCtx) (u : AgentId) : List Nat :=
  let mine := l.flatMap (fun x => x.ctx.eps.toList.filterMap (·.slot))
  let others := (s.ctxs.filter (fun p => unitKey p.1 = unitKey u && p.2.phase = .live && !l.any (fun x => x.ag = p.1))).flatMap
    (fun p => p.2.eps.toList.filterMap (·.slot))
  mine.filter (fun n => !others.contains n)

/-- The memory that a team swap saves (18 R485). -/
def State.teamImages (s : State) (site : Site) (alone : Bool) : List (Nat × List Byte) :=
  site.seats.flatMap s.seatImages ++
    (if site.scrSize = 0 then [] else [s.image (scratchAt site.stack site.cluster (site.scrBase * 1024)) (site.scrSize * 1024)]) ++
    (if alone then [s.image (matrixAt site.stack site.cluster 0) 0x20000] else [])

/-- Save a team: its contexts, their slots and copy jobs, and the matrix state of a cluster that it holds alone. The cluster keeps that matrix
state, and all else, but for the slots (18 R485). -/
def State.saveTeam (s : State) (set : Nat) (l : List SavedCtx) (site : Site) (alone : Bool) (areas : List (Nat × List Byte)) : State :=
  let u := AgentId.core site.stack site.cluster 0 0
  let ags := l.map (·.ag)
  let slots := s.slotsOf l u
  let x := s.unitOf u
  let part : Cluster := { Cluster.reset with
    slots := x.slots.filter (fun p => slots.contains p.1), jobs := x.jobs.filter (fun j => ags.contains j.ctx)
    gated := x.gated, mgateIdle := x.mgateIdle, lastUse := x.lastUse, satc := x.satc, mrset := x.mrset }
  let rest := { x with slots := x.slots.filter (fun p => !slots.contains p.1), jobs := x.jobs.filter (fun j => !ags.contains j.ctx) }
  let rest := rest.renameOwners (fun a => if ags.contains a then parked a set else a)
  let cores := (if alone then (List.range 8).map (fun k => AgentId.core site.stack site.cluster k 0) else coresOf ags).map (fun a =>
    (a, (s.coreOf a).partFor ags))
  let t := s.setUnitOf u rest
  let t := cores.foldl (fun t p => t.updCore p.1 (fun k => k.without p.1 ags)) t
  let seated (a : AgentId) : Bool := site.seats.any (fun p => p.ctx = a)
  let t := l.foldl (fun t x => t.setCtxOf x.ag (x.ctx.vacate (if seated x.ag then .reserved else .saved))) t
  t.updSwitch set (fun y => { y with
    phase := .saved, sealNo := BitVec.ofNat 32 s.order, ctxs := l, areas := areas, cores := cores, units := [(u, part)], memory := s.teamImages site alone })

/-- Members go on where they stopped, with the stop time of a switch of their partition that is scheduled. -/
def State.goOn (s : State) (w : Switch) (l : List AgentId) : State :=
  l.foldl (fun s a => s.updOf a (fun c => { c with stopped := false, switchat := s.stopTime w.tenant })) s

/-- All members go on, and the switch is over. -/
def State.resumeSet (s : State) (set : Nat) (w : Switch) : State :=
  let s := s.goOn w (s.setCtxs w)
  { s with switches := erase s.switches set }

/-- A context as it is recorded: an element that holds an uncorrectable error is recorded as it reads (12 R372; the spec does not say what a
save makes of it: log 46). -/
def State.recorded (s : State) (a : AgentId) : Ctx :=
  if s.eccBad = [] then s.ctxOf a
  else { s.ctxOf a with v := Vector.ofFn (fun r => Vector.ofFn (fun i => s.lane a (BitVec.ofNat 5 r.val) i.val)) }

/-- The records of the contexts of a set, by module context number. -/
def State.records (s : State) (w : Switch) : List SavedCtx := (sortAgents (s.setCtxs w)).map (fun a => ⟨a, s.recorded a⟩)

/-- The reads that a save makes: the vector registers of its contexts, and the images of memory (12 R371, R372). -/
def State.saveReads (s : State) (l : List SavedCtx) (images : List (Nat × List Byte)) : State :=
  if s.eccBad = [] ∧ s.eccOne = [] then s
  else
    let s := l.foldl (fun s x => s.noteReads x.ag ((List.range 32).map (BitVec.ofNat 5))) s
    images.foldl (fun s x => s.engineReads x.1 x.2.length) s

/-- Domain IDs of a partition that exist, of which the area of the i-th of n clusters takes its share. -/
def State.domShare (s : State) (tenant n i : Nat) : List Nat :=
  ((s.domains.filter (fun p => p.2.tenant = tenant)).map (·.1)).filter (fun d => d % n = i)

/-- SAVE (18 R481-R485), all engines' work as one step. A partition for which its save pool has no room stays stopped. -/
def execSave (set : Nat) (s : State) : Res :=
  match lookup? s.switches set with
  | none => .next s
  | some w =>
    match lookup? s.partitions w.tenant with
    | none => .next s
    | some p =>
      if w.phase ≠ .settled ∨ !(s.setCtxs w).all (s.memberSettled w) then .next s
      else
        let l := s.records w
        match w.team with
        | none =>
          let cs := s.setClusters w
          let spillers := w.spillers s.draws
          let bytes := (cs.zipIdx).flatMap (fun c =>
            (inLots (s.clusterSections l (s.domShare w.tenant cs.length c.2) (shareOf spillers cs.length c.2) c.1.1 c.1.2)).map (saveArea w s.order))
          match placeAreas p.poolBase p.poolSize (s.areasOf w.tenant) bytes with
          | none => .next s
          | some areas =>
            let s := s.saveReads l (cs.flatMap (fun c => s.clusterImages c.1 c.2))
            let s := areas.foldl (fun s x => s.storePa (pagesFor x.2) x.1 x.2) s
            .next { s.savePartition set w l areas with order := s.order + 1, draws := s.draws + 3 * (w.mesh.length + w.accs.length) }
        | some (q, lid, n) =>
          match s.launch? q lid with
          | none => .next s
          | some k =>
            match k.team? n with
            | none => .next s
            | some t =>
              let alone := k.scrk = 256
              if t.phase ≠ .running then .next (s.resumeSet set w)
              else
              match placeAreas p.poolBase p.poolSize (s.areasOf w.tenant) [saveArea w s.order (s.teamSections l t.site alone)] with
              | none => .next (s.resumeSet set w)
              | some areas =>
                let s := s.saveReads l (s.teamImages t.site alone)
                let s := areas.foldl (fun s x => s.storePa (pagesFor x.2) x.1 x.2) s
                let s := { s.saveTeam set l t.site alone areas with order := s.order + 1 }
                let s := s.updLaunch q lid (fun k => k.updTeam n (fun t => { t with phase := .saved }))
                .next (s.bringNext q lid (k.siteOf n) n)

/-! ### Restoring (18 R486, R487) -/

/-- The record of a restored context: it waits for the resume time, and for its lanes (10 R254). -/
def Ctx.restored (c : Ctx) : Ctx :=
  { c with owed := max c.owed c.count, count := 0, stopped := true, fetchBuf := [], missed := false, stepping := false }

/-- Journal entries take their numbers again, or the lowest free ones. A restore waits until there is one for each (log 15). -/
def addJournal (j : List (Nat × JEntry)) : List (Nat × JEntry) → List (Nat × JEntry)
  | [] => j
  | p :: rest =>
    let n := if (lookup? j p.1).isNone then p.1 else ((freeEntries j).head?).getD p.1
    addJournal (assign j n p.2) rest

/-- What a core held for saved contexts comes back, behind what it holds. -/
def Core.merge (k x : Core) : Core :=
  { k with journal := addJournal k.journal x.journal, seq := k.seq ++ x.seq, mqueue := k.mqueue ++ x.mqueue }

/-- Put back memories and cluster state. A team's automaton slots come back under their own numbers, which are free (`State.hasRoom`;
log 15). -/
def State.putUnits (s : State) (set : Nat) (w : Switch) (alone : Bool) : State :=
  let s := w.memory.foldl (fun s x => s.storeBytes x.1 x.2) s
  match w.team with
  | none =>
    let s := w.units.foldl (fun s p => s.setUnitOf p.1 { p.2 with lines := [], fills := [], held := none }) s
    w.cores.foldl (fun s p => s.updCore p.1 (fun k => { p.2 with
      trace := k.trace, frozen := k.frozen, trigd := k.trigd, left := k.left, head := k.head, idx := k.idx, loopBuf := none })) s
  | some _ =>
    let back (u x : Cluster) : Cluster :=
      let u := { u with slots := u.slots ++ x.slots, jobs := u.jobs ++ x.jobs }
      let u := if alone then { u with
        held := none, gated := x.gated, mgateIdle := x.mgateIdle, lastUse := x.lastUse, satc := x.satc, mrset := x.mrset } else u
      u.renameOwners (fun a => match w.ctxs.find? (fun y => parked y.ag set = a) with
        | some y => y.ag
        | none => a)
    let s := w.units.foldl (fun s p => s.updUnit p.1 (fun u => back u p.2)) s
    w.cores.foldl (fun s p => s.updCore p.1 (fun k =>
      let k := k.merge p.2
      if alone then { k with latchWidth := p.2.latchWidth, latch := p.2.latch, mweight := p.2.mweight } else k)) s

/-- The save areas are as their engine wrote them. -/
def State.areasIntact (s : State) (w : Switch) : Bool := w.areas.all (fun x => s.samePa (pagesFor x.2) x.1 x.2)

/-- The reads that a restore makes of its save areas. -/
def State.readAreas (s : State) (w : Switch) : State := w.areas.foldl (fun s x => s.readPa (pagesFor x.2) x.1 x.2.length) s

/-- A member that a failed restore leaves to retire: it has no journal, slot or queued work, and its outstanding accumulates come back. -/
def Ctx.lost (c : Ctx) : Ctx :=
  { c with
    phase := .live, stopped := false, flushing := true, retiring := some (.fatal Cause.ecc), contribsOut := 0, wait := .none, inIssue := [], pend := .none
    owed := 0, count := 0, fetchBuf := [], eps := c.eps.map (fun e => { e with slot := none }) }

/-- A restore that fails (18 R486): nothing of the set is restored, and every member retires as by ECC_UNCORRECTABLE, once its spilled
accumulates, which go on, have been performed (16 R454). -/
def State.failRestore (s : State) (set : Nat) (w : Switch) : State :=
  let s : State := { s with switches := erase s.switches set }
  let s : State := { s with units := s.units.map (fun p => (p.1, p.2.renameOwners (fun a =>
    match w.ctxs.find? (fun y => parked y.ag set = a) with
    | some y => y.ag
    | none => a))) }
  let s := match w.team with
    | some (q, lid, n) => s.updLaunch q lid (fun k => k.stands n)
    | none => s
  let s := w.ctxs.foldl (fun s x => s.setCtxOf x.ag x.ctx.lost) s
  { s with accs := w.accs ++ s.accs }

/-- The site of a saved team is vacant. -/
def State.vacantFor (s : State) (w : Switch) : Bool :=
  match w.team with
  | none => true
  | some (q, lid, n) =>
    match s.launch? q lid with
    | none => false
    | some k =>
      match k.team? n with
      | none => false
      | some t => (k.residentAt t.site).isNone && w.ctxs.all (fun x => (s.ctxOf x.ag).phase ≠ .live)

/-- The team holds its cluster alone. -/
def State.switchAlone (s : State) (w : Switch) : Bool :=
  match w.team with
  | none => true
  | some (q, lid, _) =>
    match s.launch? q lid with
    | some k => k.scrk = 256
    | none => false

/-- Every core has free journal entries for the refusal records that come back (12 R350), and the numbers of a team's automaton slots are
free again, which its handles name: the restore waits for both (DESIGN CHOICE: 13 R384 and 18 R485 do not say what happens where a number
was taken meanwhile; log 15). -/
def State.hasRoom (s : State) (w : Switch) : Bool :=
  w.team.isNone || (w.cores.all (fun p => (s.coreOf p.1).journal.length + p.2.journal.length ≤ 16) &&
    w.units.all (fun p => p.2.slots.all (fun x => (lookup? (s.unitOf p.1).slots x.1).isNone)))

/-- RESTORE (18 R486, R487): memories and cluster state, records, lanes; then the spilled messages, ahead of any other. -/
def execRestore (set : Nat) (s : State) : Res :=
  match lookup? s.switches set with
  | none => .next s
  | some w =>
    if w.phase ≠ .saved ∨ !w.due ∨ !s.vacantFor w ∨ !s.hasRoom w ∨ (w.team.isSome && s.frozen w.tenant) then .next s
    else if !s.areasIntact w then .next ((s.readAreas w).failRestore set w)
    else
      let s := s.readAreas w
      let s := s.putUnits set w (s.switchAlone w)
      let s := w.ctxs.foldl (fun s x => s.setCtxOf x.ag x.ctx.restored) s
      let s := (unitsOf (w.ctxs.map (·.ag))).foldl State.serveLanes s
      let s := { s with mesh := w.mesh ++ s.mesh, accs := w.accs ++ s.accs }
      let s := match w.team with
        | some (q, lid, n) => s.updLaunch q lid (fun k => k.stands n)
        | none => s
      .next (s.updSwitch set (fun w => { w with
        phase := .restored, ctxs := [], cores := [], units := [], memory := [], mesh := [], accs := [], areas := [] }))

/-- A stopped member whose core's TIME has not reached the resume time (01 R21). -/
def State.notYet (s : State) (w : Switch) (a : AgentId) : Bool := (s.ctxOf a).stopped && (s.coreClock a).toNat < w.resume

/-- SWITCH_RESUME (18 R487): each context of the set goes on once its core's TIME is at least the resume time; the switch is over when all
have. -/
def execSwitchResume (set : Nat) (s : State) : Res :=
  match lookup? s.switches set with
  | none => .next s
  | some w =>
    if w.phase ≠ .restored then .next s
    else if (s.setCtxs w).any (s.notYet w) ∨ ((s.setCtxs w = []) ∧ s.time.toNat < w.resume) then
      .next (s.goOn w ((s.setCtxs w).filter (fun a => (s.ctxOf a).stopped && !s.notYet w a)))
    else .next (s.resumeSet set w)

/-! ### Teardown of a queue (18 R489-R491, 22 R526, R527) -/

/-- BUSY (22 R526): a teardown is in progress. -/
def State.tearBusy (s : State) : Bool :=
  s.queues.any (fun p =>
    match p.2.life with
    | .tearing _ => true
    | .inUse => false
    | .torn => false)

/-- A launch in flight, by its place in acceptance order, has a status other than DONE (18 R490). -/
def State.depBad (s : State) (order : Nat) : Bool :=
  s.launches.any (fun k => k.order = order && (match k.status with
    | some c => c.status ≠ 1
    | none => false))

/-- The status of a launch at teardown (18 R490; 02 R47). -/
def State.tearStatus (s : State) (l : Launch) : Completion :=
  match s.natural l with
  | some c => c
  | none =>
    if l.depFailed || l.needs.any s.depBad || l.dq.any (fun d => d.lost || d.producer.any s.depBad) then ⟨5, 0⟩
    else if l.firstPlaced.isNone then ⟨3, 0⟩
    else ⟨4, 0⟩

/-- Launches in acceptance order. -/
def insertLaunch (l : Launch) : List Launch → List Launch
  | [] => [l]
  | k :: rest => if l.order < k.order then l :: k :: rest else k :: insertLaunch l rest
def sortLaunches (l : List Launch) : List Launch := l.foldr insertLaunch []

/-- Steps 1 and 2 of a teardown (18 R489): entries and doorbells are discarded, statuses are assigned, no further team is placed. -/
def State.tearDown (s : State) (q : Nat) : State :=
  match lookup? s.queues q with
  | none => s
  | some h =>
    if h.life ≠ .inUse then s
    else
      let s := s.updQueue q (fun h => { h with life := .tearing s.time.toNat, doorbells := [], sqHead := h.sqTail, olds := [], starting := none })
      let mine := (sortLaunches s.launches).filter (fun l => l.q = q)
      let s := mine.foldl (fun s l => let c := s.tearStatus l
                                      s.updLaunch q l.lid (fun l => l.finish c.status c.reason)) s
      mine.foldl (fun s l => (s.unqueue l).dropReserved q l.lid) s

/-- QUEUE_TEARDOWN (22 R526, R527): a write of GO with QNUM, ignored while BUSY. -/
def execQueueTeardown (q : Nat) (s : State) : Res :=
  if s.tearBusy ∨ 1024 ≤ q then .next s else .next ({ s with tdQnum := BitVec.ofNat 10 q }.tearDown q)

/-- A context of a queue is asked to stop, or is already stopped by a switch. -/
def State.tearCtx (s : State) (a : AgentId) : State :=
  let c := s.ctxOf a
  if c.phase ≠ .live ∨ c.retiring.isSome then s
  else if c.stopped then s.updOf a (fun c => { c with retiring := some .stopped })
  else if c.stoppable then s.stopCtx a
  else s

/-- A starting team is stopped (18 R489). -/
def State.tearTeam (s : State) (l : Launch) (t : Team) : State :=
  let s := t.site.seats.foldl (fun s p => (s.leaveDomain p.ctx).updOf p.ctx (fun c => c.leave .reserved)) s
  (s.updLaunch l.q l.lid (fun l => l.updTeam t.index (fun t => { t with phase := .retired, stopped := true }))).freeSeats t.site

/-- Messages that senders hold for a discarded end are dropped; the closure of its channel tells them (18 R491). -/
def State.dropHeld (s : State) (name : Word) : State :=
  (s.ctxs.map (·.1)).foldl (fun s a =>
    (List.range 16).foldl (fun s n =>
      let e := BitVec.ofNat 4 n
      let gone := ((s.ctxOf a).ep e).deferred.filter (fun d => d.1 = name)
      if gone = [] then s
      else
        gone.foldl (fun s d => s.discardEnd d.2.2 5) (s.updEp a e (fun x => { x with deferred := x.deferred.filter (fun d => d.1 ≠ name) }))) s) s

/-- A spilled accumulate of a context that ends while it is switched out is performed at once, and a refusal as a must-accept message (16 R453-R455): nobody is left to
whom it could return. -/
def State.performSpilled (s : State) (m : Acc) : State :=
  let n := s.accs.length
  let arrive (s : State) (m : Acc) : State := ({ s with accs := s.accs ++ [{ m with dir := .toHome }] }).accArrive n { m with dir := .toHome }
  match m.dir with
  | .ack => s
  | .refusal => (arrive s { m with must := true }).dropAcc n
  | .toHome =>
    let t := arrive s m
    match t.accs[n]? with
    | some r => if r.dir = .refusal then (arrive s { m with must := true }).dropAcc n else t.dropAcc n
    | none => t

/-- The saved state of a context is discarded (18 R491): its channels close with TEARDOWN, its mutexes, jobs and slots are released,
and its spilled accumulates are performed. -/
def State.discardSaved (s : State) (set : Nat) (x : SavedCtx) : State :=
  let here := s.ctxOf x.ag
  let names := (List.range 16).map (fun n => (epNameOf x.ag (BitVec.ofNat 4 n) (x.ctx.ep (BitVec.ofNat 4 n)).gen).getD 0)
  let slots := x.ctx.eps.toList.filterMap (·.slot)
  let spilled : List Acc := match lookup? s.switches set with
    | some w => w.accs.filter (fun m => m.owner = x.ag)
    | none => []
  let s := spilled.foldl State.performSpilled s
  let s := s.updSwitch set (fun w => { w with
    ctxs := w.ctxs.filter (fun y => y.ag ≠ x.ag)
    accs := w.accs.filter (fun m => m.owner ≠ x.ag)
    units := w.units.map (fun p => (p.1, { p.2 with
      jobs := p.2.jobs.filter (fun j => j.ctx ≠ x.ag)
      mutexes := p.2.mutexes.map (fun m => if m.2.owner = some x.ag then (m.1, m.2.handOver) else m)
      slots := p.2.slots.filter (fun z => !slots.contains z.1 || (w.ctxs.filter (fun y => y.ag ≠ x.ag && unitKey y.ag = p.1)).any (fun y =>
        y.ctx.eps.toList.any (fun e => e.slot = some z.1))) }))
    cores := w.cores.map (fun p => (p.1, p.2.without p.1 [x.ag])) })
  let s := ((s.setCtxOf x.ag x.ctx).leaveEnds x.ag 5).leaveDomain x.ag
  let s := s.setCtxOf x.ag (if here.phase = .saved then { here with phase := x.ctx.after } else here)
  let s := names.foldl State.dropHeld s
  let s := s.dropMutexes (parked x.ag set)
  s.countEnd x.ag x.ctx.origin x.ctx.child .stopped

/-- Discard what is saved for some contexts; a team swap with nothing left is over. -/
def State.discardIf (s : State) (f : Ctx → Bool) : State :=
  let s := s.switches.foldl (fun s p => (p.2.ctxs.filter (fun x => f x.ctx)).foldl (fun s x => s.discardSaved p.1 x) s) s
  { s with switches := s.switches.filter (fun p => !(p.2.team.isSome && p.2.phase = .saved && p.2.ctxs = [])) }

/-- Discard what is saved for the contexts of a queue, or for all contexts. -/
def State.tearSaved (s : State) (q : Nat) : State := s.discardIf (fun c => c.origin.queue? = some q)
def State.discardAll (s : State) : State := s.discardIf (fun _ => true)

/-- Contexts of a queue that have not ended. -/
def State.queueCtxs (s : State) (q : Nat) : List AgentId :=
  (s.ctxs.filter (fun p => p.2.phase = .live && p.2.origin.queue? = some q)).map (·.1)

/-- TEARDOWN_STOP (18 R489, R491): 4,096 cycles after the teardown contexts stop without saving; when none is left and every record is
written, the teardown is over. -/
def execTeardownStop (q : Nat) (s : State) : Res :=
  match lookup? s.queues q with
  | none => .next s
  | some h =>
    match h.life with
    | .inUse => .next s
    | .torn => .next s
    | .tearing t =>
      if s.time.toNat < t + 4096 then .next s
      else
        let s := (s.queueCtxs q).foldl State.tearCtx s
        let s := (s.launches.filter (fun l => l.q = q)).foldl (fun s l =>
          (l.teams.filter (fun t => t.phase = .loading)).foldl (fun s t => s.tearTeam l t) s) s
        let s := s.tearSaved q
        if s.queueCtxs q = [] ∧ !s.launches.any (fun l => l.q = q) then
          .next ((s.freeQueueSlots q).updQueue q (fun h => { h with life := .torn }))
        else .next s

/-- FUNCTION_LEVEL_RESET (22 R527): the function's queues are torn down in ascending order; its page and its message-slot statuses are
cleared. -/
def execFunctionLevelReset (func : Nat) (s : State) : Res :=
  if 64 ≤ func then .next s
  else
    let qs := (List.range 16).map (fun n => func * 16 + n)
    let s := qs.foldl State.tearDown s
    let s := qs.foldl (fun s q => s.updQueue q (fun h => { h with amStatus := Vector.replicate 8 0 })) s
    let s := s.updFunc func (fun f => { f with
      nonce := Vector.replicate 8 0, ready := false, req := false, asked := Vector.replicate 8 0, report := [], accerr := 0, telem := [] })
    .next (if func = 0 then { s with tdQnum := 0, plimit := 1200 } else s)

end Sys2Proof.Machine
end

