-- ==== Sys2Proof/Machine/Board.lean ====
section
/-!
DEFINITION. Machine/Board.lean: partition entries, attestation, bring-up, power, cooling, telemetry, machine reports and soft errors (12
R371; 22 R526, R531-R539).
-/
namespace Sys2Proof.Machine

/-! ### Tenants (22 R531, R532) -/

/-- Stretches of slice offset, as in a partition entry. -/
def sharedMeet (x y : Nat × Nat × Nat × Nat) : Bool := x.1 = y.1 && x.2.1 = y.2.1 && x.2.2.1 ≤ y.2.2.2 && y.2.2.1 ≤ x.2.2.2

/-- A save pool reaches into a DRAM row, as channel and row, whose bytes are 2 MiB of physical addresses (12 R354). -/
def poolMeets (p : Partition) (row : Nat × Nat) : Bool :=
  let pa := row.2 * 2 ^ 31 + row.1 * 2 ^ 21
  p.poolSize ≠ 0 && p.poolBase < pa + 2 ^ 21 && pa < p.poolBase + p.poolSize

/-- Two partition entries overlap (22 R531). -/
def partMeets (p r : Partition) : Bool :=
  p.dramRows.any (poolMeets r) || r.dramRows.any (poolMeets p) ||
  p.rows.any r.rows.contains || p.shared.any (fun x => r.shared.any (sharedMeet x)) || p.dramRows.any r.dramRows.contains ||
    p.ports.any r.ports.contains ||
    (p.domCount ≠ 0 && r.domCount ≠ 0 && p.domBase < r.domBase + r.domCount && r.domBase < p.domBase + p.domCount) ||
    (p.poolSize ≠ 0 && r.poolSize ≠ 0 && p.poolBase < r.poolBase + r.poolSize && r.poolBase < p.poolBase + p.poolSize)

/-- Cluster rows are whole stacks, or rows of one stack (22 R531). -/
def rowsWhole (rows : List (Nat × Nat)) : Bool :=
  rows.all (fun x => rows.all (fun y => y.1 = x.1)) || rows.all (fun x => (List.range 32).all (fun y => rows.contains (x.1, y)))

/-- The entry names things that exist, and queues of the tenant (03 R48, 22 R531). -/
def partValid (p : Partition) (tenant : Nat) : Bool :=
  rowsWhole p.rows && p.rows.all (fun x => x.1 < 16 && x.2 < 32) && p.shared.all (fun x => x.1 < 16 && x.2.1 < 64 && x.2.2.1 ≤ x.2.2.2 && x.2.2.2 < 24) &&
    p.dramRows.all (fun x => x.1 < 1024 && x.2 < 512) && p.ports.all (· < 64) && p.queues.all (fun q => queueTenant q = tenant) &&
    p.domBase + p.domCount ≤ 1024 && p.poolBase + p.poolSize ≤ 2 ^ 40 && p.poolBase % 64 = 0

/-- An entry of a tenant that holds nothing. -/
def noPartition : Partition :=
  { rows := [], shared := [], dramRows := [], root := 0, queues := [], ports := [], agents := [], routes := [], domBase := 0, domCount := 0
    poolBase := 0, poolSize := 0, debug := false }

/-- The partition entry that the trusted monitor keeps for a tenant. -/
def State.partOf (s : State) (tenant : Nat) : Partition := lookupD noPartition s.partitions tenant

/-- A cluster row holds a live, saved or placed context (22 R532). -/
def State.rowBusy (s : State) (r : Nat × Nat) : Bool :=
  let here (a : AgentId) : Bool := match a with
    | .core st c _ _ => st = r.1 && c / 40 = r.2
    | _ => false
  s.ctxs.any (fun p => here p.1 && p.2.phase ≠ .idle) || s.heldSites.any (fun x => x.stack = r.1 && x.cluster / 40 = r.2)

/-- Make bytes of memory zero. -/
def State.zero (s : State) (f : Nat → Bool) : State :=
  { s with mem := s.mem.filter (fun c => !f c.1), eccBad := s.eccBad.filter (fun a => !f a), eccOne := s.eccOne.filter (fun a => !f a) }

/-- A byte lies in what a tenant gains by a change of its entry: cluster rows, slice ranges, DRAM rows, the save pool. -/
def gains (old new : Partition) (a : Nat) : Bool :=
  let o := a % 2 ^ 44
  let row (n : Nat) : Bool := let r := (n / 1280, n % 1280 / 40)
                              new.rows.contains r && !old.rows.contains r
  let unit (p : Partition) : Bool := p.shared.any (fun x =>
    sharedMeet x (o / 0x180000 / 64, o / 0x180000 % 64, o % 0x180000 / 65536, o % 0x180000 / 65536))
  let dram (p : Partition) : Bool := p.dramRows.contains (o / 2 ^ 30, o % 2 ^ 30 / 2 ^ 21)
  -- the physical address of a byte of a channel (12 R354)
  let pa := o % 2 ^ 30 / 2 ^ 21 * 2 ^ 31 + o / 2 ^ 30 * 2 ^ 21 + o % 2 ^ 21
  let pool (p : Partition) : Bool := p.poolBase ≤ pa && pa < p.poolBase + p.poolSize
  match a / 2 ^ 44 with
  | 0 => row (o / 0x100000)
  | 1 => row (o / 0x40000)
  | 2 => row (o / 0x20000)
  | 3 => unit new && !unit old
  | 4 => (dram new && !dram old) || (pool new && !pool old)
  | 6 => row (o / 0x40000)
  | _ => false

/-- The row owner tables that the trusted monitor writes (12 R357). -/
def State.setOwners (s : State) (tenant : Nat) (old new : Partition) : State :=
  let chans := ((old.dramRows ++ new.dramRows).map (·.1)).eraseDups
  chans.foldl (fun s ch =>
    s.updHart (.memoryCore (ch / 64) (ch % 64)) (fun h => { h with
      owners := h.owners.filter (fun x => x.2 ≠ tenant) ++ (new.dramRows.filter (fun x => x.1 = ch)).map (fun x => (x.2, tenant)) })) s

/-- A context of a cluster that changes hands: its registers are cleared, its endpoint generations stay (13 R374). -/
def Ctx.wipe (c : Ctx) : Ctx := { Ctx.reset with eps := c.eps.map (fun e => { Ep.reset with gen := e.gen }) }

/-- Clusters that a tenant gains are cleared (22 R532). -/
def State.clearRows (s : State) (rows : List (Nat × Nat)) : State :=
  let here (a : AgentId) : Bool := match a with
    | .core st c _ _ => rows.contains (st, c / 40)
    | _ => false
  { s with
    ctxs := s.ctxs.map (fun p => if here p.1 then (p.1, p.2.wipe) else p)
    cores := s.cores.filter (fun p => !here p.1), units := s.units.filter (fun p => !here p.1) }

/-- A memory core that runs a loader program of a tenant, or is about to, stays bound to that tenant alone (22 R531). -/
def State.loaderBound (s : State) (tenant : Nat) (new : Partition) : Bool :=
  let fits (a : AgentId) (q : Nat) : Bool := new.agents.contains a = decide (queueTenant q = tenant)
  s.ctxs.all (fun p => match s.loaderOf p.1 with
    | some q => fits p.1 q
    | none => true) &&
    s.queues.all (fun p => p.2.starting.all (fun x => fits x.1 p.1))

/-! ### The routes of channels (13 R401, 22 R530) -/

/-- What a change does to the ends of channels: to endpoint registers, to ends that messages carry, and to link ports. -/
structure EndMap where
  ep : Ep → Ep
  carried : EpImage → EpImage
  port : Option Nat → Option Nat

def EndMap.msg (f : EndMap) (m : Msg) : Msg := { m with ep := m.ep.map f.carried }

def EndMap.item (f : EndMap) (i : StubItem) : StubItem :=
  match i with
  | .msg freed m => .msg freed (f.msg m)
  | .credit n => .credit n
  | .close c st ctr => .close c st ctr
  | .moved name mod => .moved name mod
  | .release => .release

def EndMap.mesh (f : EndMap) (m : Mesh) : Mesh :=
  match m with
  | .msg a b mod t freed fwd g => .msg a b mod t freed fwd (f.msg g)
  | .away mod p (.msg a b mod' t freed fwd g) => .away mod (f.port p) (.msg a b mod' t freed fwd (f.msg g))
  | .away mod p m => .away mod (f.port p) m
  | m => m

/-- A register, with what it holds. -/
def EndMap.register (f : EndMap) (e : Ep) : Ep :=
  { f.ep e with
    inbox := e.inbox.map f.msg, direct := e.direct.map f.item, deferred := e.deferred.map (fun d => (d.1, d.2.1, f.msg d.2.2)) }

def EndMap.ctx (f : EndMap) (c : Ctx) : Ctx := { c with eps := c.eps.map f.register }

def EndMap.unit (f : EndMap) (u : Cluster) : Cluster :=
  { u with stubs := u.stubs.map (fun t => { t with
      port := f.port t.port, target := t.target.map (fun x => (x.1, x.2.1, f.port x.2.2)), items := t.items.map f.item
      direct := t.direct.map f.item }) }

def EndMap.link (f : EndMap) (p : Port) : Port := { p with entered := p.entered.map (fun m => (f.mesh m.1, m.2)) }

def EndMap.switch (f : EndMap) (w : Switch) : Switch :=
  { w with
    ctxs := w.ctxs.map (fun x => { x with ctx := f.ctx x.ctx }), mesh := w.mesh.map f.mesh, units := w.units.map (fun p => (p.1, f.unit p.2)) }

/-- Change the ends of the module's channels, in place, saved, or carried by a message. -/
def State.mapEnds (s : State) (f : EndMap) : State :=
  { s with
    ctxs := s.ctxs.map (fun p => (p.1, f.ctx p.2)), mesh := s.mesh.map f.mesh, units := s.units.map (fun p => (p.1, f.unit p.2))
    ports := s.ports.map (fun p => (p.1, f.link p.2))
    switches := s.switches.map (fun w => (w.1, f.switch w.2)) }

/-- Channels have no port for ports that are their tenant's no more: what they send then crosses none (22 R530; log 42). -/
def unrouted (lost : List Nat) : EndMap :=
  let port (p : Option Nat) : Option Nat := p.filter (fun n => !lost.contains n)
  { ep := fun e => { e with port := port e.port }, carried := fun g => { g with port := port g.port }, port := port }

/-- PARTITION_CHANGE (22 R531, R532): refused where an entry would overlap another tenant's, where a changed cluster holds a live, saved or
placed context, or where save areas stand in a pool that changes. DEBUG is set when the entry is created. No message of the tenant crosses a
port that it loses. -/
def execPartitionChange (tenant : Nat) (p : Partition) (s : State) : Res :=
  let old := s.partOf tenant
  let new : Partition := { p with debug := if (lookup? s.partitions tenant).isSome then old.debug else p.debug }
  let lost := old.rows.filter (fun r => !new.rows.contains r)
  let got := new.rows.filter (fun r => !old.rows.contains r)
  let clash := s.partitions.any (fun x => x.1 ≠ tenant && partMeets x.2 new)
  let moved := (old.poolBase ≠ new.poolBase ∨ old.poolSize ≠ new.poolSize) && s.areasOf tenant ≠ []
  if 64 ≤ tenant ∨ s.bootStage ≠ 6 ∨ !partValid new tenant ∨ clash ∨ !s.loaderBound tenant new ∨ (lost ++ got).any s.rowBusy ∨ moved then .next s
  else
    let gone := old.ports.filter (fun p => !new.ports.contains p)
    let s := ((s.zero (gains old new)).clearRows got).mapEnds (unrouted gone)
    .next { s.setOwners tenant old new with
      partitions := assign s.partitions tenant new
      ports := s.ports.map (fun p => if gone.contains p.1 then (p.1, { p.2 with queue := [] }) else p) }

/-! ### Attestation (22 R526, R534) -/

/-- ATTEST_REQUEST (22 R526): a write of REQ = 1, ignored while it reads 1; the report takes NONCE as it stands. -/
def execAttestRequest (func : Nat) (s : State) : Res :=
  if func < 64 then .next (s.updFunc func (fun f => if f.req then f else { f with req := true, asked := f.nonce })) else .next s

/-- The first 256 bytes of a report (22 R534). -/
def State.reportHead (s : State) (func : Nat) : List Byte :=
  bytesOf (0x0B * 2 ^ 24 + func) 4 ++ wordBytes4 Config.steppingCode ++ (s.funcOf func).asked.toList.flatMap wordBytes4 ++
    s.monitor.mMonitor ++ s.monitor.mFirmware ++ lookupD (List.replicate 32 0) s.monitor.mLoader func ++
    sha256 (Config.partitionBytes (s.partOf func)) ++ bytesOf (s.coreClock .secureCore).toNat 8 ++ List.replicate 80 0

/-- ATTEST_REPORT_READY (22 R534): the signed report, READY, and vector 16. -/
def execAttestReportReady (func : Nat) (s : State) : Res :=
  if (s.funcOf func).req then
    let head := s.reportHead func
    .next (s.updFunc func (fun f => { f with
      report := head ++ (Config.signature head ++ List.replicate 384 0).take 384, ready := true, req := false }.raise 16))
  else .next s

/-! ### Bring-up (22 R535) -/

/-- POWER_ON_RESET (22 R535): the machine after reset. The schedule, the free values drawn so far and the module number are not of it. -/
def execPowerOnReset (s : State) : Res := .next { State.reset with moves := s.moves, draws := s.draws, modnum := s.modnum }

/-- A stage at which bring-up stops with an error (22 R535); failing link ports are not fatal. -/
def bootError (stage : Nat) (err : BitVec 8) : Bool :=
  (stage = 2 && err = 1) || (stage = 4 && err = 2) || (stage = 3 && err = 3)

/-- A free measurement of an image that the spec does not give. -/
def freeImage (n : Nat) : List Byte := (List.range 8).flatMap (fun i => wordBytes4 (Config.freeWord (n + i)))

/-- The ports after training: all up, or, where some fail, those of a free choice. -/
def trainPorts (n : Nat) (all : Bool) : List (Nat × Port) :=
  (List.range 64).map (fun p => (p, { Port.reset with state := if all || Config.choice (n + p) % 2 = 0 then .up else .down }))

/-- The work of a stage (22 R533, R535). -/
def State.stageWork (s : State) (stage : Nat) (all : Bool) : State :=
  match stage with
  | 2 => { s with monitor := { s.monitor with mMonitor := measure s.monitor.mMonitor (freeImage s.draws) }, draws := s.draws + 8 }
  | 3 => { s with mem := [], eccBad := [], eccOne := [], time := 0 }
  | 4 => { s with monitor := { s.monitor with mFirmware := measure s.monitor.mFirmware (freeImage s.draws) }, draws := s.draws + 8 }
  | 5 => { s with
      ports := (trainPorts s.draws all).map (fun p => (p.1, { p.2 with ackAt := s.time.toNat })), draws := s.draws + 64 }
  | _ => s

/-- BOOT_STAGE (22 R535): the next stage is reached, or stops with ERR; a change of BOOTSTAT raises vector 18 of the PF. -/
def execBootStage (err : BitVec 8) (s : State) : Res :=
  let n := s.bootStage + 1
  if 6 < n ∨ (s.bootErr ≠ 0 ∧ s.bootErr ≠ 4) then .next s
  else if bootError n err then .next ({ s with bootStage := n, bootErr := err }.updFunc 0 (fun f => f.raise 18))
  else if err = 0 ∨ (n = 5 ∧ err = 4) then
    .next ({ s.stageWork n (err = 0) with bootStage := n, bootErr := if n = 5 then err else s.bootErr }.updFunc 0 (fun f => f.raise 18))
  else .next s

/-! ### Power and cooling (22 R536, R537) -/

/-- Add throttled cycles: those of stack `k`, or, under 16, of the module. -/
def State.throttle (s : State) (k cycles : Nat) : State :=
  { s with sensors := { s.sensors with throttled := assign s.sensors.throttled k (lookupD 0 s.sensors.throttled k + cycles) } }

/-- POWER_THROTTLE (22 R536): idle cycles, which change timing only. -/
def execPowerThrottle (cycles : Nat) (s : State) : Res := .next (s.throttle 16 cycles)

/-- A stack is at least this hot. -/
def State.heat (s : State) (stack tenths : Nat) : State :=
  { s with sensors := { s.sensors with temp := assign s.sensors.temp stack (max tenths (lookupD 0 s.sensors.temp stack)) } }

/-- THERMAL_THROTTLE (22 R537). -/
def execThermalThrottle (stack cycles : Nat) (s : State) : Res :=
  if stack < 16 then .next ((s.heat stack 951).throttle stack cycles) else .next s

/-- THERMAL_SHUTDOWN (22 R537): a machine report, whose address is free; every context is stopped as at a teardown, and what is saved is
discarded; the event goes on until no context is left, and then the module is held in reset until power cycles. -/
def execThermalShutdown (stack : Nat) (s : State) : Res :=
  if 16 ≤ stack then .next s
  else
    let s := if s.overheated then s
      else { (s.heat stack 1100).report stack 0xFFFFF (Config.freeWord s.draws).toNat with overheated := true, draws := s.draws + 2 }
    let s := s.liveAgents.foldl State.tearCtx s
    let s := s.discardAll
    .next (if s.liveAgents = [] then { s with thermalStop := true } else s)

/-! ### Telemetry (22 R538) -/

/-- Shares of a total of `left`: each as drawn, as far as the total goes. -/
def shares (left : Nat) : List Nat → List Nat
  | [] => []
  | x :: rest => min x left :: shares (left - min x left) rest

/-- Measure power and temperature of the stacks: free values, of which the power never exceeds PLIMIT × 10 W, nor 12.0 kW, in all (01 R22, 22
R536; log 12). -/
def State.measureStacks (s : State) : State :=
  let get (k : Nat) : List Nat := (List.range 16).map (fun st => (Config.freeWord (s.draws + 2 * st + k)).toNat % 65536)
  let put (l : List Nat) : List (Nat × Nat) := l.zipIdx.map (fun x => (x.2, x.1))
  { s with sensors := { s.sensors with power := put (shares (min s.plimit 1200) (get 0)), temp := put (get 1) }, draws := s.draws + 32 }

/-- Stacks on which a tenant holds clusters; all of them for the PF. -/
def State.viewStacks (s : State) (func : Nat) : List Nat :=
  if func = 0 then List.range 16 else ((s.partOf func).rows.map (·.1)).eraseDups

/-- The state of a port as PORTSTAT codes it. -/
def PortState.code : PortState → Nat
  | .down => 0 | .up => 1 | .retraining => 2

def State.portOf (s : State) (p : Nat) : Port := lookupD .reset s.ports p

/-- The tenant that a port belongs to (22 R530). -/
def State.portTenant (s : State) (p : Nat) : Option Nat := (s.partitions.find? (fun x => x.2.ports.contains p)).map (·.1)

/-- PORTSTAT of a port. -/
def State.portStat (s : State) (p : Nat) : Word :=
  let owner := match s.portTenant p with
    | some t => 2 ^ 14 + t * 2 ^ 8
    | none => 0
  BitVec.ofNat 32 (owner + (s.portOf p).state.code)

/-- The telemetry view of a function, by offset in the function page. -/
def State.telemetry (s : State) (func : Nat) : List (Nat × Word) :=
  let w (n : Nat) : Word := BitVec.ofNat 32 n
  let sts := s.viewStacks func
  let power (st : Nat) : Nat := lookupD 0 s.sensors.power st
  let throt (k : Nat) : Nat := lookupD 0 s.sensors.throttled k
  let cec := if func = 0 then s.cec else lookupD (Vector.replicate 8 0) s.cecTen func
  let ports := if func = 0 then List.range 64 else (s.partOf func).ports
  [(0x400, w ((sts.map power).sum % 65536)), (0x404, w (if sts = [] then 0 else throt 16 + (sts.map throt).sum))] ++
    (cec.toList.zipIdx).map (fun c => (0x408 + 4 * c.2, c.1)) ++ [(0x428, (s.funcOf func).accerr)] ++
    sts.map (fun st => (0x440 + 4 * st, w (lookupD 0 s.sensors.temp st * 65536 + power st))) ++
    ports.flatMap (fun p => let x := s.portOf p
                            [(0x500 + 12 * p, x.replays), (0x504 + 12 * p, x.retrains), (0x508 + 12 * p, x.downs)]) ++
    (if func = 0 then
      (List.range 64).map (fun p => (0xC00 + 4 * p, s.portStat p)) ++ (List.range 64).map (fun f => (0xE00 + 4 * f, (s.funcOf f).accerr))
    else [])

/-- TELEMETRY_UPDATE (22 R538): the views of all functions. -/
def execTelemetryUpdate (s : State) : Res :=
  let s := s.measureStacks
  .next ((List.range 64).foldl (fun t f => t.updFunc f (fun x => { x with telem := s.telemetry f })) s)

/-- Word 1 of a machine report: the number of a context, of 655,360, or 0xF_FFFF (01 R13, 22 R539). -/
def reportNo (n : Nat) : Nat := if n % 655361 = 655360 then 0xFFFFF else n % 655361

/-- MACHINE_REPORT (22 R539) by a unit, number and address of the model's free choice. -/
def execMachineReport (s : State) : Res :=
  let s := { s with draws := s.draws + 3 }
  .next (s.report (Config.choice s.draws % 16) (reportNo (Config.freeWord (s.draws - 1)).toNat) (Config.freeWord (s.draws - 2)).toNat)

/-! ### Soft errors (12 R371) -/

/-- The number names a byte of a memory. -/
def isByte (a : Nat) : Bool :=
  let o := a % 2 ^ 44
  match a / 2 ^ 44 with
  | 0 => o < 163840 * 0x20000
  | 1 => o < 20480 * 0x40000
  | 2 => o < 20480 * 0x20000
  | 3 => o < 1024 * 0x180000
  | 4 => o < 2 ^ 40
  | 5 => o < 21649 * 0x40000
  | 6 => o < 655360 * 8192
  | _ => false

/-- SOFT_ERROR (12 R371): a second single-bit error in a word is uncorrectable. Numbers from 7 × 2^44 name bytes of the instruction
caches (log 30). -/
def execSoftError (addr : Nat) (double : Bool) (s : State) : Res :=
  let w := eccWord addr
  if addr / 2 ^ 44 = 7 ∧ addr % 2 ^ 44 < 20480 * 0x8000 then .next (s.cacheError (addr % 2 ^ 44) double)
  else if !isByte addr ∨ s.eccBad.contains w then .next s
  else if double || s.eccOne.contains w then .next { s with eccBad := w :: s.eccBad, eccOne := s.eccOne.filter (· ≠ w) }
  else .next { s with eccOne := w :: s.eccOne }

end Sys2Proof.Machine
end

