-- ==== Sys2Proof/Machine/Control.lean ====
section
/-!
DEFINITION. Machine/Control.lean: control transfer, LOOP, and the plain context controls (06 R166-R171, R177, R181, R183).
-/
namespace Sys2Proof.Machine

/-- A conditional branch on T (06 R166). -/
def State.branch (s : State) (sense : Bool) (imm : Imm) : Res :=
  s.outsideLoop (if s.ctx.t = sense then s.jump (s.ctx.target imm) id else s.done id)

/-- BF (06 R166). -/
def execBf (imm : Imm) (s : State) : Res := s.branch false imm
/-- BT (06 R166). -/
def execBt (imm : Imm) (s : State) : Res := s.branch true imm
/-- JMP (06 R167). -/
def execJmp (imm : Imm) (s : State) : Res := s.outsideLoop (s.jump (s.ctx.target imm) id)
/-- JAL: the link goes to x1 (06 R167). -/
def execJal (imm : Imm) (s : State) : Res :=
  let link := s.ctx.pcLow + s.groupBytes
  s.outsideLoop (s.jump (s.ctx.target imm) (fun k => k.setX 1 link))
/-- JR: an odd target raises ALIGN (06 R168). -/
def execJr (b : XReg) (imm : Imm) (s : State) : Res :=
  let t := s.ctx.ea b imm 1
  s.outsideLoop (if t.getLsbD 0 then s.trap Cause.align t else s.jump t id)
/-- JALR: x[b] is read before x[a] is written (06 R168). -/
def execJalr (a b : XReg) (imm : Imm) (s : State) : Res :=
  let t := s.ctx.ea b imm 1
  let link := s.ctx.pcLow + s.groupBytes
  s.outsideLoop (if t.getLsbD 0 then s.trap Cause.align t else s.jump t (fun k => k.setX a link))
/-- PCA: x[a] := PC + imm × 2, no transfer (06 R169). -/
def execPca (a : XReg) (imm : Imm) (s : State) : Res :=
  let t := s.ctx.target imm
  s.done (fun k => k.setX a t)

/-- IPREF starts a fill of the target's line when it is absent and a fill is free; it never traps and never waits (04 R118). -/
def execIpref (imm : Imm) (s : State) : Res :=
  let c := s.ctx
  let line := (c.pc.extractLsb' 32 16 ++ c.target imm).toNat / 64
  if isHart s.cur then s.done id
  else
    let u := s.unit
    let s := if (u.line? c.tenant line).isNone then s.setUnitOf s.cur (u.startFill c.tenant line) else s
    s.done id

/-- Start of a LOOP with a non-zero count (06 R170, R172): the loop registers, and the loop buffer when it is free. -/
def State.startLoop (s : State) (a : AgentId) (n : Word) (k : Nat) : State :=
  let s := if (s.coreOf a).loopBuf.isNone then
      s.updCore a (fun q => { q with loopBuf := some ⟨ctxIndex a, []⟩ }) else s
  let start := (s.ctxOf a).pcLow + s.groupBytes
  s.updOf a (fun c => { c.ready with lcnt := n, lstart := start, lrem := BitVec.ofNat 5 k, lact := true }.setPc start)

/-- LOOP (06 R170, R171): `k` is the body length minus 1. -/
def execLoop (a : XReg) (k : BitVec 4) (s : State) : Res :=
  let n := s.ctx.getX a
  s.outsideLoop
    (if n ≠ 0 then .next (s.startLoop s.cur n (k.toNat + 1))
     else
       -- nothing follows a LOOP at the end of the text segment (06 R171)
       if s.ctx.pcLow + s.groupBytes ≤ s.ctx.pcLow then .next (s.takeTrap s.cur .precise 0 Cause.loadWindow s.ctx.pcLow)
       else
         match s.skipGroups s.cur (s.ctx.pc.extractLsb' 32 16) (k.toNat + 1) (s.ctx.pcLow + s.groupBytes) with
         | .at_ s' pc => .next (s'.upd (fun c => c.ready.setPc pc))
         | .later s' => .next (s'.upd (fun c => { c with stepping := true }))
         | .fault code => .next (s.takeTrap s.cur .precise 0 code s.ctx.pcLow))

/-- TRAP raises SYSCALL with its code (06 R181). -/
def execTrap (code : BitVec 4) (s : State) : Res := s.trap Cause.syscall (code.setWidth 32)
/-- BRK raises BREAK with its code (18 R497). -/
def execBrk (code : BitVec 4) (s : State) : Res := s.trap Cause.brk (code.setWidth 32)

/-- The first ERET after MATRIX_OPERAND makes the unit retry the suspended command (11 R325). -/
def State.resumeMatrix (s : State) (a : AgentId) : State :=
  if (s.ctxOf a).resumable then
    (s.updCore a (fun k => { k with mqueue := k.mqueue.map (fun m => if m.ctx = a then { m with susp := false } else m) })).updOf a
      (fun c => { c with mchain := { c.mchain with susp := false } })
  else s

/-- ERET (06 R183): forbidden in a LOOP body, PRIV at program privilege, else the return from the trap. -/
def execEret (s : State) : Res :=
  s.outsideLoop
    (if s.ctx.prv then
      let s' := (s.traceIf s.cur 4 6 0 s.ctx.pcLow s.ctx.epc).resumeMatrix s.cur
      .next (s'.upd (fun c => c.ready.eret))
     else s.privTrap 0)

/-- NOP changes no state (06 R177). -/
def execNop (s : State) : Res := s.done id
/-- YIELD changes no state; for 3 cycles the core prefers another context, which is timing (06 R177; log 5). -/
def execYield (s : State) : Res := s.done id

end Sys2Proof.Machine
end

