-- ==== Sys2Proof/Machine/Debug.lean ====
section
/-!
DEFINITION. Machine/Debug.lean: page 8: trace marks and triggers, instruction-cache invalidation, windows, HALT and SCRUB (18
R496-R502).
-/
namespace Sys2Proof.Machine

/-- TRACEM (18 R498). -/
def execTracem (b : XReg) (s : State) : Res :=
  (s.traceIf s.cur 3 4 0 s.ctx.pcLow (s.ctx.getX b)).done id
/-- TRIG (18 R498). -/
def execTrig (s : State) : Res := (s.trigger s.cur 0).done id

/-- ICINV (18 R499): the line of an address in the context's text segment. -/
def execIcinv (b : XReg) (s : State) : Res :=
  s.kernelOnly
    (let line := (s.ctx.pc.extractLsb' 32 16 ++ s.ctx.getX b).toNat / 64
     (s.invalidateLines s.cur (fun t l => t = s.ctx.tenant && l = line)).done id)
/-- ICINVA (18 R499): every line of the cluster's cache. -/
def execIcinva (s : State) : Res := s.kernelOnly ((s.invalidateLines s.cur (fun _ _ => true)).done id)

/-- The record of a window is well formed (18 R500, 12 R346). -/
def Window.ok (w : Window) : Bool :=
  bitsOf w.w3.toNat 31 4 = 0 && bitsOf w.w0.toNat 11 0 = 0 && bitsOf w.w1.toNat 11 0 = 0 &&
    (!w.valid || (0x40000 ≤ w.base && w.base ≤ w.limit && w.limit ≤ 0x7FFFF))

/-- A window may be written (12 R349): the accumulates of the context are acknowledged and its tile is empty. -/
def State.windowReady (s : State) (a : AgentId) : Bool := s.flushed a

/-- Where a window record may lie (18 R500): own TCM or the scratchpad, on a hart its private TCM alone. -/
def windowRecord (a : AgentId) (ea : Nat) : Option Nat :=
  if isHart a then (if ea + 16 ≤ tcmSize a then some (ownTcmAt a ea) else none) else tcmOrScratch a ea 16

/-- WINSET (18 R500). -/
def execWinset (a b : XReg) (s : State) : Res :=
  s.kernelOnly
    (let d := s.ctx.getX a
     let n : Fin 8 := Fin.ofNat 8 (s.ctx.getX b).toNat
     if d.toNat % 4 ≠ 0 then s.trap Cause.align d
     else
       match windowRecord s.cur d.toNat with
       | none => s.trap Cause.loadWindow d
       | some flat =>
         match s.readBlock flat 4 with
         | none => s.trap Cause.ecc d
         | some (s1, ws) =>
           let w : Window := ⟨(ws[0]?).getD 0, (ws[1]?).getD 0, (ws[2]?).getD 0, (ws[3]?).getD 0⟩
           if !w.ok then s1.done (·.setT false)
           else
             let s2 := s1.startFlush s.cur
             if s2.windowReady s.cur then s2.done (fun c => { c with windows := c.windows.set n.val w, flushing := false, t := true })
             else s2.waits .interlock)

/-- Word k of a window. -/
def Window.word (w : Window) (k : Nat) : Word :=
  match k with
  | 0 => w.w0
  | 1 => w.w1
  | 2 => w.w2
  | _ => w.w3

/-- WINGET (18 R500). -/
def execWinget (a b : XReg) (s : State) : Res :=
  let x := (s.ctx.getX b).toNat
  s.done (fun c => c.setX a ((c.windows[Fin.ofNat 8 x]).word (x / 8 % 4)))

/-- HALT (18 R501): the context is clock-gated; a trap that becomes deliverable, or a debug resume, completes it. -/
def execHalt (s : State) : Res :=
  s.kernelOnly (.next (s.upd (fun c => { c with halted := true, haltGroup := s.group.words, wait := .halt })))

/-- Scrub one word: whether it was written as zero. -/
def State.scrubWord (s : State) (flat : Nat) : State × Bool :=
  if s.hasBad flat 4 then (s.storeWord flat 0, true) else (s.correct flat 4, false)

/-- Scrub `n` words from a number. -/
def State.scrubWords (s : State) (flat : Nat) : Nat → State × Bool
  | 0 => (s, false)
  | n + 1 =>
    let r := s.scrubWord flat
    let q := r.1.scrubWords (flat + 4) n
    (q.1, r.2 || q.2)

/-- SCRUB (18 R502). -/
def execScrub (b : XReg) (s : State) : Res :=
  s.kernelOnly
    (let x := s.ctx.getX b
     let ea := x.toNat / 64 * 64
     let run (flat : Nat) : Res :=
       let r := s.scrubWords flat 16
       r.1.done (·.setT r.2)
     match place s.cur ea with
     | .ownTcm o => run (ownTcmAt s.cur o)
     | .scratch f => run f
     | .matrix f => run f
     | .peer st c k o => if s.present s.cur st c k then run (tcmAt st c k o) else s.trap Cause.peerAbsent x
     | .shared => s.trap Cause.storeWindow x
     | .event _ => s.trap Cause.storeWindow x
     | .aperture _ => s.trap Cause.storeWindow x
     | .port _ => s.trap Cause.storeWindow x
     | .unmapped => s.trap Cause.storeWindow x)

end Sys2Proof.Machine
end

