-- ==== Sys2Proof/Machine/DebugPort.lean ====
section
/-!
DEFINITION. Machine/DebugPort.lean: the test access port and debug commands (22 R541, R542).
-/
namespace Sys2Proof.Machine

def State.updTap (s : State) (f : Tap → Tap) : State := { s with tap := f s.tap }

/-- TAP_RESET (22 R541): as IEEE 1149.1 has it, IDCODE is the instruction after TRST (log 13). -/
def execTapReset (s : State) : Res := .next (s.updTap (fun t => { t with ir := 0x01, bypass := false }))

/-- An instruction value that acts as BYPASS is in the instruction register, which selects a register of one bit. -/
def State.selectBypass (s : State) (code : BitVec 8) : State := s.updTap (fun t => { t with ir := code, bypass := false })

/-- BYPASS (22 R541). -/
def execBypass (s : State) : Res := .next (s.selectBypass 0xFF)

/-- The identification word (22 R541). -/
def idWord : Word := BitVec.ofNat 32 (Config.steppingCode.toNat % 16 * 2 ^ 28 + 0x0A51 * 2 ^ 12 + Config.manufacturer.toNat * 2 + 1)

/-- IDCODE (22 R541): the register captures the identification word. -/
def State.selectIdcode (s : State) : State := s.updTap (fun t => { t with ir := 0x01, idcode := idWord })
def execIdcode (s : State) : Res := .next s.selectIdcode

/-- The boundary register captures its pins, whose levels are inputs of the machine (free; log 13). -/
def State.samplePins (s : State) (code : BitVec 8) : State :=
  let pins := (List.range Config.boundaryLength).map (fun i => decide (Config.choice (s.draws + i) % 2 = 1))
  { s with draws := s.draws + Config.boundaryLength }.updTap (fun t => { t with ir := code, boundary := pins })

/-- SAMPLE (22 R541). -/
def execSample (s : State) : Res := .next (s.samplePins 0x02)

/-- EXTEST (22 R541): the boundary register drives its pins with what it holds, and captures them. -/
def State.drivePins (s : State) : State := (s.updTap (fun t => { t with driven := t.boundary })).samplePins 0x03
def execExtest (s : State) : Res := .next s.drivePins

/-! ### Debug commands (22 R542) -/

/-- The command register as it is captured after a command. -/
def debugWord (op ctx : Nat) (space : BitVec 2) (num : BitVec 12) (sts : Nat) (data : Word) : BitVec 72 :=
  BitVec.ofNat 72 (op * 2 ^ 70 + ctx % 2 ^ 20 * 2 ^ 50 + space.toNat * 2 ^ 48 + num.toNat * 2 ^ 36 + sts * 2 ^ 32 + data.toNat)

/-- The target of a command; none where it is denied: no context has the number, or its tenant's DEBUG is 0. -/
def State.debugTarget (s : State) (ctx : Nat) : Option AgentId :=
  match ctxOfNo ctx with
  | some (.core st c k x) =>
    match s.clusterTenant st c with
    | some t => if (s.partOf t).debug then some (.core st c k x) else none
    | none => none
  | _ => none

/-- The context is halted by HALT, or stands at a group boundary after HALTREQ. A VLOOP and its body are one construct, within which no
context halts (10 R265; log 45). -/
def Ctx.debugHalted (c : Ctx) : Bool := c.phase = .live && (c.halted || c.held)

/-- The answer to a command. -/
def State.answerDebug (s : State) (op ctx : Nat) (space : BitVec 2) (num : BitVec 12) (sts : Nat) (data : Word) : State :=
  s.updTap (fun t => { t with ir := 0x10, dbgcmd := debugWord op ctx space num sts data })

/-- A read of a register of a halted context, as SRR at kernel privilege: STS and the data. -/
def State.debugRead (s : State) (a : AgentId) (space : BitVec 2) (num : BitVec 12) : State × Nat × Word :=
  let c := s.ctxOf a
  match space.toNat with
  | 0 =>
    match s.readReg a true num.toNat with
    | .value t w => (t, 0, w)
    | .wait => (s, 1, 0)
    | .unassigned => (s, 4, 0)
    | .denied => (s, 4, 0)
  | 1 => if num < 32 then (s, 0, c.getX (num.setWidth 5)) else (s, 4, 0)
  | 2 => if num < 32 then (s, 0, c.getF (num.setWidth 5)) else (s, 4, 0)
  | _ => (s, 4, 0)

/-- A write of a register of a halted context, as SRW at kernel privilege. One that SRW would trap on changes nothing and answers STS 4 (the
spec names no status for it; log 20). -/
def State.debugWrite (s : State) (a : AgentId) (space : BitVec 2) (num : BitVec 12) (data : Word) : State × Nat :=
  match space.toNat with
  | 0 =>
    match s.writeReg a true num.toNat data with
    | .done t => (t, 0)
    | .wait => (s, 1)
    | .domain _ => (s, 4)
    | .unassigned => (s, 4)
    | .denied => (s, 4)
  | 1 => if num < 32 then (s.updOf a (fun c => c.setX (num.setWidth 5) data), 0) else (s, 4)
  | 2 => if num < 32 then (s.updOf a (fun c => c.setF (num.setWidth 5) data), 0) else (s, 4)
  | _ => (s, 4)

/-- The saved record of a switched-out context, with its switch set, where no other context is live there. -/
def State.savedAt (s : State) (a : AgentId) : Option (Nat × Ctx) :=
  if (s.ctxOf a).phase = .live then none
  else
    match s.switches.find? (fun p => p.2.ctxs.any (fun x => x.ag = a)) with
    | some (set, w) => (w.ctxs.find? (fun x => x.ag = a)).map (fun x => (set, x.ctx))
    | none => none

/-- A command acts on its target: a switched-out context is its saved record, which keeps a HALTREQ halt (22 R542). -/
def State.onTarget {α : Type} (s : State) (a : AgentId) (f : State → State × α) : State × α :=
  match s.savedAt a with
  | none => f s
  | some (set, c) =>
    let r := f (s.setCtxOf a c)
    ((r.1.updSwitch set (fun w => { w with
      ctxs := w.ctxs.map (fun x => if x.ag = a then ⟨a, r.1.ctxOf a⟩ else x) })).setCtxOf a (s.ctxOf a), r.2)

/-- DBG_READ (22 R542): only of a halted context. -/
def execDbgRead (ctx : Nat) (space : BitVec 2) (num : BitVec 12) (s : State) : Res :=
  match s.debugTarget ctx with
  | none => .next (s.answerDebug 1 ctx space num 2 0)
  | some a =>
    let r := s.onTarget a (fun s => if (s.ctxOf a).debugHalted then s.debugRead a space num else (s, 3, 0))
    .next (r.1.answerDebug 1 ctx space num r.2.1 r.2.2)

/-- DBG_WRITE (22 R542): only of a halted context. -/
def execDbgWrite (ctx : Nat) (space : BitVec 2) (num : BitVec 12) (data : BitVec 32) (s : State) : Res :=
  match s.debugTarget ctx with
  | none => .next (s.answerDebug 2 ctx space num 2 data)
  | some a =>
    let r := s.onTarget a (fun s => if (s.ctxOf a).debugHalted then s.debugWrite a space num data else (s, 3))
    .next (r.1.answerDebug 2 ctx space num r.2 data)

/-- HALTREQ (22 R542): the context halts at its next group boundary. -/
def execHaltreq (ctx : Nat) (s : State) : Res :=
  match s.debugTarget ctx with
  | none => .next (s.answerDebug 3 ctx 0 0 2 0)
  | some a =>
    let r := s.onTarget a (fun s => (if (s.ctxOf a).phase = .live then s.updOf a (fun c => { c with haltReq := true }) else s, ()))
    .next (r.1.answerDebug 3 ctx 0 0 0 0)

/-- The end of both kinds of halt: a HALT completes (18 R501). -/
def State.debugResume (s : State) (a : AgentId) : State :=
  (if (s.ctxOf a).halted then s.wake a else s).updOf a (fun c => { c with haltReq := false })

/-- DBG_RESUME (22 R542). -/
def execDbgResume (ctx : Nat) (s : State) : Res :=
  match s.debugTarget ctx with
  | none => .next (s.answerDebug 3 ctx 0 1 2 0)
  | some a => .next ((s.onTarget a (fun s => (s.debugResume a, ()))).1.answerDebug 3 ctx 0 1 0 0)

/-- What STATUS reads: halted, INTRAP, and not started or retired. -/
def Ctx.debugStatus (c : Ctx) : Word := BitVec.ofNat 32 (bit c.debugHalted + 2 * bit c.intrap + 4 * bit (c.phase ≠ .live))

/-- DBG_STATUS (22 R542). A switched-out context is started, and halted when it was saved with a HALTREQ halt. -/
def execDbgStatus (ctx : Nat) (s : State) : Res :=
  match s.debugTarget ctx with
  | none => .next (s.answerDebug 3 ctx 0 2 2 0)
  | some a =>
    .next (s.answerDebug 3 ctx 0 2 0 (s.onTarget a (fun s => (s, (s.ctxOf a).debugStatus))).2)

/-! ### The instruction and data registers (22 R541) -/

/-- A debug command executes at Update-DR (22 R542): OP 0 does nothing; a control number that the spec does not list answers STS 4 (log 20). -/
def State.debugCommand (s : State) (w : BitVec 72) : State :=
  let ctx := (w.extractLsb' 50 20).toNat
  let space := w.extractLsb' 48 2
  let num := w.extractLsb' 36 12
  let data := w.extractLsb' 0 32
  let run (r : Res) : State := match r with
    | .next t => t
    | .fault _ => s
    | .refused _ => s
  match (w.extractLsb' 70 2).toNat, num.toNat with
  | 0, _ => s
  | 1, _ => run (execDbgRead ctx space num s)
  | 2, _ => run (execDbgWrite ctx space num data s)
  | _, 0 => run (execHaltreq ctx s)
  | _, 1 => run (execDbgResume ctx s)
  | _, 2 => run (execDbgStatus ctx s)
  | _, _ => s.answerDebug 3 ctx 0 num (if (s.debugTarget ctx).isNone then 2 else 4) 0

/-- A value is loaded into the instruction register: every value that names no instruction acts as BYPASS. -/
def State.tapInstruction (s : State) (code : BitVec 8) : State :=
  if code = 0x01 then s.selectIdcode
  else if code = 0x02 then s.samplePins 0x02
  else if code = 0x03 then s.drivePins
  else if code = 0x10 then s.updTap (fun t => { t with ir := 0x10 })
  else s.selectBypass code

/-- What a shift of bits through a register makes of it, and the bits that leave it, first bit first: IEEE 1149.1 shifts from TDI towards
TDO, and bit 0 stands next to TDO (log 13). -/
def shiftIn (r tdi : List Bool) : List Bool × List Bool := ((r ++ tdi).drop tdi.length, (r ++ tdi).take tdi.length)

/-- A number as bits, and back. -/
def bitList (n w : Nat) : List Bool := (List.range w).map n.testBit
def ofBits (l : List Bool) : Nat := (l.zipIdx.map (fun x => bit x.1 * 2 ^ x.2)).sum

/-- Capture-DR: the register that the instruction selects takes the identification word, the levels of the pins, or a 0 in BYPASS; that of
debug commands holds the result of the last one. -/
def State.tapCapture (s : State) : State :=
  match s.tap.ir.toNat with
  | 0x01 => s.updTap (fun t => { t with idcode := idWord })
  | 0x02 => s.samplePins 0x02
  | 0x03 => s.samplePins 0x03
  | 0x10 => s
  | _ => s.updTap (fun t => { t with bypass := false })

/-- A scan of the data register that the instruction selects: it captures, the bits of TDI are shifted in, those of TDO out; then Update-DR:
EXTEST drives the pins anew, and a debug command executes. -/
def State.tapScan (s : State) (tdi : List Bool) : State :=
  let s := s.tapCapture
  let t := s.tap
  match t.ir.toNat with
  | 0x01 =>
    let p := shiftIn (bitList t.idcode.toNat 32) tdi
    { s with tap := { t with idcode := BitVec.ofNat 32 (ofBits p.1), tdo := p.2 } }
  | 0x02 =>
    let p := shiftIn t.boundary tdi
    { s with tap := { t with boundary := p.1, tdo := p.2 } }
  | 0x03 =>
    let p := shiftIn t.boundary tdi
    { s with tap := { t with boundary := p.1, driven := p.1, tdo := p.2 } }
  | 0x10 =>
    let p := shiftIn (bitList t.dbgcmd.toNat 72) tdi
    { s with tap := { t with dbgcmd := BitVec.ofNat 72 (ofBits p.1), tdo := p.2 } }.debugCommand (BitVec.ofNat 72 (ofBits p.1))
  | _ =>
    let p := shiftIn [t.bypass] tdi
    { s with tap := { t with bypass := p.1.headD false, tdo := p.2 } }

end Sys2Proof.Machine
end

