-- ==== Sys2Proof/Machine/Float.lean ====
section
/-!
DEFINITION. Machine/Float.lean: the page 1 instructions, in floating and in rational mode (07 R207-R216; 08 R231-R243).
-/
namespace Sys2Proof.Machine

/-- Deliver a floating result to f[a]. -/
def State.toF (s : State) (i : Instr) (a : FReg) (r : Word × BitVec 5) : Res := s.fpDone i r.2 false (fun k => k.setF a r.1)

/-- Deliver a slash result to f[a]. -/
def State.toSlashF (s : State) (i : Instr) (a : FReg) (r : SlashOut) : Res := s.ratDone i r.flags r.runs (fun k => k.setF a r.word)

/-- A page 1 instruction with an optional c: its floating meaning in the mode RND, or its rational meaning in RMODE (07 R207). -/
def State.fpBin (s : State) (i : Instr) (a b : FReg) (c : Option FReg) (fl : BitVec 2 → Word → Word → Word × BitVec 5)
    (rat : BitVec 3 → Word → Word → SlashOut) : Res :=
  let k := s.ctx
  let o := k.fOperands a b c
  if k.rm then s.toSlashF i a (rat k.rcsr.rmode o.1 o.2) else s.toF i a (fl k.fpcsr.rnd o.1 o.2)

/-- FMA and its kin: f[a], f[b] and f[c] are read, f[a] is written (07 R210, 08 R233). -/
def State.fpFma (s : State) (i : Instr) (a b c : FReg) (sub negate : Bool) : Res :=
  let k := s.ctx
  if k.rm then s.toSlashF i a (slashFma k.rcsr.rmode sub negate (k.getF a) (k.getF b) (k.getF c))
  else s.toF i a (fmaF k.fpcsr.rnd sub negate (k.getF a) (k.getF b) (k.getF c))

/-- A compare: T from f[a] and f[b] (07 R213, 08 R236). -/
def State.fpCmp (s : State) (i : Instr) (a b : FReg) (fl rat : Word → Word → Bool × BitVec 5) : Res :=
  let k := s.ctx
  let r := if k.rm then rat (k.getF a) (k.getF b) else fl (k.getF a) (k.getF b)
  if k.rm then s.ratDone i r.2 0 (·.setT r.1) else s.fpDone i r.2 false (·.setT r.1)

/-- A conversion to an integer in x[a] (07 R215, 08 R237). -/
def State.fpToInt (s : State) (i : Instr) (a : XReg) (b : FReg) (conv : BitVec 2 → Num → Word × BitVec 5) : Res :=
  let k := s.ctx
  if k.rm then
    let r := conv (rmodeInt k.rcsr.rmode) (Slash.ofWord (k.getF b)).toNum
    s.ratDone i r.2 0 (fun k => k.setX a r.1)
  else
    let r := conv k.fpcsr.rnd (num32 (k.getF b))
    s.fpDone i r.2 false (fun k => k.setX a r.1)

/-- A conversion to a narrow format in x[a]; its flags go to FPCSR in either mode (07 R215, 08 R237). -/
def State.fpNarrow (s : State) (i : Instr) (a : XReg) (b : FReg) (f : FpFormat) (sat : Bool) : Res :=
  let k := s.ctx
  let y := if k.rm then (Slash.ofWord (k.getF b)).toNum else num32 (k.getF b)
  let r := f.narrow k.fpcsr.rnd sat y
  s.fpDone i r.2.1 r.2.2 (fun k => k.setX a r.1)

/-- A conversion from an integer (07 R216, 08 R237). -/
def State.fpOfInt (s : State) (i : Instr) (a : FReg) (v : Int) : Res :=
  let k := s.ctx
  if k.rm then s.toSlashF i a (intToSlash k.rcsr.rmode v) else s.toF i a (ofInt32 k.fpcsr.rnd v)

/-- A conversion from a narrow format (07 R216, 08 R237). -/
def State.fpWiden (s : State) (i : Instr) (a : FReg) (b : XReg) (f : FpFormat) : Res :=
  let k := s.ctx
  let w := (k.getX b).toNat
  if k.rm then s.toSlashF i a ((f.decode (w % 2 ^ (f.eb + f.fb + 1))).toSlash k.rcsr.rmode) else s.toF i a (f.widen w)

/-- FADD (07 R209, 08 R232). -/
def execFadd (a b : FReg) (c : Option FReg) (s : State) : Res :=
  s.fpBin (.fadd a b c) a b c addF (slashBin Slash.add)
/-- FSUB (07 R209, 08 R232). -/
def execFsub (a b : FReg) (c : Option FReg) (s : State) : Res :=
  s.fpBin (.fsub a b c) a b c subF (slashBin (fun y z => y.add z.neg))
/-- FMUL (07 R209, 08 R232). -/
def execFmul (a b : FReg) (c : Option FReg) (s : State) : Res :=
  s.fpBin (.fmul a b c) a b c mulF (slashBin Slash.mul)
/-- FDIV (07 R209, 08 R232). -/
def execFdiv (a b : FReg) (c : Option FReg) (s : State) : Res :=
  s.fpBin (.fdiv a b c) a b c divF (slashBin Slash.div)
/-- FMIN (07 R211, 08 R235). -/
def execFmin (a b : FReg) (c : Option FReg) (s : State) : Res :=
  s.fpBin (.fmin a b c) a b c (fun _ => minMaxF false) (fun _ => slashMinMax false)
/-- FMAX (07 R211, 08 R235). -/
def execFmax (a b : FReg) (c : Option FReg) (s : State) : Res :=
  s.fpBin (.fmax a b c) a b c (fun _ => minMaxF true) (fun _ => slashMinMax true)
/-- FMA: p + f[a] (07 R210, 08 R233). -/
def execFma (a b c : FReg) (s : State) : Res :=
  s.fpFma (.fma a b c) a b c false false
/-- FMS: p − f[a] (07 R210, 08 R233). -/
def execFms (a b c : FReg) (s : State) : Res :=
  s.fpFma (.fms a b c) a b c true false
/-- FNMA: −(p + f[a]) (07 R210, 08 R233). -/
def execFnma (a b c : FReg) (s : State) : Res :=
  s.fpFma (.fnma a b c) a b c false true
/-- FNMS: −(p − f[a]) (07 R210, 08 R233). -/
def execFnms (a b c : FReg) (s : State) : Res :=
  s.fpFma (.fnms a b c) a b c true true
/-- FSQRT (07 R212, 08 R234). -/
def execFsqrt (a b : FReg) (s : State) : Res :=
  let k := s.ctx
  if k.rm then s.toSlashF (.fsqrt a b) a (slashSqrt k.rcsr.rmode (k.getF b)) else s.toF (.fsqrt a b) a (sqrtF k.fpcsr.rnd (k.getF b))

/-- FNEG and FABS: a sign change of bits; a rational zero gives the canonical zero, and RUNS becomes 0 (07 R212, 08 R231, R224). -/
def State.fpSign (s : State) (i : Instr) (a b : FReg) (f : Word → Word) : Res :=
  let k := s.ctx
  let y := k.getF b
  if k.rm then s.ratDone i 0 0 (fun k => k.setF a (slashSign y (f y))) else s.done (fun k => k.setF a (f y))

/-- FNEG inverts bit 31 (07 R212, 08 R231). -/
def execFneg (a b : FReg) (s : State) : Res :=
  s.fpSign (.fneg a b) a b (· ^^^ 0x80000000)
/-- FABS clears bit 31 (07 R212, 08 R231). -/
def execFabs (a b : FReg) (s : State) : Res :=
  s.fpSign (.fabs a b) a b (· &&& 0x7FFFFFFF)
/-- FMOV copies bits in either mode (07 R212, 08 R231). -/
def execFmov (a b : FReg) (s : State) : Res :=
  let y := s.ctx.getF b
  s.done (fun k => k.setF a y)
/-- FEQ (07 R213, 08 R236). -/
def execFeq (a b : FReg) (s : State) : Res :=
  s.fpCmp (.feq a b) a b eqF slashEq
/-- FLT (07 R213, 08 R236). -/
def execFlt (a b : FReg) (s : State) : Res :=
  s.fpCmp (.flt a b) a b ltF slashLt
/-- FLE (07 R213, 08 R236). -/
def execFle (a b : FReg) (s : State) : Res :=
  s.fpCmp (.fle a b) a b leF slashLe
/-- FUNORD (07 R213, 08 R236). -/
def execFunord (a b : FReg) (s : State) : Res :=
  s.fpCmp (.funord a b) a b unordF slashUnord
/-- FCLASS (07 R214, 08 R236). -/
def execFclass (a : XReg) (b : FReg) (s : State) : Res :=
  let k := s.ctx
  if k.rm then s.ratDone (.fclass a b) 0 0 (fun q => q.setX a (slashClass (k.getF b))) else s.done (fun q => q.setX a (classF (k.getF b)))
/-- FCVT.I32 (07 R198, 08 R237). -/
def execFcvtI32 (a : XReg) (b : FReg) (s : State) : Res :=
  s.fpToInt (.fcvtI32 a b) a b (fun m y => y.toI32 m)
/-- FCVT.N32 (07 R198, 08 R237). -/
def execFcvtN32 (a : XReg) (b : FReg) (s : State) : Res :=
  s.fpToInt (.fcvtN32 a b) a b (fun m y => y.toN32 m)
/-- FMV.X moves bits in either mode (07 R215, 08 R231). -/
def execFmvX (a : XReg) (b : FReg) (s : State) : Res :=
  let y := s.ctx.getF b
  s.done (fun k => k.setX a y)
/-- FCVT.BF16 (07 R196, 08 R237). -/
def execFcvtBf16 (a : XReg) (b : FReg) (s : State) : Res :=
  s.fpNarrow (.fcvtBf16 a b) a b bf16 false
/-- FCVT.E4M3 (07 R196, 08 R237). -/
def execFcvtE4m3 (a : XReg) (b : FReg) (s : State) : Res :=
  s.fpNarrow (.fcvtE4m3 a b) a b e4m3 false
/-- FCVT.E5M2 (07 R196, 08 R237). -/
def execFcvtE5m2 (a : XReg) (b : FReg) (s : State) : Res :=
  s.fpNarrow (.fcvtE5m2 a b) a b e5m2 false
/-- FCVT.BF16.SAT (07 R196, 08 R237). -/
def execFcvtBf16Sat (a : XReg) (b : FReg) (s : State) : Res :=
  s.fpNarrow (.fcvtBf16Sat a b) a b bf16 true
/-- FCVT.E4M3.SAT (07 R196, 08 R237). -/
def execFcvtE4m3Sat (a : XReg) (b : FReg) (s : State) : Res :=
  s.fpNarrow (.fcvtE4m3Sat a b) a b e4m3 true
/-- FCVT.E5M2.SAT (07 R196, 08 R237). -/
def execFcvtE5m2Sat (a : XReg) (b : FReg) (s : State) : Res :=
  s.fpNarrow (.fcvtE5m2Sat a b) a b e5m2 true
/-- FCVTF.I32 (07 R216, 08 R237). -/
def execFcvtfI32 (a : FReg) (b : XReg) (s : State) : Res :=
  s.fpOfInt (.fcvtfI32 a b) a (s.ctx.getX b).toInt
/-- FCVTF.N32 (07 R216, 08 R237). -/
def execFcvtfN32 (a : FReg) (b : XReg) (s : State) : Res :=
  s.fpOfInt (.fcvtfN32 a b) a (s.ctx.getX b).toNat
/-- FMV.F moves bits in either mode (07 R216, 08 R231). -/
def execFmvF (a : FReg) (b : XReg) (s : State) : Res :=
  let y := s.ctx.getX b
  s.done (fun k => k.setF a y)
/-- FCVTF.BF16 (07 R216, 08 R237). -/
def execFcvtfBf16 (a : FReg) (b : XReg) (s : State) : Res :=
  s.fpWiden (.fcvtfBf16 a b) a b bf16
/-- FCVTF.E4M3 (07 R216, 08 R237). -/
def execFcvtfE4m3 (a : FReg) (b : XReg) (s : State) : Res :=
  s.fpWiden (.fcvtfE4m3 a b) a b e4m3
/-- FCVTF.E5M2 (07 R216, 08 R237). -/
def execFcvtfE5m2 (a : FReg) (b : XReg) (s : State) : Res :=
  s.fpWiden (.fcvtfE5m2 a b) a b e5m2

/-! ### Slash-specific instructions, in either mode (08 R238-R243) -/

/-- SMK (08 R238). -/
def execSmk (a : FReg) (b c : XReg) (s : State) : Res :=
  s.toSlashF (.smk a b c) a (slashMake s.ctx.rcsr.rmode (s.ctx.getX b).toInt (s.ctx.getX c).toInt)

/-- SNUM, SDEN and SBND: a field of f[b], without flags; RUNS becomes 0 (08 R239, R224). -/
def State.slashField (s : State) (i : Instr) (a : XReg) (b : FReg) (f : Word → Word) : Res :=
  let y := s.ctx.getF b
  s.ratDone i 0 0 (fun k => k.setX a (f y))

/-- SNUM (08 R239). -/
def execSnum (a : XReg) (b : FReg) (s : State) : Res :=
  s.slashField (.snum a b) a b slashNum
/-- SDEN (08 R239). -/
def execSden (a : XReg) (b : FReg) (s : State) : Res :=
  s.slashField (.sden a b) a b slashDen
/-- SBND (08 R239). -/
def execSbnd (a : XReg) (b : FReg) (s : State) : Res :=
  s.slashField (.sbnd a b) a b slashBnd
/-- SMED (08 R240). -/
def execSmed (a b : FReg) (c : Option FReg) (s : State) : Res :=
  let o := s.ctx.fOperands a b c
  s.toSlashF (.smed a b c) a (slashMediant s.ctx.rcsr.rmode o.1 o.2)
/-- SREC (08 R241). -/
def execSrec (a b : FReg) (s : State) : Res := s.toSlashF (.srec a b) a (slashRec (s.ctx.getF b))
/-- SCVTF (08 R242). -/
def execScvtf (a : FReg) (b : XReg) (s : State) : Res :=
  s.toSlashF (.scvtf a b) a ((num32 (s.ctx.getX b)).toSlash s.ctx.rcsr.rmode)
/-- FCVTS: flags go to FPCSR (08 R243). -/
def execFcvts (a : XReg) (b : FReg) (s : State) : Res :=
  let y := Slash.ofWord (s.ctx.getF b)
  let r := round32 s.ctx.fpcsr.rnd (y.toNum, flagIf y.isInvalid Flag.nv)
  s.fpDone (.fcvts a b) r.2 false (fun k => k.setX a r.1)

end Sys2Proof.Machine
end

