-- ==== Sys2Proof/Machine/Links.lean ====
section
/-!
DEFINITION. Machine/Links.lean: Rellor link ports: flits, acknowledgment, replay, retraining, and the loss of a link (13 R401; 22
R528-R530).
-/
namespace Sys2Proof.Machine

/-- Change a port; a change of its state raises vector 18 of the PF (22 R523). -/
def State.updPort (s : State) (p : Nat) (f : Port → Port) : State :=
  let x := s.portOf p
  let y := f x
  let s := { s with ports := assign s.ports p y }
  if x.state = y.state then s else s.updFunc 0 (fun g => g.raise 18)

/-! ### Link flits (22 R528) -/

/-- A 16-bit field of a flit. -/
def flitHalf (flit : List Byte) (at_ : Nat) : Nat := natOfBytes ((flit.drop at_).take 2)
/-- SEQ[11:0], the type, ACK[11:0] and VALID. -/
def flitSeq (flit : List Byte) : BitVec 12 := BitVec.ofNat 12 (flitHalf flit 0)
def flitType (flit : List Byte) : Nat := flitHalf flit 0 / 4096
def flitAck (flit : List Byte) : BitVec 12 := BitVec.ofNat 12 (flitHalf flit 2)
def flitValid (flit : List Byte) (i : Nat) : Bool := ((flit[232]?).getD 0).getLsbD i

/-- The CRC of a flit of 256 bytes is right. -/
def flitOk (flit : List Byte) : Bool := flit.length = 256 && natOfBytes (flit.drop 248) = (crc64 (flit.take 248)).toNat

/-- A flit without slots, of a type. -/
def bareFlit (type : Nat) (seqNo ack : BitVec 12) : List Byte :=
  let body := bytesOf (type * 4096 + seqNo.toNat) 2 ++ bytesOf ack.toNat 2 ++ List.replicate 244 0
  body ++ bytesOf (crc64 body).toNat 8

/-- The virtual channel of a flit, and SLOTINFO of a slot. -/
def flitChannel (flit : List Byte) : Nat := flitHalf flit 2 / 4096
def flitInfo (flit : List Byte) (i : Nat) : Byte := (flit[233 + i]?).getD 0

/-- The slots that hold mesh flits, in slot order, with the virtual channel and SLOTINFO. -/
def flitSlots (flit : List Byte) : List (Nat × Byte × List Byte) :=
  ((List.range 7).filter (flitValid flit)).map (fun i => (flitChannel flit, flitInfo flit i, (flit.drop (8 + 32 * i)).take 32))

/-- The last data flit received in order, which acknowledgments name. -/
def Port.lastGot (p : Port) : BitVec 12 := p.expect - 1

/-- NAK: it names the expected SEQ (22 R529). -/
def Port.nak (p : Port) : Port := { p with outbox := bareFlit 2 p.expect p.lastGot :: p.outbox }

/-- An idle flit goes out, which carries the cumulative acknowledgment (22 R528). -/
def Port.acknowledge (p : Port) : Port := { p with outbox := bareFlit 1 p.nextSeq p.lastGot :: p.outbox }

/-- A cumulative acknowledgment frees the flits up to it (22 R528, R529). -/
def Port.acked (p : Port) (ack : BitVec 12) (time : Nat) : Port :=
  let open_ (q : BitVec 12) : Bool := 2048 ≤ (ack - q).toNat
  { p with
    replay := p.replay.filter (fun r => open_ r.1), entered := p.entered.filter (fun m => m.2.all open_), lastAck := ack, ackAt := time }

/-! ### Sending (22 R528) -/

/-- The mesh flits of a message: SLOTINFO marks the first and the last. Their number, their bytes and the virtual channel are free (log 42). -/
def messageFlits (d : Nat) : List (Nat × Byte × List Byte) :=
  let n := Config.meshFlits d + 1
  (List.range n).map (fun i =>
    (Config.linkChannel % 3, BitVec.ofNat 8 (bit (i = 0) * 128 + bit (i + 1 = n) * 64), (List.range 32).map (Config.meshFlit d i)))

/-- A data flit of at most seven mesh flits, in slot order; the bytes of unused slots, which VALID marks, are free. -/
def dataFlit (seqNo ack : BitVec 12) (vc : Nat) (slots : List (Byte × List Byte)) (d : Nat) : List Byte :=
  let slot (i : Nat) : List Byte := match slots[i]? with
    | some x => x.2
    | none => (List.range 32).map (Config.meshFlit d i)
  let info (i : Nat) : Byte := match slots[i]? with
    | some x => x.1
    | none => 0
  let body := bytesOf seqNo.toNat 2 ++ bytesOf (vc * 4096 + ack.toNat) 2 ++ List.replicate 4 0 ++ (List.range 7).flatMap slot ++
    [BitVec.ofNat 8 (2 ^ slots.length - 1)] ++ (List.range 7).map info ++ List.replicate 8 0
  body ++ bytesOf (crc64 body).toNat 8

/-- The oldest `n` messages whose last flit is still to be formed get the data flit that holds it. -/
def closeMessages (seqNo : BitVec 12) : Nat → List (Mesh × Option (BitVec 12)) → List (Mesh × Option (BitVec 12))
  | 0, l => l
  | _, [] => []
  | n + 1, (m, none) :: rest => (m, some seqNo) :: closeMessages seqNo n rest
  | n + 1, x :: rest => x :: closeMessages seqNo (n + 1) rest

/-- The port forms a data flit from its queue for the virtual channel of its oldest mesh flit, sends it, and keeps it until it is
acknowledged. -/
def Port.formFlit (p : Port) (d : Nat) : Port :=
  match p.queue with
  | [] => p
  | (vc, _, _) :: _ =>
    let mine := p.queue.filter (fun x => x.1 = vc)
    let slots := (mine.take 7).map (·.2)
    let flit := dataFlit p.nextSeq p.lastGot vc slots d
    { p with
      queue := mine.drop 7 ++ p.queue.filter (fun x => x.1 ≠ vc)
      entered := closeMessages p.nextSeq (slots.countP (fun x => x.1.getLsbD 6)) p.entered
      replay := p.replay ++ [(p.nextSeq, flit, 0)], outbox := flit :: p.outbox, nextSeq := p.nextSeq + 1 }

/-! ### Replay and retraining (22 R529) -/

/-- Replay from a flit on, in order; a flit replayed four times makes the port retrain. -/
def Port.resend (p : Port) (seqNo : BitVec 12) (time : Nat) : Port :=
  let tail := p.replay.dropWhile (fun r => r.1 ≠ seqNo)
  if tail = [] then p
  else
    let again := tail.map (fun r => (r.1, r.2.1, r.2.2 + 1))
    let p := { p with
      replay := p.replay.takeWhile (fun r => r.1 ≠ seqNo) ++ again, outbox := (tail.map (·.2.1)).reverse ++ p.outbox, replays := p.replays + 1 }
    if again.any (fun r => 4 ≤ r.2.2) then { p with state := .retraining, retrains := p.retrains + 1, retrainAt := time } else p

/-- A flit with a right CRC at a port that is up. A data flit is acknowledged, one received before too; one beyond the expected makes a
NAK. -/
def Port.receive (p : Port) (flit : List Byte) (time : Nat) : Port :=
  let p := p.acked (flitAck flit) time
  match flitType flit with
  | 0 =>
    if flitSeq flit = p.expect then { p with expect := p.expect + 1, inbox := (flitSlots flit).reverse ++ p.inbox }.acknowledge
    else if (p.expect - flitSeq flit).toNat < 2048 then p.acknowledge
    else p.nak
  | 2 => p.resend (flitSeq flit) time
  | _ => p

/-- LINK_FLIT_RECEIVE (22 R528, R529): a port that is down or retraining receives nothing. -/
def execLinkFlitReceive (port : Nat) (flit : List (BitVec 8)) (s : State) : Res :=
  if 64 ≤ port ∨ (s.portOf port).state ≠ .up then .next s
  else if flitOk flit then .next (s.updPort port (fun p => p.receive flit s.time.toNat))
  else .next (s.updPort port Port.nak)

/-- LINK_REPLAY (22 R529). -/
def execLinkReplay (port : Nat) (seq : BitVec 12) (s : State) : Res :=
  if 64 ≤ port ∨ (s.portOf port).state ≠ .up then .next s else .next (s.updPort port (fun p => p.resend seq s.time.toNat))

/-- A port begins to retrain. -/
def Port.retrain (p : Port) (time : Nat) : Port :=
  if p.state = .up then { p with state := .retraining, retrains := p.retrains + 1, retrainAt := time } else p

/-- ACK_TIMEOUT (22 R529): 10 µs, which are 11,000 cycles, without an acknowledgment. -/
def execAckTimeout (port : Nat) (s : State) : Res :=
  if 64 ≤ port ∨ s.time.toNat < (s.portOf port).ackAt + 11000 then .next s else .next (s.updPort port (fun p => p.retrain s.time.toNat))

/-- LINK_RETRAIN (22 R529): lane lock is lost. -/
def execLinkRetrain (port : Nat) (s : State) : Res :=
  if 64 ≤ port then .next s else .next (s.updPort port (fun p => p.retrain s.time.toNat))

/-- RETRAIN_COMPLETE (22 R529): all lanes are back within 1 ms, and the replay buffer is sent again in full. -/
def execRetrainComplete (port : Nat) (s : State) : Res :=
  let x := s.portOf port
  if 64 ≤ port ∨ x.state ≠ .retraining ∨ x.retrainAt + 1100000 ≤ s.time.toNat then .next s
  else
    .next (s.updPort port (fun p => { p with
      state := .up, ackAt := s.time.toNat, outbox := (p.replay.map (·.2.1)).reverse ++ p.outbox
      replay := p.replay.map (fun r => (r.1, r.2.1, 0)) }))

/-! ### Link loss (13 R401; 22 R529, R530) -/

/-- An end of a channel whose route goes by a port is closed with cause LINK at its current state. -/
def Ep.cut (e : Ep) (port : Nat) : Ep :=
  if e.st = .opened && e.port = some port then { e with st := .closed, closedAt := (3, e.state, e.ctr) } else e

/-- So is a delegated end on its way in a message of another channel. -/
def EpImage.cut (g : EpImage) (port : Nat) : EpImage :=
  if g.port = some port && g.closed.isNone then
    { g with closed := some (3, g.state, if g.auto.hc g.state then (g.ctrs[g.state]?).getD 0 else 0) }
  else g

/-- Every end whose channel goes by the port, in place, saved, or carried by a message (13 R401). -/
def State.cutEnds (s : State) (port : Nat) : State := s.mapEnds { ep := (·.cut port), carried := (·.cut port), port := id }

/-- A stub whose channel goes by the port forwards the closure to the new holder (13 R398, R401). -/
def State.cutStub (port : Nat) (s : State) (x : AgentId × Stub) : State :=
  if x.2.port = some port then s.stubTakes x.1 x.2 false (.close 3 (some x.2.state) x.2.ctr) else s

/-- Stubs saved with their clusters: they hold the closure until they are restored. -/
def Stub.cutSaved (t : Stub) (port : Nat) : Stub :=
  if t.port = some port then
    (if t.earlier then { t with direct := t.direct ++ [.close 3 (some t.state) t.ctr] } else { t with items := t.items ++ [.close 3 (some t.state) t.ctr] })
  else t

/-- The stubs of the module. -/
def State.cutAllStubs (s : State) (port : Nat) : State :=
  let s := (s.units.flatMap (fun p => p.2.stubs.map (fun t => (p.1, t)))).foldl (State.cutStub port) s
  { s with switches := s.switches.map (fun w => (w.1, { w.2 with
      units := w.2.units.map (fun p => (p.1, { p.2 with stubs := p.2.stubs.map (·.cutSaved port) })) })) }

/-- Something bound for another module goes by the port. -/
def Mesh.goesBy (port : Nat) : Mesh → Bool
  | .away _ p _ => p = some port
  | _ => false

/-- Messages enter link flits while a data flit has room for more, in their order in the mesh, at most `n`. -/
def State.enterFlits (s : State) (port : Nat) : Nat → State
  | 0 => s
  | n + 1 =>
    match s.mesh.find? (Mesh.goesBy port) with
    | none => s
    | some m =>
      if 7 ≤ (s.portOf port).queue.length then s
      else
        State.enterFlits ({ s with mesh := s.mesh.erase m, draws := s.draws + 1 }.updPort port (fun p => { p with
          queue := p.queue ++ messageFlits s.draws, entered := p.entered ++ [(m, none)] })) port n

/-- A port that is up sends a data flit of what waits for it, while it keeps fewer than 2,048 (22 R528, R529). -/
def State.flitPart (s : State) (port : Nat) : State :=
  let x := s.portOf port
  if x.state ≠ .up ∨ 2048 ≤ x.replay.length then s
  else
    let s := s.enterFlits port 7
    { s with draws := s.draws + 1 }.updPort port (fun p => p.formFlit s.draws)

/-- What is lost in flight: an endpoint message closes its channel at the carried state; a request is answered with NOAGENT. -/
def State.lose (s : State) (m : Mesh) : State :=
  match m with
  | .away _ _ (.msg _ _ _ _ _ _ g) => s.discardEnd g 3
  | .away mod _ (.request r) => s.send s.modnum none (.outcome r.src r.dst mod 0 0 (.reason 3))
  | _ => s

/-- LINK_DOWN (13 R401; 22 R529): a port that has not retrained within 1 ms. -/
def execLinkDown (port : Nat) (s : State) : Res :=
  let x := s.portOf port
  if 64 ≤ port ∨ x.state ≠ .retraining ∨ s.time.toNat < x.retrainAt + 1100000 then .next s
  else
    let gone := x.entered.map (·.1) ++ s.mesh.filter (Mesh.goesBy port) ++ s.switches.flatMap (fun w => w.2.mesh.filter (Mesh.goesBy port))
    let t := ((s.cutEnds port).cutAllStubs port).updPort port (fun p => { p with state := .down, downs := p.downs + 1, replay := [], queue := [], entered := [] })
    let t : State := { t with
      mesh := t.mesh.filter (fun m => !m.goesBy port)
      switches := t.switches.map (fun w => (w.1, { w.2 with mesh := w.2.mesh.filter (fun m => !m.goesBy port) })) }
    .next (gone.foldl State.lose t)

/-- LINK_UP (22 R529): service firmware brings a port up again, with its sequence numbers at zero. -/
def execLinkUp (port : Nat) (s : State) : Res :=
  if 64 ≤ port ∨ s.bootStage < 5 ∨ (s.portOf port).state ≠ .down then .next s
  else
    .next (s.updPort port (fun p => { p with
      state := .up, nextSeq := 0, expect := 0, replay := [], ackAt := s.time.toNat, outbox := [], inbox := [], lastAck := 0, queue := [], entered := [] }))

end Sys2Proof.Machine
end

