-- ==== Sys2Proof/Machine/Host.lean ====
section
/-!
DEFINITION. Machine/Host.lean: what the host reaches through the BARs of a function: queue windows, the function page, shared SRAM and
DRAM (03 R49; 22 R523-R526).
-/
namespace Sys2Proof.Machine

/-! ### Words of an access -/

/-- The words that `size` bytes from `off` touch, with their byte enables: word offset, first byte and last byte within it. -/
def accessWords (off size : Nat) : List (Nat × Nat × Nat) :=
  if size = 0 then []
  else
    (List.range ((off + size - 1) / 4 - off / 4 + 1)).map (fun i =>
      let w := (off / 4 + i) * 4
      (w, max off w - w, min (off + size) (w + 4) - 1 - w))

/-- Bytes `lo` to `hi` of a word replaced by those of another. -/
def mergeWord (old new : Word) (lo hi : Nat) : Word :=
  BitVec.ofNat 32 (natOfBytes ((List.range 4).map (fun i =>
    if lo ≤ i && i ≤ hi then (wordBytes4 new)[i]! else (wordBytes4 old)[i]!)))

/-- The word of a value of an access that begins at `off` which goes to the word at `w`, in its byte places. -/
def valueWord (off w : Nat) (value : BitVec 64) : Word :=
  if w < off then BitVec.ofNat 32 (value.toNat * 2 ^ (8 * (off - w))) else BitVec.ofNat 32 (value.toNat / 2 ^ (8 * (w - off)))

/-! ### Queue windows (03 R49, R54) -/

/-- SQ_REFUSE. -/
def HostQueue.refusal (h : HostQueue) : Word := BitVec.ofNat 32 (h.refCount * 2 ^ 16 + h.refEntry.toNat * 2 ^ 8 + h.refReason.toNat)

/-- AM_STATUS. -/
def HostQueue.status (h : HostQueue) : Word :=
  BitVec.ofNat 32 (((List.range 8).map (fun n => (h.amStatus[n]!).toNat * 2 ^ (4 * n))).sum)

/-- A word of a queue window as read. -/
def HostQueue.read (h : HostQueue) (q off : Nat) : Word :=
  if off < 0x800 then lookupD 0 h.entries (off / 4)
  else if off < 0x880 then lookupD 0 h.slotWords ((off - 0x800) / 4)
  else if off = 0x900 then h.sqTail.setWidth 32
  else if off = 0x904 then h.sqHead.setWidth 32
  else if off = 0x908 then h.refusal
  else if off = 0x910 then h.status
  else if off = 0x914 then h.amDone
  else if off = 0x918 then BitVec.ofNat 32 (h.fcause.toNat * 2 ^ 24 + bit h.fv * 2 ^ 23 + h.fctx.toNat)
  else if off = 0x920 then h.text.setWidth 32
  else if off = 0x924 then (h.text.extractLsb' 32 16).setWidth 32
  else if off = 0x928 then BitVec.ofNat 32 (q * 2 ^ 16 + h.svc)
  else if off = 0x930 then BitVec.ofNat 32 (h.lstate.toNat * 2 ^ 28 + h.lstack % 16 * 2 ^ 24 + h.lchan % 64 * 2 ^ 18 + h.lcause.toNat)
  else 0

/-- A write of a word of a queue window; before stage 6 all are ignored (22 R535). -/
def State.writeWindow (s : State) (q off : Nat) (w : Word) : State :=
  if s.bootStage ≠ 6 then s
  else if off < 0x800 then s.updQueue q (fun h => h.writeEntry (off / 4) w)
  else if off < 0x880 then s.updQueue q (fun h => { h with slotWords := assign h.slotWords ((off - 0x800) / 4) w })
  else if off = 0x900 then
    (match execSqTailDoorbell q (w.setWidth 16) s with
      | .next t => t
      | .fault _ => s
      | .refused _ => s)
  else if off = 0x90C then
    (match execAmBell q (w.setWidth 3) s with
      | .next t => t
      | .fault _ => s
      | .refused _ => s)
  else if off = 0x920 then s.updQueue q (fun h => { h with text := h.text.extractLsb' 32 16 ++ (w &&& 0xFFFFFFFE) })
  else if off = 0x924 then s.updQueue q (fun h => { h with text := w.setWidth 16 ++ h.text.setWidth 32 })
  else s

/-! ### The function page (22 R526) -/

/-- A word of the function page as read. -/
def State.readPage (s : State) (func off : Nat) : Word :=
  let f := s.funcOf func
  if off < 0x20 then f.nonce[off / 4]!
  else if off = 0x20 then BitVec.ofNat 32 (2 * bit f.ready + bit f.req)
  else if 0x100 ≤ off ∧ off < 0x380 then wordOfBytes ((f.report.drop (off - 0x100)).take 4)
  else if 0x400 ≤ off ∧ off < 0x800 then lookupD 0 f.telem off
  else if func ≠ 0 then 0
  else if off = 0x800 then BitVec.ofNat 32 (s.bootErr.toNat * 2 ^ 8 + s.bootStage)
  else if off = 0x804 then s.tdQnum.setWidth 32
  else if off = 0x808 then BitVec.ofNat 32 (bit s.tearBusy * 2 ^ 31)
  else if off = 0x810 then BitVec.ofNat 32 s.plimit
  else if 0xC00 ≤ off ∧ off < 0xF00 then lookupD 0 f.telem off
  else 0

/-- READY is cleared by writing one; a write of REQ = 1 requests a report. -/
def Func.control (f : Func) (w : Word) : Func :=
  let f := { f with ready := f.ready && !w.getLsbD 1 }
  if w.getLsbD 0 && !f.req then { f with req := true, asked := f.nonce } else f

/-- A write of a word of the function page. PLIMIT keeps its value on a reserved one (00 R6); a write of QNUM and GO is ignored while
BUSY. -/
def State.writePage (s : State) (func off : Nat) (w : Word) : State :=
  if off < 0x20 then s.updFunc func (fun f => { f with nonce := f.nonce.set! (off / 4) w })
  else if off = 0x20 then s.updFunc func (fun f => f.control w)
  else if func ≠ 0 then s
  else if off = 0x804 then
    if s.tearBusy then s
    else
      let s := { s with tdQnum := w.setWidth 10 }
      if w.getLsbD 31 then s.tearDown (w.toNat % 1024) else s
  else if off = 0x810 then
    let n := w.toNat % 2048
    if 100 ≤ n ∧ n ≤ 1200 then { s with plimit := n } else s
  else s

/-! ### BAR 0 -/

/-- A word of BAR 0 as read. -/
def State.readBar0 (s : State) (func off : Nat) : Word :=
  if off < 0x10000 then
    let q := func * 16 + off / 0x1000
    match lookup? s.queues q with
    | some h => h.read q (off % 0x1000)
    | none => 0
  else if off < 0x11000 then s.readPage func (off - 0x10000)
  else 0

/-- A write of a word of BAR 0. -/
def State.writeBar0 (s : State) (func off : Nat) (w : Word) : State :=
  if off < 0x10000 then s.writeWindow (func * 16 + off / 0x1000) (off % 0x1000) w
  else if off < 0x11000 then s.writePage func (off - 0x10000) w
  else s

/-- What the bytes of a word that an access does not carry are taken to be: as read, and READY as 0, which a write of ones alone clears
(log 43). -/
def State.restOfWord (s : State) (func off : Nat) : Word :=
  if off = 0x10020 then s.readBar0 func off &&& 0xFFFFFFFD else s.readBar0 func off

/-! ### The MSI-X capability and table (02 R47; PRESUMED as PCIe defines them, log 19)

Reached under the BAR number 7, which no function has: the table entry of vector v at 16 v (message address, upper address, data, vector
control), pending bits at 0x400, message control at 0x800. -/

/-- Pending vectors that are no longer masked are sent, in ascending order. -/
def Func.sendPending (f : Func) : Func :=
  (List.range 32).foldl (fun f v => if f.vecMask.getLsbD v then f else f.unmask v) f

def Func.readMsix (f : Func) (off : Nat) : Word :=
  if off < 0x200 then
    let addr := f.vecAddr.toList.getD (off / 16) 0
    match off % 16 with
    | 0 => addr.setWidth 32
    | 4 => addr.extractLsb' 32 32
    | 8 => f.vecData.toList.getD (off / 16) 0
    | _ => BitVec.ofNat 32 (bit (f.vecMask.getLsbD (off / 16)))
  else if off = 0x400 then f.vecPend
  else if off = 0x800 then BitVec.ofNat 32 (bit f.msixEnable * 2 ^ 15 + bit f.msixMask * 2 ^ 14 + 31)
  else 0

def Func.writeMsix (f : Func) (off : Nat) (w : Word) : Func :=
  if off < 0x200 then
    let v := off / 16
    let addr := f.vecAddr.toList.getD v 0
    match off % 16 with
    | 0 => { f with vecAddr := f.vecAddr.set! v (addr.extractLsb' 32 32 ++ (w &&& 0xFFFFFFFC)) }
    | 4 => { f with vecAddr := f.vecAddr.set! v (w ++ addr.setWidth 32) }
    | 8 => { f with vecData := f.vecData.set! v w }
    | _ => if w.getLsbD 0 then { f with vecMask := f.vecMask ||| vecBit v } else f.unmask v
  else if off = 0x800 then { f with msixEnable := w.getLsbD 15, msixMask := w.getLsbD 14 }.sendPending
  else f

/-! ### BARs 2 and 4 (22 R524, R525) -/

/-- The slice and offset that an offset of BAR 2 reaches, if any. -/
def bar2Home (off : Nat) : Option (Nat × Nat × Nat) :=
  let a := off % 0x08000000
  if 0x80000000 ≤ off ∨ 100663296 ≤ a then none
  else some (off / 0x08000000, a / 256 % 64, a / 16384 * 256 + a % 256)

/-- The tenant that a byte of DRAM belongs to, by the row owner table of its memory core (12 R357). -/
def State.rowTenant (s : State) (flat : Nat) : Option Nat :=
  let o := flat % 2 ^ 44
  lookup? (s.hartOf (.memoryCore (o / 2 ^ 36) (o / 2 ^ 30 % 64))).owners (o % 2 ^ 30 / 2 ^ 21)

/-- The number of a word that a function reaches through BAR 2 or 4; none where the access fails. -/
def State.barWord (s : State) (func bar off : Nat) (i : Intent) : State × Option Nat :=
  let check (s : State) (flat : Nat) : State × Option Nat := if s.hasBad flat 4 then (s, none) else (s, some flat)
  if bar = 2 then
    match bar2Home off with
    | some (st, sl, o) => if s.sliceTenant st sl o = some func then check s (sliceAt st sl o) else (s, none)
    | none => (s, none)
  else if 2 ^ 48 ≤ off then (s, none)
  else
    match s.vaFlat func off i with
    | (s, some flat) => if s.rowTenant flat = some func then check s flat else (s, none)
    | (s, none) => (s, none)

/-- The numbers of all words of an access; none where one fails. -/
def State.barWords (s : State) (func bar : Nat) (i : Intent) : List (Nat × Nat × Nat) → State × Option (List (Nat × Nat × Nat × Nat))
  | [] => (s, some [])
  | x :: rest =>
    match s.barWord func bar x.1 i with
    | (s, none) => (s, none)
    | (s, some flat) =>
      match s.barWords func bar i rest with
      | (s, some l) => (s, some ((flat, x) :: l))
      | (s, none) => (s, none)

/-- A failed access counts in ACCERR. -/
def State.barFails (s : State) (func : Nat) : State := s.updFunc func (fun f => { f with accerr := f.accerr + 1 })

/-- Store the enabled bytes of a word for the host, which the trace ring of a slice records (18 R495). -/
def State.hostStore (s : State) (func flat lo hi : Nat) (w : Word) : State :=
  let s := (s.correct flat 4).storeBytes (flat + lo) (((wordBytes4 w).drop lo).take (hi + 1 - lo))
  if flat / 2 ^ 44 = 3 then
    s.ringEntry ((flat - space 3) / 0x180000 / 64) ((flat - space 3) / 0x180000 % 64) ((flat - space 3) % 0x180000) 5 s.cur true func
      (((List.range 4).map (fun i => if lo ≤ i && i ≤ hi then 2 ^ i else 0)).sum) (s.wordAt flat)
  else s

/-- The value of a read from its words, from the first byte of the access on. -/
def gather (off size : Nat) (ws : List Word) : BitVec 64 :=
  BitVec.ofNat 64 (natOfBytes (((ws.flatMap wordBytes4).drop (off % 4)).take size))

/-- A posted write is performed (22 R524, R525, R535). -/
def State.hostWrite (s : State) (x : HostWrite) : State :=
  let ws := accessWords x.off x.size
  if x.bar = 0 ∧ x.off + x.size ≤ 0x20000 then
    ws.foldl (fun s w =>
      s.writeBar0 x.func w.1 (mergeWord (s.restOfWord x.func w.1) (valueWord x.off w.1 x.value) w.2.1 w.2.2)) s
  else if x.bar = 7 then
    s.updFunc x.func (fun f => ws.foldl (fun f w =>
      f.writeMsix w.1 (mergeWord (f.readMsix w.1) (valueWord x.off w.1 x.value) w.2.1 w.2.2)) f)
  else if x.bar = 2 ∨ x.bar = 4 then
    if s.bootStage ≠ 6 then s
    else
      match s.barWords x.func x.bar .write ws with
      | (s, some l) => l.foldl (fun s w => s.hostStore x.func w.1 w.2.2.1 w.2.2.2 (valueWord x.off w.2.1 x.value)) s
      | (s, none) => s.barFails x.func
  else s

/-- One of the posted writes that wait is performed (17 R473). -/
def State.performHost (s : State) (n : Nat) : State :=
  match s.hostWrites[n]? with
  | some x => { s with hostWrites := s.hostWrites.eraseIdx n }.hostWrite x
  | none => s

/-- Every posted write of a function that has arrived is performed, before a read of the function (17 R473). -/
def State.settleHost (s : State) (func : Nat) : State :=
  (s.hostWrites.filter (fun x => x.func = func)).foldl State.hostWrite
    { s with hostWrites := s.hostWrites.filter (fun x => x.func ≠ func) }

/-- A read completes with data, or with Unsupported Request. -/
def State.answerHost (s : State) (code : Nat) (v : BitVec 64) : Res := .next { s with hostData := some (code, v) }

/-- HOST_BAR_READ (17 R473; 22 R524, R525, R535): what the host receives stands in `hostData`: 0 and the data, or 1 for Unsupported
Request. -/
def execHostBarRead (func bar off size : Nat) (s : State) : Res :=
  let s := s.settleHost func
  let ws := accessWords off size
  if 64 ≤ func ∨ size = 0 ∨ 8 < size then s.answerHost 1 0
  else if bar = 0 ∧ off + size ≤ 0x20000 then s.answerHost 0 (gather off size (ws.map (fun x => s.readBar0 func x.1)))
  else if bar = 7 then s.answerHost 0 (gather off size (ws.map (fun x => (s.funcOf func).readMsix x.1)))
  else if bar = 2 ∨ bar = 4 then
    if s.bootStage ≠ 6 then s.answerHost 1 0
    else
      match s.barWords func bar .read ws with
      | (s, some l) =>
        let t := l.foldl (fun s x => s.correct x.1 4) s
        t.answerHost 0 (gather off size (l.map (fun x => t.wordAt x.1)))
      | (s, none) => (s.barFails func).answerHost 1 0
  else s.answerHost 1 0

/-- HOST_BAR_WRITE (17 R473; 22 R524, R525, R535): a write arrives. One whose Relaxed Ordering attribute is clear is performed now; one with
it set, whose BAR number is given as 8 more, is performed at a moment of its own. -/
def execHostBarWrite (func bar off size : Nat) (value : BitVec 64) (s : State) : Res :=
  if 64 ≤ func ∨ size = 0 ∨ 8 < size then .next s
  else if 8 ≤ bar then .next { s with hostWrites := s.hostWrites ++ [⟨func, bar - 8, off, size, value⟩] }
  else .next (s.hostWrite ⟨func, bar, off, size, value⟩)

end Sys2Proof.Machine
end

