-- ==== Sys2Proof/Machine/LaneMem.lean ====
section
/-!
DEFINITION. Machine/LaneMem.lean: the page 3 instructions of the vector lanes at issue (10 R279-R291).
-/
namespace Sys2Proof.Machine

/-- Offsets of the elements below VL. -/
def vecOffs (vl : Nat) (stride : Word) : List Word := (List.range vl).map (fun i => BitVec.ofNat 32 i * stride)

/-- VLD (10 R281). -/
def execVld (a : VReg) (b : XReg) (imm : Imm) (m : VMask) (s : State) : Res :=
  let ea := s.ctx.ea b imm 4
  s.vecMem true false (s.vecCheck true ea 0 (vecOffs s.ctx.vl 4) (4 * BitVec.ofNat 32 s.ctx.vl))
    (s.capture (.vld a b imm m) 0 0 0 ea)

/-- VST (10 R281). -/
def execVst (a : VReg) (b : XReg) (imm : Imm) (m : VMask) (s : State) : Res :=
  let ea := s.ctx.ea b imm 4
  s.vecMem false false (s.vecCheck false ea 0 (vecOffs s.ctx.vl 4) (4 * BitVec.ofNat 32 s.ctx.vl))
    (s.capture (.vst a b imm m) 0 0 0 ea)

/-- VLDS (10 R281). -/
def execVlds (a : VReg) (b c : XReg) (imm : Imm) (m : VMask) (s : State) : Res :=
  let ea := s.ctx.ea b imm 4
  let stride := s.ctx.getX c
  s.vecMem true false (s.vecCheck true ea stride (vecOffs s.ctx.vl stride) (stride * BitVec.ofNat 32 s.ctx.vl))
    (s.capture (.vlds a b c imm m) 0 (s.ctx.getX c) 0 ea)

/-- VSTS (10 R281). -/
def execVsts (a : VReg) (b c : XReg) (imm : Imm) (m : VMask) (s : State) : Res :=
  let ea := s.ctx.ea b imm 4
  let stride := s.ctx.getX c
  s.vecMem false false (s.vecCheck false ea stride (vecOffs s.ctx.vl stride) (stride * BitVec.ofNat 32 s.ctx.vl))
    (s.capture (.vsts a b c imm m) 0 (s.ctx.getX c) 0 ea)

/-- VLDB (10 R281). -/
def execVldb (a : VReg) (b : XReg) (imm : Imm) (m : VMask) (s : State) : Res :=
  let ea := s.ctx.ea b imm 4
  s.vecMem true false (s.vecCheck true ea 0 (vecOffs s.ctx.vl 0) 4)
    (s.capture (.vldb a b imm m) 0 0 0 ea)

/-- VLDX (10 R281). -/
def execVldx (a : VReg) (b : XReg) (c : VReg) (imm : Imm) (m : VMask) (s : State) : Res :=
  let ea := s.ctx.ea b imm 4
  s.vecMem true false (s.vecCheckIndexed true ea)
    (s.capture (.vldx a b c imm m) 0 0 0 ea)

/-- VSTX (10 R281). -/
def execVstx (a : VReg) (b : XReg) (c : VReg) (imm : Imm) (m : VMask) (s : State) : Res :=
  let ea := s.ctx.ea b imm 4
  s.vecMem false false (s.vecCheckIndexed false ea)
    (s.capture (.vstx a b c imm m) 0 0 0 ea)

/-- VPERM (10 R282). -/
def execVperm (a b : VReg) (c : Option VReg) (m : VMask) (s : State) : Res :=
  s.vecIssue false (s.capture (.vperm a b c m) 0 0 0 0)

/-- VZIP (10 R282). -/
def execVzip (a b : VReg) (c : Option VReg) (m : VMask) (s : State) : Res :=
  s.vecIssue false (s.capture (.vzip a b c m) 0 0 0 0)

/-- VUNZIP (10 R282). -/
def execVunzip (a b : VReg) (c : Option VReg) (m : VMask) (s : State) : Res :=
  s.vecIssue false (s.capture (.vunzip a b c m) 0 0 0 0)

/-- VREV (10 R282). -/
def execVrev (a b : VReg) (m : VMask) (s : State) : Res :=
  s.vecIssue false (s.capture (.vrev a b m) 0 0 0 0)

/-- VSLIDEUP (10 R282). -/
def execVslideup (a b : VReg) (c : XReg) (m : VMask) (s : State) : Res :=
  s.vecIssue false (s.capture (.vslideup a b c m) 0 (s.ctx.getX c) 0 0)

/-- VSLIDEDN (10 R282). -/
def execVslidedn (a b : VReg) (c : XReg) (m : VMask) (s : State) : Res :=
  s.vecIssue false (s.capture (.vslidedn a b c m) 0 (s.ctx.getX c) 0 0)

/-- VCOMPRESS (10 R283). -/
def execVcompress (a b : VReg) (m : VMask) (s : State) : Res :=
  s.vecIssue false (s.capture (.vcompress a b m) 0 0 0 0)

/-- VEXPAND (10 R283). -/
def execVexpand (a b : VReg) (m : VMask) (s : State) : Res :=
  s.vecIssue false (s.capture (.vexpand a b m) 0 0 0 0)

/-- VREDADD.F (10 R284). -/
def execVredaddF (a : FReg) (b : VReg) (m : VMask) (s : State) : Res :=
  s.vecIssue false (s.capture (.vredaddF a b m) 0 0 0 0)

/-- VREDMAX.F (10 R285). -/
def execVredmaxF (a : FReg) (b : VReg) (m : VMask) (s : State) : Res :=
  s.vecIssue false (s.capture (.vredmaxF a b m) 0 0 0 0)

/-- VREDMIN.F (10 R285). -/
def execVredminF (a : FReg) (b : VReg) (m : VMask) (s : State) : Res :=
  s.vecIssue false (s.capture (.vredminF a b m) 0 0 0 0)

/-- VREDADD.I (10 R285). -/
def execVredaddI (a : XReg) (b : VReg) (m : VMask) (s : State) : Res :=
  s.vecIssue false (s.capture (.vredaddI a b m) 0 0 0 0)

/-- VREDMAX.I (10 R285). -/
def execVredmaxI (a : XReg) (b : VReg) (m : VMask) (s : State) : Res :=
  s.vecIssue false (s.capture (.vredmaxI a b m) 0 0 0 0)

/-- VREDMIN.I (10 R285). -/
def execVredminI (a : XReg) (b : VReg) (m : VMask) (s : State) : Res :=
  s.vecIssue false (s.capture (.vredminI a b m) 0 0 0 0)

/-- VPOPC (10 R285). -/
def execVpopc (a : XReg) (b : VReg) (m : VMask) (s : State) : Res :=
  s.vecIssue false (s.capture (.vpopc a b m) 0 0 0 0)

/-- VFIRST (10 R285). -/
def execVfirst (a : XReg) (b : VReg) (m : VMask) (s : State) : Res :=
  s.vecIssue false (s.capture (.vfirst a b m) 0 0 0 0)

/-- VEXP (10 R286). -/
def execVexp (a b : VReg) (m : VMask) (s : State) : Res :=
  s.vecIssue false (s.capture (.vexp a b m) 0 0 0 0)

/-- VLOG (10 R286). -/
def execVlog (a b : VReg) (m : VMask) (s : State) : Res :=
  s.vecIssue false (s.capture (.vlog a b m) 0 0 0 0)

/-- VRCP (10 R286). -/
def execVrcp (a b : VReg) (m : VMask) (s : State) : Res :=
  s.vecIssue false (s.capture (.vrcp a b m) 0 0 0 0)

/-- VRSQRT (10 R286). -/
def execVrsqrt (a b : VReg) (m : VMask) (s : State) : Res :=
  s.vecIssue false (s.capture (.vrsqrt a b m) 0 0 0 0)

/-- VTANH (10 R286). -/
def execVtanh (a b : VReg) (m : VMask) (s : State) : Res :=
  s.vecIssue false (s.capture (.vtanh a b m) 0 0 0 0)

/-- VSIGM (10 R286). -/
def execVsigm (a b : VReg) (m : VMask) (s : State) : Res :=
  s.vecIssue false (s.capture (.vsigm a b m) 0 0 0 0)

/-- VTOPK (10 R288). -/
def execVtopk (a b : VReg) (c : XReg) (m : VMask) (s : State) : Res :=
  s.vecIssue false (s.capture (.vtopk a b c m) 0 (s.ctx.getX c) 0 0)

/-- VTNORM (10 R289). -/
def execVtnorm (a b : VReg) (c : XReg) (s : State) : Res :=
  s.vecIssue false (s.capture (.vtnorm a b c) 0 (s.ctx.getX c) 0 0)

/-- VQUANT (10 R290). -/
def execVquant (a b : VReg) (c : XReg) (s : State) : Res :=
  let w := (s.ctx.getX c).toNat
  let bad := w < 2 || 8 < w
  if !bad && !isHart s.cur && s.ctx.vl ≠ 32 && s.ctx.vl ≠ 64 then s.trap Cause.vectorLanes s.ctx.vlanes
  else s.vecIssue bad (s.capture (.vquant a b c) 0 (s.ctx.getX c) 0 0)

/-- VDEQUANT (10 R291). -/
def execVdequant (a b : VReg) (c : XReg) (s : State) : Res :=
  let w := (s.ctx.getX c).toNat
  s.vecIssue (w < 2 || 8 < w) (s.capture (.vdequant a b c) 0 (s.ctx.getX c) 0 0)

end Sys2Proof.Machine
end

