-- ==== Sys2Proof/Machine/LaneOps.lean ====
section
/-!
DEFINITION. Machine/LaneOps.lean: the page 2 instructions of the vector lanes at issue (10 R271-R278).
-/
namespace Sys2Proof.Machine

/-- VADD.I (10 R272). -/
def execVaddI (a b : VReg) (c : Option VReg) (m : VMask) (s : State) : Res :=
  s.vecIssue false (s.capture (.vaddI a b c m) 0 0 0 0)

/-- VSUB.I (10 R272). -/
def execVsubI (a b : VReg) (c : Option VReg) (m : VMask) (s : State) : Res :=
  s.vecIssue false (s.capture (.vsubI a b c m) 0 0 0 0)

/-- VMUL.I (10 R272). -/
def execVmulI (a b : VReg) (c : Option VReg) (m : VMask) (s : State) : Res :=
  s.vecIssue false (s.capture (.vmulI a b c m) 0 0 0 0)

/-- VMIN.I (10 R272). -/
def execVminI (a b : VReg) (c : Option VReg) (m : VMask) (s : State) : Res :=
  s.vecIssue false (s.capture (.vminI a b c m) 0 0 0 0)

/-- VMAX.I (10 R272). -/
def execVmaxI (a b : VReg) (c : Option VReg) (m : VMask) (s : State) : Res :=
  s.vecIssue false (s.capture (.vmaxI a b c m) 0 0 0 0)

/-- VAND (10 R272). -/
def execVand (a b : VReg) (c : Option VReg) (m : VMask) (s : State) : Res :=
  s.vecIssue false (s.capture (.vand a b c m) 0 0 0 0)

/-- VOR (10 R272). -/
def execVor (a b : VReg) (c : Option VReg) (m : VMask) (s : State) : Res :=
  s.vecIssue false (s.capture (.vor a b c m) 0 0 0 0)

/-- VXOR (10 R272). -/
def execVxor (a b : VReg) (c : Option VReg) (m : VMask) (s : State) : Res :=
  s.vecIssue false (s.capture (.vxor a b c m) 0 0 0 0)

/-- VSLL (10 R272). -/
def execVsll (a b : VReg) (c : Option VReg) (m : VMask) (s : State) : Res :=
  s.vecIssue false (s.capture (.vsll a b c m) 0 0 0 0)

/-- VSRL (10 R272). -/
def execVsrl (a b : VReg) (c : Option VReg) (m : VMask) (s : State) : Res :=
  s.vecIssue false (s.capture (.vsrl a b c m) 0 0 0 0)

/-- VSRA (10 R272). -/
def execVsra (a b : VReg) (c : Option VReg) (m : VMask) (s : State) : Res :=
  s.vecIssue false (s.capture (.vsra a b c m) 0 0 0 0)

/-- VADDS.I (10 R272). -/
def execVaddsI (a b : VReg) (c : Option VReg) (m : VMask) (s : State) : Res :=
  s.vecIssue false (s.capture (.vaddsI a b c m) 0 0 0 0)

/-- VSUBS.I (10 R272). -/
def execVsubsI (a b : VReg) (c : Option VReg) (m : VMask) (s : State) : Res :=
  s.vecIssue false (s.capture (.vsubsI a b c m) 0 0 0 0)

/-- VADD.F (10 R273). -/
def execVaddF (a b : VReg) (c : Option VReg) (m : VMask) (s : State) : Res :=
  s.vecIssue false (s.capture (.vaddF a b c m) 0 0 0 0)

/-- VSUB.F (10 R273). -/
def execVsubF (a b : VReg) (c : Option VReg) (m : VMask) (s : State) : Res :=
  s.vecIssue false (s.capture (.vsubF a b c m) 0 0 0 0)

/-- VMUL.F (10 R273). -/
def execVmulF (a b : VReg) (c : Option VReg) (m : VMask) (s : State) : Res :=
  s.vecIssue false (s.capture (.vmulF a b c m) 0 0 0 0)

/-- VDIV.F (10 R273). -/
def execVdivF (a b : VReg) (c : Option VReg) (m : VMask) (s : State) : Res :=
  s.vecIssue false (s.capture (.vdivF a b c m) 0 0 0 0)

/-- VMIN.F (10 R273). -/
def execVminF (a b : VReg) (c : Option VReg) (m : VMask) (s : State) : Res :=
  s.vecIssue false (s.capture (.vminF a b c m) 0 0 0 0)

/-- VMAX.F (10 R273). -/
def execVmaxF (a b : VReg) (c : Option VReg) (m : VMask) (s : State) : Res :=
  s.vecIssue false (s.capture (.vmaxF a b c m) 0 0 0 0)

/-- VFMA (10 R274). -/
def execVfma (a b c : VReg) (m : VMask) (s : State) : Res :=
  s.vecIssue false (s.capture (.vfma a b c m) 0 0 0 0)

/-- VFMS (10 R274). -/
def execVfms (a b c : VReg) (m : VMask) (s : State) : Res :=
  s.vecIssue false (s.capture (.vfms a b c m) 0 0 0 0)

/-- VSEL (10 R274). -/
def execVsel (a b c : VReg) (m : VMask) (s : State) : Res :=
  s.vecIssue false (s.capture (.vsel a b c m) 0 0 0 0)

/-- VCEQ.I (10 R275). -/
def execVceqI (a b : VReg) (c : Option VReg) (m : VMask) (s : State) : Res :=
  s.vecIssue false (s.capture (.vceqI a b c m) 0 0 0 0)

/-- VCLT.I (10 R275). -/
def execVcltI (a b : VReg) (c : Option VReg) (m : VMask) (s : State) : Res :=
  s.vecIssue false (s.capture (.vcltI a b c m) 0 0 0 0)

/-- VCLTN.I (10 R275). -/
def execVcltnI (a b : VReg) (c : Option VReg) (m : VMask) (s : State) : Res :=
  s.vecIssue false (s.capture (.vcltnI a b c m) 0 0 0 0)

/-- VCEQ.F (10 R275). -/
def execVceqF (a b : VReg) (c : Option VReg) (m : VMask) (s : State) : Res :=
  s.vecIssue false (s.capture (.vceqF a b c m) 0 0 0 0)

/-- VCLT.F (10 R275). -/
def execVcltF (a b : VReg) (c : Option VReg) (m : VMask) (s : State) : Res :=
  s.vecIssue false (s.capture (.vcltF a b c m) 0 0 0 0)

/-- VCLE.F (10 R275). -/
def execVcleF (a b : VReg) (c : Option VReg) (m : VMask) (s : State) : Res :=
  s.vecIssue false (s.capture (.vcleF a b c m) 0 0 0 0)

/-- VCUN.F (10 R275). -/
def execVcunF (a b : VReg) (c : Option VReg) (m : VMask) (s : State) : Res :=
  s.vecIssue false (s.capture (.vcunF a b c m) 0 0 0 0)

/-- VCVT.F.I (10 R276). -/
def execVcvtFI (a b : VReg) (m : VMask) (s : State) : Res :=
  s.vecIssue false (s.capture (.vcvtFI a b m) 0 0 0 0)

/-- VCVT.I.F (10 R276). -/
def execVcvtIF (a b : VReg) (m : VMask) (s : State) : Res :=
  s.vecIssue false (s.capture (.vcvtIF a b m) 0 0 0 0)

/-- VCVT.BF16.F (10 R276). -/
def execVcvtBf16F (a b : VReg) (m : VMask) (s : State) : Res :=
  s.vecIssue false (s.capture (.vcvtBf16F a b m) 0 0 0 0)

/-- VCVT.F.BF16 (10 R276). -/
def execVcvtFBf16 (a b : VReg) (m : VMask) (s : State) : Res :=
  s.vecIssue false (s.capture (.vcvtFBf16 a b m) 0 0 0 0)

/-- VCVT.E4M3.F (10 R276). -/
def execVcvtE4m3F (a b : VReg) (m : VMask) (s : State) : Res :=
  s.vecIssue false (s.capture (.vcvtE4m3F a b m) 0 0 0 0)

/-- VCVT.E5M2.F (10 R276). -/
def execVcvtE5m2F (a b : VReg) (m : VMask) (s : State) : Res :=
  s.vecIssue false (s.capture (.vcvtE5m2F a b m) 0 0 0 0)

/-- VCVT.F.E4M3 (10 R276). -/
def execVcvtFE4m3 (a b : VReg) (m : VMask) (s : State) : Res :=
  s.vecIssue false (s.capture (.vcvtFE4m3 a b m) 0 0 0 0)

/-- VCVT.F.E5M2 (10 R276). -/
def execVcvtFE5m2 (a b : VReg) (m : VMask) (s : State) : Res :=
  s.vecIssue false (s.capture (.vcvtFE5m2 a b m) 0 0 0 0)

/-- VCVT.BF16.F.SAT (10 R276). -/
def execVcvtBf16FSat (a b : VReg) (m : VMask) (s : State) : Res :=
  s.vecIssue false (s.capture (.vcvtBf16FSat a b m) 0 0 0 0)

/-- VCVT.E4M3.F.SAT (10 R276). -/
def execVcvtE4m3FSat (a b : VReg) (m : VMask) (s : State) : Res :=
  s.vecIssue false (s.capture (.vcvtE4m3FSat a b m) 0 0 0 0)

/-- VCVT.E5M2.F.SAT (10 R276). -/
def execVcvtE5m2FSat (a b : VReg) (m : VMask) (s : State) : Res :=
  s.vecIssue false (s.capture (.vcvtE5m2FSat a b m) 0 0 0 0)

/-- VADD.FS (10 R277). -/
def execVaddFs (a b : VReg) (c : FReg) (m : VMask) (s : State) : Res :=
  s.vecIssue false (s.capture (.vaddFs a b c m) 0 0 (s.ctx.getF c) 0)

/-- VMUL.FS (10 R277). -/
def execVmulFs (a b : VReg) (c : FReg) (m : VMask) (s : State) : Res :=
  s.vecIssue false (s.capture (.vmulFs a b c m) 0 0 (s.ctx.getF c) 0)

/-- VFMA.FS (10 R277). -/
def execVfmaFs (a b : VReg) (c : FReg) (m : VMask) (s : State) : Res :=
  s.vecIssue false (s.capture (.vfmaFs a b c m) 0 0 (s.ctx.getF c) 0)

/-- VBCAST.X (10 R278). -/
def execVbcastX (a : VReg) (b : XReg) (m : VMask) (s : State) : Res :=
  s.vecIssue false (s.capture (.vbcastX a b m) (s.ctx.getX b) 0 0 0)

/-- VBCAST.F (10 R278). -/
def execVbcastF (a : VReg) (b : FReg) (m : VMask) (s : State) : Res :=
  s.vecIssue false (s.capture (.vbcastF a b m) 0 0 (s.ctx.getF b) 0)

/-- VIOTA (10 R278). -/
def execViota (a : VReg) (m : VMask) (s : State) : Res :=
  s.vecIssue false (s.capture (.viota a m) 0 0 0 0)

/-- VEXT.X (10 R278). -/
def execVextX (a : XReg) (b : VReg) (c : XReg) (s : State) : Res :=
  s.vecIssue false (s.capture (.vextX a b c) 0 (s.ctx.getX c) 0 0)

/-- VINS.X (10 R278). -/
def execVinsX (a : VReg) (b c : XReg) (s : State) : Res :=
  s.vecIssue false (s.capture (.vinsX a b c) (s.ctx.getX b) (s.ctx.getX c) 0 0)

end Sys2Proof.Machine
end

