-- ==== Sys2Proof/Machine/LoadStore.lean ====
section
/-!
DEFINITION. Machine/LoadStore.lean: loads and stores of one context (06 R162-R165), ordered accesses and fences (12 R369, R370).
-/
namespace Sys2Proof.Machine

/-- A floating load or store: only LDW, STW, LDA and STL reach the event-unit addresses (15 R434) and only LDW and STD a translation port
(12 R358), so an aligned address there faults. -/
def State.floatAccess (s : State) (ea : Word) (code : BitVec 8) (k : Res) : Res :=
  match place s.cur ea.toNat with
  | .event _ | .port _ => if ea.toNat % 4 = 0 then s.trap code ea else k
  | .ownTcm _ | .scratch _ | .peer _ _ _ _ | .matrix _ | .shared | .aperture _ | .unmapped => k

/-- LDW (06 R163). -/
def execLdw (a b : XReg) (imm : Imm) (s : State) : Res :=
  s.loadInto (s.ctx.ea b imm 4) 4 (fun bs k => k.setX a (wordOfBytes bs))
/-- LDB: sign-extended byte (06 R163). -/
def execLdb (a b : XReg) (imm : Imm) (s : State) : Res :=
  s.loadInto (s.ctx.ea b imm 1) 1 (fun bs k => k.setX a (((wordOfBytes bs).setWidth 8).signExtend 32))
/-- LDBN: zero-extended byte (06 R163). -/
def execLdbn (a b : XReg) (imm : Imm) (s : State) : Res :=
  s.loadInto (s.ctx.ea b imm 1) 1 (fun bs k => k.setX a (wordOfBytes bs))
/-- LDH: sign-extended halfword (06 R163). -/
def execLdh (a b : XReg) (imm : Imm) (s : State) : Res :=
  s.loadInto (s.ctx.ea b imm 2) 2 (fun bs k => k.setX a (((wordOfBytes bs).setWidth 16).signExtend 32))
/-- LDHN: zero-extended halfword (06 R163). -/
def execLdhn (a b : XReg) (imm : Imm) (s : State) : Res :=
  s.loadInto (s.ctx.ea b imm 2) 2 (fun bs k => k.setX a (wordOfBytes bs))
/-- LDF: bits unchanged into f[a] (06 R163). -/
def execLdf (a : FReg) (b : XReg) (imm : Imm) (s : State) : Res :=
  s.floatAccess (s.ctx.ea b imm 4) Cause.loadWindow
    (s.loadInto (s.ctx.ea b imm 4) 4 (fun bs k => k.setF a (wordOfBytes bs)))
/-- LDD: x[a] and x[a+1]; with a = 0 the low word is discarded (06 R163). -/
def execLdd (a b : XReg) (imm : Imm) (s : State) : Res :=
  s.loadInto (s.ctx.ea b imm 8) 8 (fun bs k =>
    (k.setX a (wordOfBytes (bs.take 4))).setX (a + 1) (wordOfBytes (bs.drop 4)))

/-- STW (06 R164). -/
def execStw (a b : XReg) (imm : Imm) (s : State) : Res :=
  s.storeFrom (s.ctx.ea b imm 4) (wordBytes4 (s.ctx.getX a)) false
/-- STB (06 R164). -/
def execStb (a b : XReg) (imm : Imm) (s : State) : Res :=
  s.storeFrom (s.ctx.ea b imm 1) (bytesOf (s.ctx.getX a).toNat 1) false
/-- STH (06 R164). -/
def execSth (a b : XReg) (imm : Imm) (s : State) : Res :=
  s.storeFrom (s.ctx.ea b imm 2) (bytesOf (s.ctx.getX a).toNat 2) false
/-- STF (06 R164). -/
def execStf (a : FReg) (b : XReg) (imm : Imm) (s : State) : Res :=
  s.floatAccess (s.ctx.ea b imm 4) Cause.storeWindow
    (s.storeFrom (s.ctx.ea b imm 4) (wordBytes4 (s.ctx.getF a)) false)
/-- STD: x[a] at ea and x[a+1] at ea + 4 (06 R164). -/
def execStd (a b : XReg) (imm : Imm) (s : State) : Res :=
  s.storeFrom (s.ctx.ea b imm 8) (wordBytes4 (s.ctx.getX a) ++ wordBytes4 (s.ctx.getX (a + 1))) false

/-- FLD (07 R217): as LDF. -/
def execFld (a : FReg) (b : XReg) (imm : Imm) (s : State) : Res :=
  s.floatAccess (s.ctx.ea b imm 4) Cause.loadWindow
    (s.loadInto (s.ctx.ea b imm 4) 4 (fun bs k => k.setF a (wordOfBytes bs)))
/-- FST (07 R217): as STF. -/
def execFst (a : FReg) (b : XReg) (imm : Imm) (s : State) : Res :=
  s.floatAccess (s.ctx.ea b imm 4) Cause.storeWindow
    (s.storeFrom (s.ctx.ea b imm 4) (wordBytes4 (s.ctx.getF a)) false)

/-- LDA: a load-acquire of one word (12 R369). No later access performs before it, since a context's groups follow one
another. -/
def execLda (a b : XReg) (imm : Imm) (s : State) : Res :=
  s.loadInto (s.ctx.ea b imm 4) 4 (fun bs k => k.setX a (wordOfBytes bs))

/-- STL: a store-release of one word; it waits until the journal holds no unacknowledged entry of the context (12 R369). Its
address faults are those of STW, and come before the wait. -/
def execStl (a b : XReg) (imm : Imm) (s : State) : Res :=
  let ea := s.ctx.ea b imm 4
  match s.store s.cur ea (wordBytes4 (s.ctx.getX a)) true with
  | .bad code tval => s.trap code tval
  | .wait s' => .next s'
  | .done s' => if s.released s.cur then s'.done id else s.waits .interlock

/-- FENCE (12 R370): a scope of 1 or above that orders stores waits until every earlier store of the context is performed and acknowledged
at that scope (log 47); every earlier load has returned, but those of vector entries (10 R260), which it waits for. -/
def execFence (scope kinds : BitVec 4) (s : State) : Res :=
  let stores := kinds.getLsbD 2 || kinds.getLsbD 3
  if scope != 0 && s.seqBusy s.cur then s.waits .interlock
  else
    match s.passStores (if stores then scope.toNat else 0) s.cur with
    | some t => t.done id
    | none => s.waits .interlock

end Sys2Proof.Machine
end

