-- ==== Sys2Proof/Machine/Dispatch.lean ====
section
/-!
DEFINITION. Machine/Dispatch.lean: the meaning of every instruction, one arm for each constructor.
-/
namespace Sys2Proof.Machine

def exec (i : Instr) (s : State) : Host.Outcome State Fault Refusal :=
  match i with
  | .add a b c => Sys2Proof.Machine.execAdd a b c s
  | .sub a b c => Sys2Proof.Machine.execSub a b c s
  | .andX a b c => Sys2Proof.Machine.execAndX a b c s
  | .orX a b c => Sys2Proof.Machine.execOrX a b c s
  | .xorX a b c => Sys2Proof.Machine.execXorX a b c s
  | .sll a b c => Sys2Proof.Machine.execSll a b c s
  | .srl a b c => Sys2Proof.Machine.execSrl a b c s
  | .sra a b c => Sys2Proof.Machine.execSra a b c s
  | .mul a b c => Sys2Proof.Machine.execMul a b c s
  | .mulh a b c => Sys2Proof.Machine.execMulh a b c s
  | .mulhn a b c => Sys2Proof.Machine.execMulhn a b c s
  | .div a b c => Sys2Proof.Machine.execDiv a b c s
  | .divn a b c => Sys2Proof.Machine.execDivn a b c s
  | .rem a b c => Sys2Proof.Machine.execRem a b c s
  | .remn a b c => Sys2Proof.Machine.execRemn a b c s
  | .gcd a b c => Sys2Proof.Machine.execGcd a b c s
  | .minX a b c => Sys2Proof.Machine.execMinX a b c s
  | .maxX a b c => Sys2Proof.Machine.execMaxX a b c s
  | .minn a b c => Sys2Proof.Machine.execMinn a b c s
  | .maxn a b c => Sys2Proof.Machine.execMaxn a b c s
  | .andn a b c => Sys2Proof.Machine.execAndn a b c s
  | .orn a b c => Sys2Proof.Machine.execOrn a b c s
  | .rol a b c => Sys2Proof.Machine.execRol a b c s
  | .ror a b c => Sys2Proof.Machine.execRor a b c s
  | .mov a b => Sys2Proof.Machine.execMov a b s
  | .neg a b => Sys2Proof.Machine.execNeg a b s
  | .notX a b => Sys2Proof.Machine.execNotX a b s
  | .clz a b => Sys2Proof.Machine.execClz a b s
  | .ctz a b => Sys2Proof.Machine.execCtz a b s
  | .popc a b => Sys2Proof.Machine.execPopc a b s
  | .sextb a b => Sys2Proof.Machine.execSextb a b s
  | .sexth a b => Sys2Proof.Machine.execSexth a b s
  | .ceq a b => Sys2Proof.Machine.execCeq a b s
  | .cne a b => Sys2Proof.Machine.execCne a b s
  | .clt a b => Sys2Proof.Machine.execClt a b s
  | .cge a b => Sys2Proof.Machine.execCge a b s
  | .cltn a b => Sys2Proof.Machine.execCltn a b s
  | .cgen a b => Sys2Proof.Machine.execCgen a b s
  | .tst a b => Sys2Proof.Machine.execTst a b s
  | .movt a => Sys2Proof.Machine.execMovt a s
  | .addi a imm => Sys2Proof.Machine.execAddi a imm s
  | .li a imm => Sys2Proof.Machine.execLi a imm s
  | .andi a imm => Sys2Proof.Machine.execAndi a imm s
  | .ori a imm => Sys2Proof.Machine.execOri a imm s
  | .xori a imm => Sys2Proof.Machine.execXori a imm s
  | .ceqi a imm => Sys2Proof.Machine.execCeqi a imm s
  | .clti a imm => Sys2Proof.Machine.execClti a imm s
  | .shi a kind amount => Sys2Proof.Machine.execShi a kind amount s
  | .ldw a b imm => Sys2Proof.Machine.execLdw a b imm s
  | .stw a b imm => Sys2Proof.Machine.execStw a b imm s
  | .ldb a b imm => Sys2Proof.Machine.execLdb a b imm s
  | .ldbn a b imm => Sys2Proof.Machine.execLdbn a b imm s
  | .ldh a b imm => Sys2Proof.Machine.execLdh a b imm s
  | .ldhn a b imm => Sys2Proof.Machine.execLdhn a b imm s
  | .ldf a b imm => Sys2Proof.Machine.execLdf a b imm s
  | .ldd a b imm => Sys2Proof.Machine.execLdd a b imm s
  | .stb a b imm => Sys2Proof.Machine.execStb a b imm s
  | .sth a b imm => Sys2Proof.Machine.execSth a b imm s
  | .stf a b imm => Sys2Proof.Machine.execStf a b imm s
  | .std a b imm => Sys2Proof.Machine.execStd a b imm s
  | .bf imm => Sys2Proof.Machine.execBf imm s
  | .bt imm => Sys2Proof.Machine.execBt imm s
  | .jmp imm => Sys2Proof.Machine.execJmp imm s
  | .jal imm => Sys2Proof.Machine.execJal imm s
  | .jr b imm => Sys2Proof.Machine.execJr b imm s
  | .jalr a b imm => Sys2Proof.Machine.execJalr a b imm s
  | .loop a k => Sys2Proof.Machine.execLoop a k s
  | .srd a b => Sys2Proof.Machine.execSrd a b s
  | .swr a b => Sys2Proof.Machine.execSwr a b s
  | .srdf a b => Sys2Proof.Machine.execSrdf a b s
  | .swrf a b => Sys2Proof.Machine.execSwrf a b s
  | .endCtx => Sys2Proof.Machine.execEndCtx s
  | .endFail => Sys2Proof.Machine.execEndFail s
  | .yield => Sys2Proof.Machine.execYield s
  | .spawn a b => Sys2Proof.Machine.execSpawn a b s
  | .trap code => Sys2Proof.Machine.execTrap code s
  | .eret => Sys2Proof.Machine.execEret s
  | .nop => Sys2Proof.Machine.execNop s
  | .srr a reg => Sys2Proof.Machine.execSrr a reg s
  | .srw a reg => Sys2Proof.Machine.execSrw a reg s
  | .pca a imm => Sys2Proof.Machine.execPca a imm s
  | .ipref imm => Sys2Proof.Machine.execIpref imm s
  | .fadd a b c => Sys2Proof.Machine.execFadd a b c s
  | .fsub a b c => Sys2Proof.Machine.execFsub a b c s
  | .fmul a b c => Sys2Proof.Machine.execFmul a b c s
  | .fdiv a b c => Sys2Proof.Machine.execFdiv a b c s
  | .fmin a b c => Sys2Proof.Machine.execFmin a b c s
  | .fmax a b c => Sys2Proof.Machine.execFmax a b c s
  | .fma a b c => Sys2Proof.Machine.execFma a b c s
  | .fms a b c => Sys2Proof.Machine.execFms a b c s
  | .fnma a b c => Sys2Proof.Machine.execFnma a b c s
  | .fnms a b c => Sys2Proof.Machine.execFnms a b c s
  | .fsqrt a b => Sys2Proof.Machine.execFsqrt a b s
  | .fneg a b => Sys2Proof.Machine.execFneg a b s
  | .fabs a b => Sys2Proof.Machine.execFabs a b s
  | .fmov a b => Sys2Proof.Machine.execFmov a b s
  | .feq a b => Sys2Proof.Machine.execFeq a b s
  | .flt a b => Sys2Proof.Machine.execFlt a b s
  | .fle a b => Sys2Proof.Machine.execFle a b s
  | .funord a b => Sys2Proof.Machine.execFunord a b s
  | .fclass a b => Sys2Proof.Machine.execFclass a b s
  | .fcvtI32 a b => Sys2Proof.Machine.execFcvtI32 a b s
  | .fcvtN32 a b => Sys2Proof.Machine.execFcvtN32 a b s
  | .fmvX a b => Sys2Proof.Machine.execFmvX a b s
  | .fcvtBf16 a b => Sys2Proof.Machine.execFcvtBf16 a b s
  | .fcvtE4m3 a b => Sys2Proof.Machine.execFcvtE4m3 a b s
  | .fcvtE5m2 a b => Sys2Proof.Machine.execFcvtE5m2 a b s
  | .fcvtBf16Sat a b => Sys2Proof.Machine.execFcvtBf16Sat a b s
  | .fcvtE4m3Sat a b => Sys2Proof.Machine.execFcvtE4m3Sat a b s
  | .fcvtE5m2Sat a b => Sys2Proof.Machine.execFcvtE5m2Sat a b s
  | .fcvtfI32 a b => Sys2Proof.Machine.execFcvtfI32 a b s
  | .fcvtfN32 a b => Sys2Proof.Machine.execFcvtfN32 a b s
  | .fmvF a b => Sys2Proof.Machine.execFmvF a b s
  | .fcvtfBf16 a b => Sys2Proof.Machine.execFcvtfBf16 a b s
  | .fcvtfE4m3 a b => Sys2Proof.Machine.execFcvtfE4m3 a b s
  | .fcvtfE5m2 a b => Sys2Proof.Machine.execFcvtfE5m2 a b s
  | .fld a b imm => Sys2Proof.Machine.execFld a b imm s
  | .fst a b imm => Sys2Proof.Machine.execFst a b imm s
  | .smk a b c => Sys2Proof.Machine.execSmk a b c s
  | .snum a b => Sys2Proof.Machine.execSnum a b s
  | .sden a b => Sys2Proof.Machine.execSden a b s
  | .sbnd a b => Sys2Proof.Machine.execSbnd a b s
  | .smed a b c => Sys2Proof.Machine.execSmed a b c s
  | .srec a b => Sys2Proof.Machine.execSrec a b s
  | .scvtf a b => Sys2Proof.Machine.execScvtf a b s
  | .fcvts a b => Sys2Proof.Machine.execFcvts a b s
  | .vaddI a b c m => Sys2Proof.Machine.execVaddI a b c m s
  | .vsubI a b c m => Sys2Proof.Machine.execVsubI a b c m s
  | .vmulI a b c m => Sys2Proof.Machine.execVmulI a b c m s
  | .vminI a b c m => Sys2Proof.Machine.execVminI a b c m s
  | .vmaxI a b c m => Sys2Proof.Machine.execVmaxI a b c m s
  | .vand a b c m => Sys2Proof.Machine.execVand a b c m s
  | .vor a b c m => Sys2Proof.Machine.execVor a b c m s
  | .vxor a b c m => Sys2Proof.Machine.execVxor a b c m s
  | .vsll a b c m => Sys2Proof.Machine.execVsll a b c m s
  | .vsrl a b c m => Sys2Proof.Machine.execVsrl a b c m s
  | .vsra a b c m => Sys2Proof.Machine.execVsra a b c m s
  | .vaddsI a b c m => Sys2Proof.Machine.execVaddsI a b c m s
  | .vsubsI a b c m => Sys2Proof.Machine.execVsubsI a b c m s
  | .vaddF a b c m => Sys2Proof.Machine.execVaddF a b c m s
  | .vsubF a b c m => Sys2Proof.Machine.execVsubF a b c m s
  | .vmulF a b c m => Sys2Proof.Machine.execVmulF a b c m s
  | .vdivF a b c m => Sys2Proof.Machine.execVdivF a b c m s
  | .vminF a b c m => Sys2Proof.Machine.execVminF a b c m s
  | .vmaxF a b c m => Sys2Proof.Machine.execVmaxF a b c m s
  | .vfma a b c m => Sys2Proof.Machine.execVfma a b c m s
  | .vfms a b c m => Sys2Proof.Machine.execVfms a b c m s
  | .vsel a b c m => Sys2Proof.Machine.execVsel a b c m s
  | .vceqI a b c m => Sys2Proof.Machine.execVceqI a b c m s
  | .vcltI a b c m => Sys2Proof.Machine.execVcltI a b c m s
  | .vcltnI a b c m => Sys2Proof.Machine.execVcltnI a b c m s
  | .vceqF a b c m => Sys2Proof.Machine.execVceqF a b c m s
  | .vcltF a b c m => Sys2Proof.Machine.execVcltF a b c m s
  | .vcleF a b c m => Sys2Proof.Machine.execVcleF a b c m s
  | .vcunF a b c m => Sys2Proof.Machine.execVcunF a b c m s
  | .vcvtFI a b m => Sys2Proof.Machine.execVcvtFI a b m s
  | .vcvtIF a b m => Sys2Proof.Machine.execVcvtIF a b m s
  | .vcvtBf16F a b m => Sys2Proof.Machine.execVcvtBf16F a b m s
  | .vcvtFBf16 a b m => Sys2Proof.Machine.execVcvtFBf16 a b m s
  | .vcvtE4m3F a b m => Sys2Proof.Machine.execVcvtE4m3F a b m s
  | .vcvtE5m2F a b m => Sys2Proof.Machine.execVcvtE5m2F a b m s
  | .vcvtFE4m3 a b m => Sys2Proof.Machine.execVcvtFE4m3 a b m s
  | .vcvtFE5m2 a b m => Sys2Proof.Machine.execVcvtFE5m2 a b m s
  | .vcvtBf16FSat a b m => Sys2Proof.Machine.execVcvtBf16FSat a b m s
  | .vcvtE4m3FSat a b m => Sys2Proof.Machine.execVcvtE4m3FSat a b m s
  | .vcvtE5m2FSat a b m => Sys2Proof.Machine.execVcvtE5m2FSat a b m s
  | .vaddFs a b c m => Sys2Proof.Machine.execVaddFs a b c m s
  | .vmulFs a b c m => Sys2Proof.Machine.execVmulFs a b c m s
  | .vfmaFs a b c m => Sys2Proof.Machine.execVfmaFs a b c m s
  | .vbcastX a b m => Sys2Proof.Machine.execVbcastX a b m s
  | .vbcastF a b m => Sys2Proof.Machine.execVbcastF a b m s
  | .viota a m => Sys2Proof.Machine.execViota a m s
  | .vextX a b c => Sys2Proof.Machine.execVextX a b c s
  | .vinsX a b c => Sys2Proof.Machine.execVinsX a b c s
  | .vld a b imm m => Sys2Proof.Machine.execVld a b imm m s
  | .vst a b imm m => Sys2Proof.Machine.execVst a b imm m s
  | .vlds a b c imm m => Sys2Proof.Machine.execVlds a b c imm m s
  | .vsts a b c imm m => Sys2Proof.Machine.execVsts a b c imm m s
  | .vldb a b imm m => Sys2Proof.Machine.execVldb a b imm m s
  | .vldx a b c imm m => Sys2Proof.Machine.execVldx a b c imm m s
  | .vstx a b c imm m => Sys2Proof.Machine.execVstx a b c imm m s
  | .vperm a b c m => Sys2Proof.Machine.execVperm a b c m s
  | .vzip a b c m => Sys2Proof.Machine.execVzip a b c m s
  | .vunzip a b c m => Sys2Proof.Machine.execVunzip a b c m s
  | .vrev a b m => Sys2Proof.Machine.execVrev a b m s
  | .vslideup a b c m => Sys2Proof.Machine.execVslideup a b c m s
  | .vslidedn a b c m => Sys2Proof.Machine.execVslidedn a b c m s
  | .vcompress a b m => Sys2Proof.Machine.execVcompress a b m s
  | .vexpand a b m => Sys2Proof.Machine.execVexpand a b m s
  | .vredaddF a b m => Sys2Proof.Machine.execVredaddF a b m s
  | .vredmaxF a b m => Sys2Proof.Machine.execVredmaxF a b m s
  | .vredminF a b m => Sys2Proof.Machine.execVredminF a b m s
  | .vredaddI a b m => Sys2Proof.Machine.execVredaddI a b m s
  | .vredmaxI a b m => Sys2Proof.Machine.execVredmaxI a b m s
  | .vredminI a b m => Sys2Proof.Machine.execVredminI a b m s
  | .vpopc a b m => Sys2Proof.Machine.execVpopc a b m s
  | .vfirst a b m => Sys2Proof.Machine.execVfirst a b m s
  | .vclaim a b => Sys2Proof.Machine.execVclaim a b s
  | .vyield => Sys2Proof.Machine.execVyield s
  | .vloop a b => Sys2Proof.Machine.execVloop a b s
  | .vsetvl a b => Sys2Proof.Machine.execVsetvl a b s
  | .vsync => Sys2Proof.Machine.execVsync s
  | .vexp a b m => Sys2Proof.Machine.execVexp a b m s
  | .vlog a b m => Sys2Proof.Machine.execVlog a b m s
  | .vrcp a b m => Sys2Proof.Machine.execVrcp a b m s
  | .vrsqrt a b m => Sys2Proof.Machine.execVrsqrt a b m s
  | .vtanh a b m => Sys2Proof.Machine.execVtanh a b m s
  | .vsigm a b m => Sys2Proof.Machine.execVsigm a b m s
  | .vtopk a b c m => Sys2Proof.Machine.execVtopk a b c m s
  | .vtnorm a b c => Sys2Proof.Machine.execVtnorm a b c s
  | .vquant a b c => Sys2Proof.Machine.execVquant a b c s
  | .vdequant a b c => Sys2Proof.Machine.execVdequant a b c s
  | .mma a b => Sys2Proof.Machine.execMma a b s
  | .mmar a b imm => Sys2Proof.Machine.execMmar a b imm s
  | .mlatb a => Sys2Proof.Machine.execMlatb a s
  | .mring => Sys2Proof.Machine.execMring s
  | .mwait => Sys2Proof.Machine.execMwait s
  | .msync => Sys2Proof.Machine.execMsync s
  | .mzero a => Sys2Proof.Machine.execMzero a s
  | .mcswap => Sys2Proof.Machine.execMcswap s
  | .mcrd a b => Sys2Proof.Machine.execMcrd a b s
  | .mcwr a b => Sys2Proof.Machine.execMcwr a b s
  | .mquant a b => Sys2Proof.Machine.execMquant a b s
  | .msatrd a b => Sys2Proof.Machine.execMsatrd a b s
  | .lda a b imm => Sys2Proof.Machine.execLda a b imm s
  | .stl a b imm => Sys2Proof.Machine.execStl a b imm s
  | .fence scope kinds => Sys2Proof.Machine.execFence scope kinds s
  | .jdrain => Sys2Proof.Machine.execJdrain s
  | .aadd a b c => Sys2Proof.Machine.execAadd a b c s
  | .faddb a b c => Sys2Proof.Machine.execFaddb a b c s
  | .incw a b c => Sys2Proof.Machine.execIncw a b c s
  | .aswap a b c => Sys2Proof.Machine.execAswap a b c s
  | .acas a b c => Sys2Proof.Machine.execAcas a b c s
  | .aand a b c => Sys2Proof.Machine.execAand a b c s
  | .aor a b c => Sys2Proof.Machine.execAor a b c s
  | .amax a b c => Sys2Proof.Machine.execAmax a b c s
  | .accI a b => Sys2Proof.Machine.execAccI a b s
  | .accF a b => Sys2Proof.Machine.execAccF a b s
  | .accsq a b => Sys2Proof.Machine.execAccsq a b s
  | .flushr => Sys2Proof.Machine.execFlushr s
  | .job a b => Sys2Proof.Machine.execJob a b s
  | .pollj b => Sys2Proof.Machine.execPollj b s
  | .waitj b => Sys2Proof.Machine.execWaitj b s
  | .aload a b => Sys2Proof.Machine.execAload a b s
  | .afree b => Sys2Proof.Machine.execAfree b s
  | .alahead a b => Sys2Proof.Machine.execAlahead a b s
  | .connect a b c => Sys2Proof.Machine.execConnect a b c s
  | .accept a b c => Sys2Proof.Machine.execAccept a b c s
  | .epname a b => Sys2Proof.Machine.execEpname a b s
  | .estat a b => Sys2Proof.Machine.execEstat a b s
  | .epset a b => Sys2Proof.Machine.execEpset a b s
  | .epmod a b => Sys2Proof.Machine.execEpmod a b s
  | .close a => Sys2Proof.Machine.execClose a s
  | .send a b imm => Sys2Proof.Machine.execSend a b imm s
  | .recv a b imm => Sys2Proof.Machine.execRecv a b imm s
  | .sendv a b => Sys2Proof.Machine.execSendv a b s
  | .recvv a b => Sys2Proof.Machine.execRecvv a b s
  | .sendx a b => Sys2Proof.Machine.execSendx a b s
  | .recvx a b => Sys2Proof.Machine.execRecvx a b s
  | .select a label => Sys2Proof.Machine.execSelect a label s
  | .offer a b => Sys2Proof.Machine.execOffer a b s
  | .dsend a b => Sys2Proof.Machine.execDsend a b s
  | .drecv a b => Sys2Proof.Machine.execDrecv a b s
  | .sbind a b => Sys2Proof.Machine.execSbind a b s
  | .sbinda a b => Sys2Proof.Machine.execSbinda a b s
  | .sunbind a => Sys2Proof.Machine.execSunbind a s
  | .vksend a b c => Sys2Proof.Machine.execVksend a b c s
  | .raucfg a b => Sys2Proof.Machine.execRaucfg a b s
  | .emit a sig => Sys2Proof.Machine.execEmit a sig s
  | .noemit sig => Sys2Proof.Machine.execNoemit sig s
  | .absb sig imm => Sys2Proof.Machine.execAbsb sig imm s
  | .pres sig imm => Sys2Proof.Machine.execPres sig imm s
  | .sval a sig => Sys2Proof.Machine.execSval a sig s
  | .pause => Sys2Proof.Machine.execPause s
  | .pauseUp => Sys2Proof.Machine.execPauseUp s
  | .domnew a b => Sys2Proof.Machine.execDomnew a b s
  | .domfree b => Sys2Proof.Machine.execDomfree b s
  | .dlyw a b => Sys2Proof.Machine.execDlyw a b s
  | .dlyr a b => Sys2Proof.Machine.execDlyr a b s
  | .waiteq b c => Sys2Proof.Machine.execWaiteq b c s
  | .waitne b c => Sys2Proof.Machine.execWaitne b c s
  | .bell b => Sys2Proof.Machine.execBell b s
  | .brk code => Sys2Proof.Machine.execBrk code s
  | .tracem b => Sys2Proof.Machine.execTracem b s
  | .trig => Sys2Proof.Machine.execTrig s
  | .icinv b => Sys2Proof.Machine.execIcinv b s
  | .icinva => Sys2Proof.Machine.execIcinva s
  | .winset a b => Sys2Proof.Machine.execWinset a b s
  | .winget a b => Sys2Proof.Machine.execWinget a b s
  | .halt => Sys2Proof.Machine.execHalt s
  | .scrub b => Sys2Proof.Machine.execScrub b s
  | .sqTailDoorbell q tail => Sys2Proof.Machine.execSqTailDoorbell q tail s
  | .amBell q slot => Sys2Proof.Machine.execAmBell q slot s
  | .activeMessage svc => Sys2Proof.Machine.execActiveMessage svc s
  | .launch q => Sys2Proof.Machine.execLaunch q s
  | .template q => Sys2Proof.Machine.execTemplate q s
  | .loader q => Sys2Proof.Machine.execLoader q s
  | .loaderStop q => Sys2Proof.Machine.execLoaderStop q s
  | .launchEligible q lid => Sys2Proof.Machine.execLaunchEligible q lid s
  | .advertisement stack tenant => Sys2Proof.Machine.execAdvertisement stack tenant s
  | .batch => Sys2Proof.Machine.execBatch s
  | .teamPlacement stack => Sys2Proof.Machine.execTeamPlacement stack s
  | .teamLoadComplete q lid team => Sys2Proof.Machine.execTeamLoadComplete q lid team s
  | .completionRecord q lid => Sys2Proof.Machine.execCompletionRecord q lid s
  | .msixUnmask func vector => Sys2Proof.Machine.execMsixUnmask func vector s
  | .recordConsume q lid => Sys2Proof.Machine.execRecordConsume q lid s
  | .producerComplete q lid => Sys2Proof.Machine.execProducerComplete q lid s
  | .swapStart q lid => Sys2Proof.Machine.execSwapStart q lid s
  | .quantumBoundary q lid => Sys2Proof.Machine.execQuantumBoundary q lid s
  | .lineFill ag => Sys2Proof.Machine.execLineFill ag s
  | .fillArrival u tenant line => Sys2Proof.Machine.execFillArrival u tenant line s
  | .scheduleSlip ag => Sys2Proof.Machine.execScheduleSlip ag s
  | .loadReturn ag => Sys2Proof.Machine.execLoadReturn ag s
  | .trapDelivery ag => Sys2Proof.Machine.execTrapDelivery ag s
  | .tvecWrite value => Sys2Proof.Machine.execTvecWrite value s
  | .registerWrite reg value => Sys2Proof.Machine.execRegisterWrite reg value s
  | .sequencerStart core => Sys2Proof.Machine.execSequencerStart core s
  | .claimGrant u => Sys2Proof.Machine.execClaimGrant u s
  | .arrayService u => Sys2Proof.Machine.execArrayService u s
  | .tileOperation u => Sys2Proof.Machine.execTileOperation u s
  | .matrixCommandStart core => Sys2Proof.Machine.execMatrixCommandStart core s
  | .ringStep u => Sys2Proof.Machine.execRingStep u s
  | .subarrayGate u sub => Sys2Proof.Machine.execSubarrayGate u sub s
  | .mchainCancel => Sys2Proof.Machine.execMchainCancel s
  | .storePerformed core entry => Sys2Proof.Machine.execStorePerformed core entry s
  | .storeAck core entry => Sys2Proof.Machine.execStoreAck core entry s
  | .storeRefusal core entry => Sys2Proof.Machine.execStoreRefusal core entry s
  | .journalClear entry => Sys2Proof.Machine.execJournalClear entry s
  | .translationRequest write va => Sys2Proof.Machine.execTranslationRequest write va s
  | .translationDone ag => Sys2Proof.Machine.execTranslationDone ag s
  | .jobStart u => Sys2Proof.Machine.execJobStart u s
  | .jobEnd u id => Sys2Proof.Machine.execJobEnd u id s
  | .connectRequest n => Sys2Proof.Machine.execConnectRequest n s
  | .connectOutcome n => Sys2Proof.Machine.execConnectOutcome n s
  | .messageArrival n => Sys2Proof.Machine.execMessageArrival n s
  | .creditFlit ag e => Sys2Proof.Machine.execCreditFlit ag e s
  | .creditArrival n => Sys2Proof.Machine.execCreditArrival n s
  | .closeNotice n => Sys2Proof.Machine.execCloseNotice n s
  | .moved n => Sys2Proof.Machine.execMoved n s
  | .movedAtStub n => Sys2Proof.Machine.execMovedAtStub n s
  | .releaseNotice n => Sys2Proof.Machine.execReleaseNotice n s
  | .teamResident ag => Sys2Proof.Machine.execTeamResident ag s
  | .contributionApply n => Sys2Proof.Machine.execContributionApply n s
  | .signalDecided dom sig => Sys2Proof.Machine.execSignalDecided dom sig s
  | .causalityCycle dom => Sys2Proof.Machine.execCausalityCycle dom s
  | .instantEnd dom => Sys2Proof.Machine.execInstantEnd dom s
  | .watchdogExpiry dom => Sys2Proof.Machine.execWatchdogExpiry dom s
  | .domWrite k value => Sys2Proof.Machine.execDomWrite k value s
  | .bellRingArrival n => Sys2Proof.Machine.execBellRingArrival n s
  | .bellwaitLoad a bell => Sys2Proof.Machine.execBellwaitLoad a bell s
  | .bellcntStore bell value => Sys2Proof.Machine.execBellcntStore bell value s
  | .barcfgStore bar value => Sys2Proof.Machine.execBarcfgStore bar value s
  | .bararrLoad a bar => Sys2Proof.Machine.execBararrLoad a bar s
  | .barrierRelease u bar => Sys2Proof.Machine.execBarrierRelease u bar s
  | .mutexLoad a mutex => Sys2Proof.Machine.execMutexLoad a mutex s
  | .mutexStore mutex => Sys2Proof.Machine.execMutexStore mutex s
  | .monitorWake ag => Sys2Proof.Machine.execMonitorWake ag s
  | .accMerge m j => Sys2Proof.Machine.execAccMerge m j s
  | .accumulateArrival n => Sys2Proof.Machine.execAccumulateArrival n s
  | .quotaWindow stack slice => Sys2Proof.Machine.execQuotaWindow stack slice s
  | .refusalReturn n => Sys2Proof.Machine.execRefusalReturn n s
  | .accAck n => Sys2Proof.Machine.execAccAck n s
  | .residualAgeing ag entry => Sys2Proof.Machine.execResidualAgeing ag entry s
  | .remoteAtomic ag => Sys2Proof.Machine.execRemoteAtomic ag s
  | .switchStop set => Sys2Proof.Machine.execSwitchStop set s
  | .save set => Sys2Proof.Machine.execSave set s
  | .restore set => Sys2Proof.Machine.execRestore set s
  | .switchResume set => Sys2Proof.Machine.execSwitchResume set s
  | .queueTeardown q => Sys2Proof.Machine.execQueueTeardown q s
  | .teardownStop q => Sys2Proof.Machine.execTeardownStop q s
  | .functionLevelReset func => Sys2Proof.Machine.execFunctionLevelReset func s
  | .traceUnfreeze => Sys2Proof.Machine.execTraceUnfreeze s
  | .tracedat3Read a => Sys2Proof.Machine.execTracedat3Read a s
  | .sliceTraceEnable value => Sys2Proof.Machine.execSliceTraceEnable value s
  | .slcdat3Read a => Sys2Proof.Machine.execSlcdat3Read a s
  | .tlbInvalidate value => Sys2Proof.Machine.execTlbInvalidate value s
  | .tlbInvalidateDone ag => Sys2Proof.Machine.execTlbInvalidateDone ag s
  | .attestRequest func => Sys2Proof.Machine.execAttestRequest func s
  | .attestReportReady func => Sys2Proof.Machine.execAttestReportReady func s
  | .hostBarRead func bar off size => Sys2Proof.Machine.execHostBarRead func bar off size s
  | .hostBarWrite func bar off size value => Sys2Proof.Machine.execHostBarWrite func bar off size value s
  | .linkFlitReceive port flit => Sys2Proof.Machine.execLinkFlitReceive port flit s
  | .linkReplay port seq => Sys2Proof.Machine.execLinkReplay port seq s
  | .ackTimeout port => Sys2Proof.Machine.execAckTimeout port s
  | .linkRetrain port => Sys2Proof.Machine.execLinkRetrain port s
  | .linkDown port => Sys2Proof.Machine.execLinkDown port s
  | .linkUp port => Sys2Proof.Machine.execLinkUp port s
  | .powerOnReset => Sys2Proof.Machine.execPowerOnReset s
  | .bootStage err => Sys2Proof.Machine.execBootStage err s
  | .powerThrottle cycles => Sys2Proof.Machine.execPowerThrottle cycles s
  | .thermalThrottle stack cycles => Sys2Proof.Machine.execThermalThrottle stack cycles s
  | .thermalShutdown stack => Sys2Proof.Machine.execThermalShutdown stack s
  | .telemetryUpdate => Sys2Proof.Machine.execTelemetryUpdate s
  | .machineReport => Sys2Proof.Machine.execMachineReport s
  | .tapReset => Sys2Proof.Machine.execTapReset s
  | .bypass => Sys2Proof.Machine.execBypass s
  | .idcode => Sys2Proof.Machine.execIdcode s
  | .sample => Sys2Proof.Machine.execSample s
  | .extest => Sys2Proof.Machine.execExtest s
  | .dbgRead ctx space num => Sys2Proof.Machine.execDbgRead ctx space num s
  | .dbgWrite ctx space num data => Sys2Proof.Machine.execDbgWrite ctx space num data s
  | .haltreq ctx => Sys2Proof.Machine.execHaltreq ctx s
  | .dbgResume ctx => Sys2Proof.Machine.execDbgResume ctx s
  | .dbgStatus ctx => Sys2Proof.Machine.execDbgStatus ctx s
  | .hostQueueCreate q svc => Sys2Proof.Machine.execHostQueueCreate q svc s
  | .partitionChange tenant p => Sys2Proof.Machine.execPartitionChange tenant p s
  | .switchSchedule tenant stop resume => Sys2Proof.Machine.execSwitchSchedule tenant stop resume s
  | .retrainComplete port => Sys2Proof.Machine.execRetrainComplete port s
  | .softError addr double => Sys2Proof.Machine.execSoftError addr double s

end Sys2Proof.Machine
end

