-- ==== Sys2Proof/Machine/Schedule.lean ====
section
/-!
DEFINITION. Machine/Schedule.lean: time, the move taken when the schedule names none, and how an instruction is placed where the
next step fetches it.
-/
namespace Sys2Proof.Machine

/-- Time passes: one cycle and a free amount more (00 R4; log 1), which watchdogs count; the event units have seen the writes of the last
step (15 R436), and the stack dispatchers its changes of FREE and LARGEST (03 R64). -/
def State.tick (s : State) : State :=
  let n := 1 + Config.stall s.draws
  { s.noteBarriers.noteFree with time := s.time + BitVec.ofNat 64 n, draws := s.draws + 1 }.countWatchdogs n

/-- The contexts that take turns, in order: candidates for issue, and those that are retiring. -/
def State.candidates (s : State) : List AgentId :=
  (s.ctxs.filter (fun p => p.2.candidate || (p.2.phase = .live && p.2.retiring.isSome))).map (·.1)

/-- What follows an element of a list. -/
def after (a : AgentId) : List AgentId → List AgentId
  | [] => []
  | b :: rest => if b = a then rest else after a rest

/-- The candidates of a core in the order in which it considers them: last + 1, last + 2, last + 3, last, modulo 4 (06 R140). -/
def State.turns (s : State) (core : AgentId) : List AgentId :=
  (List.range 4).flatMap (fun n =>
    s.candidates.filter (fun a => coreKey a = core && ctxIndex a = ((s.coreOf core).last + 1 + n) % 4))

/-- The context that issues when the schedule names no move. The core whose context moved last goes on to its next context in order, when
that context was not chosen; otherwise the next core begins with its first (the model's own order of cores; log 3). -/
def State.nextIssue (s : State) : Option AgentId :=
  let cores := (s.candidates.map coreKey).eraseDups
  let core := coreKey s.cur
  let rest := if (s.coreOf core).last = ctxIndex s.cur then [] else after s.cur (s.turns core)
  match rest with
  | a :: _ => some a
  | [] =>
    match (after core cores ++ cores).head? with
    | some k => (s.turns k).head?
    | none => none

/-- A part of an access is made (17 R464). -/
def State.partialAccess (s : State) (p : Part) : State :=
  match p with
  | .load a high => s.loadHalf a high
  | .hop n => s.hopAcc n
  | .lane core n => s.lanePart core n
  | .operand core k n => s.operandPart core k n
  | .output u n => s.outputPart u n
  | .job u id r n w => s.jobPart (jobUnit u) id r n w
  | .host n => s.performHost n
  | .payload a n => s.payloadPart a n
  | .element n => s.elementPart n
  | .record q lid n => s.recordPart q lid n
  | .slot q lid => s.slotPart q lid
  | .flit port => s.flitPart port
  | .tapInstruction code => s.tapInstruction code
  | .tapScan tdi => s.tapScan tdi

/-- The context in which `withFetchWord` places an instruction: context 0 of core 0 of cluster 0 of stack 0. -/
def demoAgent : AgentId := .core 0 0 0 0

/-- A line of text of 64 bytes that begins with given words. -/
def demoLine (ws : List HWord) : Line := ⟨0, 0x1000 / 64, (ws ++ List.replicate 32 0).take 32, [], []⟩

/-- A machine in which context 0.0.0.0 is live at program privilege at 0x1000, its line in the cluster's instruction cache, and its
issue is the next move (log 11). -/
def State.place (s : State) (ws : List HWord) : State :=
  let c := s.ctxOf demoAgent
  let s := s.setCtxOf demoAgent { c with
    phase := .live, retiring := none, pause := .no, haltReq := false, stopped := false, halted := false, pc := 0x1000
    fetchBuf := [], wait := .none, pend := .none, missed := false, stepping := false, inIssue := [], lact := false, operandTrap := none, watchdog := none
    causality := none, jobFaults := [], vloop := none, nanRecord := none, ie := false, owed := 0 }
  let s := s.updUnit demoAgent (fun u => u.install { demoLine ws with tenant := c.tenant })
  { s with moves := [.issue demoAgent], cur := demoAgent, thermalStop := false }

end Sys2Proof.Machine
end

