-- ==== Sys2Proof/Machine/Step.lean ====
section
/-!
DEFINITION. Machine/Step.lean: one step of the machine.
-/
namespace Sys2Proof.Machine

/-- A context issues its next group: the instruction decoded at its PC runs, unless a trap, a wait or a fetch takes its turn. A context
that is retiring goes on with that. Stores that are ordered before the context's accesses are performed first (17 R470). -/
noncomputable def issue (s₀ : State) (a : AgentId) : Host.Outcome State Fault Refusal :=
  let s := s₀.orderFor a
  match s.retiringTurn a with
  | some t => .next t
  | none =>
    match s.prepare a with
    | .stop s' => .next (s'.trapTurn s a)
    | .run s' i =>
      match exec i s' with
      | .next t => .next ((if s'.completed t a then t.overtake (s'.ctxOf a) a i else t).chosen s' a)
      | .fault r => .fault r
      | .refused r => .refused r

/-- One step: the move at the head of the schedule, or the next context to issue; time passes. A module held in reset after thermal
shutdown does nothing until power cycles (22 R537). -/
noncomputable def step (s : State) : Host.Outcome State Fault Refusal :=
  let t := s.tick
  match s.moves with
  | .event i :: rest =>
    if s.thermalStop ∧ i ≠ .powerOnReset then .fault .heldInReset else exec i { t with moves := rest }
  | .part p :: rest => if s.thermalStop then .fault .heldInReset else .next ({ t with moves := rest }.partialAccess p)
  | .issue a :: rest => if s.thermalStop then .fault .heldInReset else issue { t with moves := rest } a
  | [] =>
    if s.thermalStop then .fault .heldInReset
    else
      match s.nextIssue with
      | some a => issue t a
      | none => .next t

/-- `s` with an instruction stored where the next step fetches it (log 11). -/
def State.withFetchWord (s : State) (nbits w : Nat) : State := s.place (tableWords nbits w)

end Sys2Proof.Machine
end

