-- ==== Sys2Proof/Safety.lean ====
section
/-!
DEFINITION. Safety.lean: what a safe step is, and the words in which the statements say what an instruction does.
-/
namespace Sys2Proof

/-- A step is safe when the machine goes on: it neither faults nor refuses. -/
def SafeStep (s : Machine.State) : Prop := ∃ t, Machine.step s = .next t

/-- A state in which nothing stops: the module is not held in reset (22 R537). -/
def Running (s : Machine.State) : Prop := s.thermalStop = false

namespace Machine

/-- From `s` to `t` nothing changes but the context in issue and the loop buffer of its core: every byte of memory, every other
context, every core otherwise, and every other part of the machine stand as they were. -/
def OnlyCtx (s t : State) : Prop :=
  (∀ a, a ≠ s.cur → t.ctxOf a = s.ctxOf a) ∧
  (∀ a, coreKey a ≠ coreKey s.cur → t.coreOf a = s.coreOf a) ∧
  { t.coreOf s.cur with loopBuf := (s.coreOf s.cur).loopBuf } = s.coreOf s.cur ∧
  { t with ctxs := s.ctxs, cores := s.cores } = s

/-- The outcome `r` is a next state that differs from `s` in the context in issue alone, which becomes `c`. -/
def GivesCtx (s : State) (r : Res) (c : Ctx) : Prop := ∃ t, r = .next t ∧ OnlyCtx s t ∧ t.ctx = c

/-- The group in issue completes: PC and loop registers move on (06 R170), and `f` is all else that it does to the context. -/
def Gives (s : State) (r : Res) (f : Ctx → Ctx) : Prop := GivesCtx s r (f (s.ctx.advance s.groupBytes).ready)

/-- The group completes by a transfer to `target`, which a branch trace records where the context traces branches (18 R493); `f` is all
else that it does to the context. -/
def Jumps (s : State) (r : Res) (target : Word) (f : Ctx → Ctx) : Prop :=
  GivesCtx (s.traceIf s.cur 0 0 0 s.ctx.pcLow target) r ((f s.ctx.ready).setPc target)

/-- The group takes a precise trap (06 R179). What the entry does is stated of `State.takeTrap`. -/
def Traps (s : State) (r : Res) (code : BitVec 8) (tval : Word) : Prop :=
  r = .next (s.takeTrap s.cur .precise s.group.words.length code tval)

/-- The operands y and z of an integer form: x[a] and x[b], or x[b] and x[c] where c is given (04 R93, 06 R154). -/
def XOps (k : Ctx) (a b : XReg) (c : Option XReg) (y z : Word) : Prop :=
  match c with
  | none => y = k.getX a ∧ z = k.getX b
  | some c => y = k.getX b ∧ z = k.getX c

/-- The same over f registers. -/
def FOps (k : Ctx) (a b : FReg) (c : Option FReg) (y z : Word) : Prop :=
  match c with
  | none => y = k.getF a ∧ z = k.getF b
  | some c => y = k.getF b ∧ z = k.getF c

/-- A page 1 group `i` that raises floating `flags` (07 R202): FP_TRAP with the enabled flags raised, and nothing of the group; otherwise `f`,
the flags and SAT join the sticky set, and the group may be in flight when FPCSR is next written (07 R203; log 49). -/
def FpGives (s : State) (i : Instr) (flags : BitVec 5) (sat : Bool) (f : Ctx → Ctx) : Prop :=
  if flags &&& s.ctx.fpcsr.en ≠ 0 then Traps s (exec i s) 0x30 ((flags &&& s.ctx.fpcsr.en).setWidth 32)
  else Gives s (exec i s) (fun k => { f k with fpcsr := { (f k).fpcsr with
    flags := (f k).fpcsr.flags ||| flags, sat := (f k).fpcsr.sat || sat } }.fly i 0 s.ctx.fpcsr.en flags sat 0)

/-- A rational group `i` that raises `flags` in `runs` runs (08 R224): RATIONAL_TRAP with the enabled flags raised, and nothing of the
group; otherwise `f`, the flags join the sticky set, RUNS is written, and the group may be in flight when RCSR is next written (log 49). -/
def RatGives (s : State) (i : Instr) (flags : BitVec 5) (runs : Nat) (f : Ctx → Ctx) : Prop :=
  if flags &&& s.ctx.rcsr.en ≠ 0 then Traps s (exec i s) 0x31 ((flags &&& s.ctx.rcsr.en).setWidth 32)
  else Gives s (exec i s) (fun k => { f k with rcsr := { (f k).rcsr with
    flags := (f k).rcsr.flags ||| flags, runs := BitVec.ofNat 6 runs } }.fly i runs s.ctx.rcsr.en 0 false flags)

/-- The start of an entry `e` of a vector sequencer that writes the elements of v[a] (10 R262, R268, R269): below VL an active element
becomes `f i` and an inactive one follows MPOL, from VL on an element follows TPOL, and from COUNT on nothing is written; the flags of the
active elements join FPCSR. No other v register, no x or f register, no other context and no byte of memory changes. -/
def LaneGives (s : State) (r : Res) (e : SeqEntry) (a : VReg) (m : VMask) (f : Nat → Elem) : Prop :=
  let c := s.ctxOf e.ctx
  let act (i : Nat) : Bool := i < e.vl && (m.msel = 0 || (s.lane e.ctx (m.msel.setWidth 5) i).getLsbD 0)
  ∃ t, r = .next t ∧ t.mem = s.mem ∧ (∀ b, b ≠ e.ctx → t.ctxOf b = s.ctxOf b) ∧
    (∀ i : Fin 64, ((t.ctxOf e.ctx).getV a)[i] =
      if c.count ≤ i then (c.getV a)[i]
      else if i < e.vl then (if act i then (f i).w else if m.mpol then 0xFFFFFFFF else (c.getV a)[i])
      else if m.tpol then 0xFFFFFFFF else (c.getV a)[i]) ∧
    (∀ q, q ≠ a → (t.ctxOf e.ctx).getV q = c.getV q) ∧ (t.ctxOf e.ctx).x = c.x ∧ (t.ctxOf e.ctx).f = c.f ∧
    (∀ j : Fin 5, (t.ctxOf e.ctx).fpcsr.flags[j] = (c.fpcsr.flags[j] || (List.range 64).any (fun i => act i && (f i).flags[j]))) ∧
    (t.ctxOf e.ctx).fpcsr.sat = (c.fpcsr.sat || (List.range 64).any (fun i => act i && (f i).sat))

/-- A local address names cluster memory that needs no further check: own TCM (`own`), the scratchpad, matrix-side memory, or the TCM of
a core that is present (12 R338, R342). `flat` is the number of its byte. -/
def Near (s : State) (ea : Word) (flat : Nat) (own : Bool) : Prop :=
  match place s.cur ea.toNat with
  | .ownTcm o => flat = ownTcmAt s.cur o ∧ own = true
  | .scratch f => flat = f ∧ own = false
  | .matrix f => flat = f ∧ own = false
  | .peer st c k o => s.present s.cur st c k = true ∧ flat = tcmAt st c k o ∧ own = false
  | .shared => False
  | .event _ => False
  | .aperture _ => False
  | .port _ => False
  | .unmapped => False

/-- The state in which an access of kind `kind` (2 a load, 3 a store) beyond the own TCM has been traced (18 R493). -/
def State.accessed (s : State) (own : Bool) (kind : Nat) (ea : Word) : State :=
  if own then s else s.traceIf s.cur 2 kind 0 s.ctx.pcLow ea

/-- A naturally aligned load of `size` bytes at `ea` answers `bs` without a fault or a wait: from cluster memory without an
uncorrectable error, or from shared SRAM when the data have arrived. `u` is the state in which single-bit errors are corrected (12 R371)
and the access is traced. -/
def LoadAnswers (s : State) (ea : Word) (size : Nat) (bs : List Byte) (u : State) : Prop :=
  ea.toNat % size = 0 ∧
    ((∃ flat own, Near s ea flat own ∧ s.hasBad flat size = false ∧ bs = s.bytesAt flat size ∧
        u = (s.correct flat size).accessed own 2 ea) ∨
      (place s.cur ea.toNat = .shared ∧ (homeOf s.ctx.windows ea.toNat .load).isSome = true ∧ s.ctx.pend = .got bs ∧
        u = s.accessed false 2 ea))

/-- An unacknowledged store of a context, which its home has not refused on record, supplies byte `m` to the context's loads (06 R165, 12
R350). -/
def Supplies (s : State) (ag : AgentId) (m : Nat) (e : JEntry) : Prop :=
  (∃ n, (n, e) ∈ (s.coreOf ag).journal) ∧ e.ctx = ag ∧ e.unacked = true ∧ e.home ≤ m ∧ m < e.home + 4 ∧ e.be.getLsbD (m - e.home) = true

/-- A naturally aligned store of `size` bytes at `ea` goes to the byte with number `flat` of cluster memory: it is outside the
hardware-managed ranges or made at kernel privilege (12 R339), and a part of a word does not meet an uncorrectable error (12 R371). -/
def StoreGoes (s : State) (ea : Word) (size flat : Nat) (own : Bool) : Prop :=
  ea.toNat % size = 0 ∧ Near s ea flat own ∧ (s.ctx.prv = true ∨
    (match place s.cur ea.toNat with
      | .ownTcm o => s.hwManaged s.cur o = false
      | .peer st c k o => s.hwManaged (.core st c k 0) o = false
      | .scratch _ => True
      | .matrix _ => True
      | .shared => True
      | .event _ => True
      | .aperture _ => True
      | .port _ => True
      | .unmapped => True)) ∧ (size < 4 → s.hasBad flat size = false)

/-- The outcome `r` is a next state in which the group has completed with `f` as its effect on the context and the `size` bytes from
`flat` hold `v`, least significant byte first; every other byte of every memory, every other context and every other core stands as it
was, and of the rest of the machine at most the marks of corrected and overwritten errors have changed. -/
def StoresBytes (s : State) (r : Res) (flat size : Nat) (v : BitVec 64) (f : Ctx → Ctx) : Prop :=
  ∃ t, r = .next t ∧ t.ctx = f (s.ctx.advance s.groupBytes).ready ∧ (∀ a, a ≠ s.cur → t.ctxOf a = s.ctxOf a) ∧
    (∀ a, coreKey a ≠ coreKey s.cur → t.coreOf a = s.coreOf a) ∧
    (∀ m, t.byteAt m = if flat ≤ m ∧ m < flat + size then v.extractLsb' (8 * (m - flat)) 8 else s.byteAt m) ∧
    { t with ctxs := s.ctxs, cores := s.cores, mem := s.mem, eccBad := s.eccBad, eccOne := s.eccOne, cec := s.cec, cecTen := s.cecTen } = s

end Machine

end Sys2Proof
end

