-- ==== Sys2Proof/Certificates/Slice0/Obligations.lean ====
section
/-!
DEFINITION. Certificates/Slice0/Obligations.lean: the statements for the provers.
-/
open Sys2Proof Sys2Proof.Machine

/-- When the schedule names a context whose issue nothing holds up (it is not retiring or stopped, no stop time has come, no trap is due, it may issue, no fill of its line has failed, no VLOOP body is being collected, no MATRIX_NAN waits, no result it needs is pending) and its fetch gives words that decode to i, the step is exec of i on the state after time has passed, stores acknowledged at a scope that holds the context have been performed (17 R470) and the group is fetched, with the group (words, page, base word) set, the latencies of the groups in flight run on (06 R142) and the context named as the one in issue; once the group has completed, a result that a vector entry or matrix command has yet to write to a register that the group has written is no longer wanted (06 R143); a context whose group issued, one that then waits (a load for its data) included, is the one its core chose last, and its core loads the block of its next group (04 R116). The schedule and this frame of a step are the model's (notes/assumptions 1 and 3). When the schedule's next move is an event and the module is not held in reset after thermal shutdown, the step is exec of the event's constructor on the state in which time has passed and the move is used up. While the module is held in reset every other event stops with the fault heldInReset (22 R537). That the schedule is a list in the state, and acknowledgment at a scope, are the model's choice (notes/assumptions 3, 47). -/
def Obligations.StepRunsTheDecodedGroupOrEvent : Prop :=
  (∀ (s s1 : State) (a : AgentId) (rest : List Move) (ws : List HWord) (i : Instr) (len : Nat) (page : BitVec 4) (base : HWord),
    s.moves = .issue a :: rest → s.thermalStop = false →
    let s0 : State := { ({ s.tick with moves := rest } : State).orderFor a with cur := a }
    (s0.ctxOf a).retiring = none → s0.stopDue a = false → (s0.ctxOf a).candidate = true → s0.due a = .none →
    (∀ code, (s0.ctxOf a).wait ≠ .badFill code) → s0.fetch a = .words s1 ws → decode ws = .ok i len page base →
    (s1.ctxOf a).vloop = none → (s1.ctxOf a).nanRecord = none →
    let s3 : State := { s1 with group := ⟨ws.take len, page, base⟩ }
    s3.interlocked a i = false →
    let s2 := s3.pass a i
    step s =
      match exec i s2 with
      | .next t => .next ((if s2.completed t a then t.overtake (s2.ctxOf a) a i else t).chosen s2 a)
      | .fault r => .fault r
      | .refused r => .refused r) ∧
  (∀ (s : State) (i : Instr) (rest : List Move), s.moves = .event i :: rest →
    (s.thermalStop = false → step s = exec i { s.tick with moves := rest }) ∧
    (s.thermalStop = true → i ≠ .powerOnReset → step s = .fault .heldInReset) ∧
    step { s with moves := .event .powerOnReset :: rest } = exec .powerOnReset { ({ s with moves := .event .powerOnReset :: rest } : State).tick with moves := rest })

/-- For every well-formed instruction of the opcode map (every constructor that has fields, with every operand at every value that the encoding admits) the encoder gives a group of words, and decoding these words followed by any others gives that instruction and the length of the group. No bit of an operand is dropped, and no two well-formed instructions share a group. -/
def Obligations.DecodeInvertsEncode : Prop :=
  ∀ (i : Instr), i.wf = true → i.fields ≠ none →
    ∃ ws, encode i = some ws ∧ ∀ rest : List HWord, ∃ page base, decode (ws ++ rest) = .ok i ws.length page base

/-- For every list of words: if decoding answers an instruction, then the instruction is well formed, the group is at least one and at most five words long and lies within the list, and the words of the group alone decode to the same instruction. -/
def Obligations.DecodedGroupIsWellFormed : Prop :=
  ∀ (ws : List HWord) (i : Instr) (len : Nat) (page : BitVec 4) (base : HWord), decode ws = .ok i len page base →
    i.wf = true ∧ 1 ≤ len ∧ len ≤ 5 ∧ len ≤ ws.length ∧ decode (ws.take len) = .ok i len page base

/-- Words written out bit by bit from the opcode map and the manual's examples decode as they should: ADD x1, x2; GCD x4, x6, x7 (0xE870, 0x0A37); SHI.SRA x5, 3 (0x62C3); NOP (0xB806); TRAP 3 (0xB984); SRW x5, SLIPS (0xE001, 0xCAC0); FADD f1, f2 (0xF080, 0x0090); HALT (0xF400, 0x1002); and the words 0x0000 and 0xFFFF are ILLEGAL with reason 2. -/
def Obligations.WordsOfTheManualDecode : Prop :=
  decode [0x0090] = .ok (.add 1 2 none) 1 0 0x0090 ∧
  decode [0xE870, 0x0A37] = .ok (.gcd 4 6 (some 7)) 2 0 0x0A37 ∧
  decode [0x62C3] = .ok (.shi 5 2 3) 1 0 0x62C3 ∧
  decode [0xB806] = .ok .nop 1 0 0xB806 ∧
  decode [0xB984] = .ok (.trap 3) 1 0 0xB984 ∧
  decode [0xE001, 0xCAC0] = .ok (.srw 5 0xC0) 2 0 0xCAC0 ∧
  decode [0xF080, 0x0090] = .ok (.fadd 1 2 none) 2 1 0x0090 ∧
  decode [0xF400, 0x1002] = .ok .halt 2 8 0x1002 ∧
  decode [0x0000] = .illegal 2 0 0x0000 0 ∧ decode [0xFFFF] = .illegal 2 0 0xFFFF 0

/-- For every state whose memory is in canonical form (addresses strictly rising, no listed byte equal to what an unlisted address reads as), if a step answers a next state, the memory of that state is in canonical form. The form, and that unlisted bytes read zero, are the model's (notes/assumptions 2). -/
def Obligations.MemoryStaysCanonical : Prop :=
  ∀ (s t : State), Memory.wf s.mem = true → step s = .next t → Memory.wf t.mem = true

/-- State.reset lists no byte of memory: its memory is in canonical form and every byte reads zero. That bytes which nothing has written read zero is the model's choice (notes/assumptions 2). -/
def Obligations.ResetMemoryIsCanonical : Prop :=
  Memory.wf State.reset.mem = true ∧ ∀ a, State.reset.byteAt a = 0

/-- For every state: step answers a next state unless the module is held in reset after thermal shutdown (22 R537). There an event other than POWER_ON_RESET, the issue of a context, a part of a group and an empty schedule fault with heldInReset, and POWER_ON_RESET runs: it gives the machine after reset, but for the schedule, the counter of free values and the module number, which the model keeps (notes/assumptions 41). No instruction and no event is refused and none faults: whatever an instruction meets, it completes, waits, or takes the trap that the manual describes. -/
def Obligations.NothingRefusesAndOnlyResetStops : Prop :=
  ∀ s : State, (s.thermalStop = false → ∃ t, step s = .next t) ∧
    (s.thermalStop = true →
      ((∀ rest, s.moves ≠ .event .powerOnReset :: rest) → step s = .fault .heldInReset) ∧
      (∀ rest, s.moves = .event .powerOnReset :: rest →
        step s = .next { State.reset with moves := rest, draws := s.draws + 1, modnum := s.modnum }))

/-- For every state with canonical memory: after storing bytes from a number on, byte i of them reads at that number plus i, and every byte outside them reads as before. A word is stored with its least significant byte lowest, and reads back whole. The numbering of bytes is the model's (notes/assumptions 2). -/
def Obligations.MemoryReadsBackWhatWasStored : Prop :=
  ∀ (s : State) (n : Nat) (bs : List Byte) (w : Word), Memory.wf s.mem = true →
    (∀ i (h : i < bs.length), (s.storeBytes n bs).byteAt (n + i) = bs[i]) ∧
    (∀ m, m < n ∨ n + bs.length ≤ m → (s.storeBytes n bs).byteAt m = s.byteAt m) ∧
    (s.storeWord n w).wordAt n = w ∧ (s.storeWord n w).byteAt n = w.extractLsb' 0 8

/-- For every context: x0 reads zero, a write to x0 changes nothing, and after a write to another x register that register reads the value written, every other x register reads as before and nothing else of the context has changed. -/
def Obligations.GeneralRegisterZeroIsHardwired : Prop :=
  ∀ (c : Ctx) (w : Word), c.getX 0 = 0 ∧ c.setX 0 w = c ∧
    ∀ r : XReg, r ≠ 0 → (c.setX r w).getX r = w ∧ (∀ q, q ≠ r → (c.setX r w).getX q = c.getX q) ∧
      { c.setX r w with x := c.x } = c

/-- For every context and group length in bytes: outside a LOOP the next PC is PC[31:0] + bytes in the same text segment. On the first pass a body group decrements LREM, and the one that brings it to 0 sets LEND to its own PC[31:0]. The group at LEND with LREM 0 decrements LCNT; while LCNT is not 0 the next PC[31:0] is LSTART, otherwise LACT becomes 0 and the next group follows. Nothing else of the context changes. -/
def Obligations.NextPcFollowsLoopRegisters : Prop :=
  ∀ (c : Ctx) (bytes : Word),
    let next (k : Ctx) : Ctx := { k with pc := k.pc.extractLsb' 32 16 ++ (c.pc.extractLsb' 0 32 + bytes) }
    let bodyEnd (k : Ctx) : Ctx :=
      if c.lcnt - 1 ≠ 0 then { k with lcnt := c.lcnt - 1, pc := k.pc.extractLsb' 32 16 ++ c.lstart }
      else next { k with lcnt := c.lcnt - 1, lact := false }
    (c.lact = false → c.advance bytes = next c) ∧
    (c.lact = true → 1 < c.lrem.toNat → c.advance bytes = next { c with lrem := c.lrem - 1 }) ∧
    (c.lact = true → c.lrem = 1 → c.advance bytes = bodyEnd { c with lrem := 0, lend := c.pc.extractLsb' 0 32 }) ∧
    (c.lact = true → c.lrem = 0 → c.lend = c.pc.extractLsb' 0 32 → c.advance bytes = bodyEnd c) ∧
    (c.lact = true → c.lrem = 0 → c.lend ≠ c.pc.extractLsb' 0 32 → c.advance bytes = next c)

/-- For every context without a VLOOP body being collected and every trap of every class: EPC takes PC[31:0], CAUSE the code, GLEN, ASYNC and DEFER, TVAL its value, PPRV, PIE, PLACT and the shadows of TIMEH, INSTANTH and SWITCHAT the values they save; PRV and INTRAP become 1, IE and LACT 0. With TVEC 0 or INTRAP 1 the context begins to retire with the trap as fatal; otherwise PC[31:0] becomes TVEC. The wait of the group is over (R184). No other register of the context, no other context and no byte of memory changes. -/
def Obligations.TrapEntrySavesAndEnters : Prop :=
  ∀ (s : State) (a : AgentId) (cls : TrapClass) (glen : Nat) (code : BitVec 8) (tval : Word),
    glen < 8 → (s.ctxOf a).vloop = none →
    let c := s.ctxOf a
    let t := s.takeTrap a cls glen code tval
    let saved : Ctx := { c with
      epc := c.pc.extractLsb' 0 32
      cause := BitVec.ofNat 32 (code.toNat + 2 ^ 8 * glen + (if cls = .async then 2 ^ 12 else 0) + (if cls = .deferred then 2 ^ 13 else 0))
      tval := tval, pprv := c.prv, pie := c.ie, plact := c.lact, ptimeh := c.timeh, pinsth := c.insth, pswh := c.swh
      prv := true, ie := false, lact := false, intrap := true
      wait := .none, pend := .none, halted := false, missed := false, stepping := false, inIssue := [] }
    (c.tvec = 0 ∨ c.intrap = true → t.ctxOf a = { saved with retiring := some (.fatal code), flushing := true }) ∧
    (c.tvec ≠ 0 → c.intrap = false → t.ctxOf a = { saved with pc := c.pc.extractLsb' 32 16 ++ c.tvec, flushing := false }) ∧
    (∀ b, b ≠ a → t.ctxOf b = s.ctxOf b) ∧ t.mem = s.mem

/-- At kernel privilege outside a LOOP body ERET completes: PC[31:0] becomes EPC, PRV, IE and LACT take PPRV, PIE and PLACT, INTRAP becomes 0, the shadows of TIMEH, INSTANTH and SWITCHAT take PTIMEH, PINSTH (its low 16 bits: 15 R430) and PSWH. The trap trace is recorded where it is on, and a suspended matrix command that waits for it is resumed (R325). Nothing else changes. At program privilege it raises PRIV with the base word in TVAL and in a LOOP body ILLEGAL with reason 9. -/
def Obligations.EretReturnsFromTrap : Prop :=
  ∀ (s : State),
    let u := (s.traceIf s.cur 4 6 0 s.ctx.pcLow s.ctx.epc).resumeMatrix s.cur
    let c := u.ctxOf s.cur
    (s.ctx.lact = false → s.ctx.prv = true →
      GivesCtx u (exec .eret s) { c with
        pc := c.pc.extractLsb' 32 16 ++ s.ctx.epc, prv := s.ctx.pprv, ie := s.ctx.pie, lact := s.ctx.plact, intrap := false
        timeh := s.ctx.ptimeh, insth := s.ctx.pinsth &&& 0xFFFF, swh := s.ctx.pswh
        resumable := false, wait := .none, pend := .none, missed := c.missed && c.inIssue ≠ [], stepping := false, inIssue := [] }) ∧
    (s.ctx.resumable = false → c = s.ctx) ∧
    (s.ctx.lact = false → s.ctx.prv = false → Traps s (exec .eret s) 0x02 (s.group.base.setWidth 32)) ∧
    (s.ctx.lact = true → Traps s (exec .eret s) 0x01 (illegalTval 9 (s.group.words.length - 1) s.group.base s.group.page))

/-- For every state and operand form, the integer instructions with an optional c complete: x[a] becomes the result that R155 and R156 give for y and z (x[a], x[b] without PFR, x[b], x[c] with it), and PC and loop registers move on. No other register, flag, byte of memory or part of the machine changes. -/
def Obligations.IntegerArithmeticResults : Prop :=
  ∀ (s : State) (a b : XReg) (c : Option XReg) (y z : Word), XOps s.ctx a b c y z →
    Gives s (exec (.add a b c) s) (·.setX a (y + z)) ∧
    Gives s (exec (.sub a b c) s) (·.setX a (y - z)) ∧
    Gives s (exec (.andX a b c) s) (·.setX a (y &&& z)) ∧
    Gives s (exec (.orX a b c) s) (·.setX a (y ||| z)) ∧
    Gives s (exec (.xorX a b c) s) (·.setX a (y ^^^ z)) ∧
    Gives s (exec (.sll a b c) s) (·.setX a (y <<< (z.toNat % 32))) ∧
    Gives s (exec (.srl a b c) s) (·.setX a (y >>> (z.toNat % 32))) ∧
    Gives s (exec (.sra a b c) s) (·.setX a (y.sshiftRight (z.toNat % 32))) ∧
    Gives s (exec (.mul a b c) s) (·.setX a (wordOf (y.toInt * z.toInt))) ∧
    Gives s (exec (.mulh a b c) s) (·.setX a (wordOf (y.toInt * z.toInt / 2 ^ 32))) ∧
    Gives s (exec (.mulhn a b c) s) (·.setX a (BitVec.ofNat 32 (y.toNat * z.toNat / 2 ^ 32))) ∧
    Gives s (exec (.minX a b c) s) (·.setX a (if y.toInt < z.toInt then y else z)) ∧
    Gives s (exec (.maxX a b c) s) (·.setX a (if y.toInt < z.toInt then z else y)) ∧
    Gives s (exec (.minn a b c) s) (·.setX a (if y.toNat < z.toNat then y else z)) ∧
    Gives s (exec (.maxn a b c) s) (·.setX a (if y.toNat < z.toNat then z else y)) ∧
    Gives s (exec (.andn a b c) s) (·.setX a (y &&& ~~~z)) ∧
    Gives s (exec (.orn a b c) s) (·.setX a (y ||| ~~~z)) ∧
    Gives s (exec (.rol a b c) s) (·.setX a (y <<< (z.toNat % 32) ||| y >>> (32 - z.toNat % 32))) ∧
    Gives s (exec (.ror a b c) s) (·.setX a (y >>> (z.toNat % 32) ||| y <<< (32 - z.toNat % 32)))

/-- For every state the integer instructions without c complete and write to x[a] the result that R155 gives for y = x[b]. CLZ and CTZ are given by what the bits say: n is the count of leading (trailing) zeros when n is at most 32, the n bits are 0, and n is 32 or the next bit is 1. Nothing else changes but PC and loop registers. For every state CEQ, CNE, CLT, CGE, CLTN, CGEN and TST set T from x[a] and x[b], CEQI and CLTI from x[a] and the immediate, signed or unsigned as R159 and R160 say, and write no register. MOVT writes T to x[a], zero-extended. Nothing else changes but PC and loop registers. -/
def Obligations.IntegerUnaryAndCompareResults : Prop :=
  (∀ (s : State) (a b : XReg), let y := s.ctx.getX b
    Gives s (exec (.mov a b) s) (·.setX a y) ∧
    Gives s (exec (.neg a b) s) (·.setX a (-y)) ∧
    Gives s (exec (.notX a b) s) (·.setX a (~~~y)) ∧
    (∀ n : Nat, n ≤ 32 → (∀ i < n, y.getLsbD (31 - i) = false) → (n = 32 ∨ y.getLsbD (31 - n) = true) →
      Gives s (exec (.clz a b) s) (·.setX a (BitVec.ofNat 32 n))) ∧
    (∀ n : Nat, n ≤ 32 → (∀ i < n, y.getLsbD i = false) → (n = 32 ∨ y.getLsbD n = true) →
      Gives s (exec (.ctz a b) s) (·.setX a (BitVec.ofNat 32 n))) ∧
    Gives s (exec (.popc a b) s) (·.setX a (BitVec.ofNat 32 ((List.range 32).filter y.getLsbD).length)) ∧
    Gives s (exec (.sextb a b) s) (·.setX a ((y.extractLsb' 0 8).signExtend 32)) ∧
    Gives s (exec (.sexth a b) s) (·.setX a ((y.extractLsb' 0 16).signExtend 32))) ∧
  (∀ (s : State) (a b : XReg) (imm : Imm), let y := s.ctx.getX a; let z := s.ctx.getX b
    Gives s (exec (.ceq a b) s) (·.setT (decide (y = z))) ∧
    Gives s (exec (.cne a b) s) (·.setT (decide (y ≠ z))) ∧
    Gives s (exec (.clt a b) s) (·.setT (decide (y.toInt < z.toInt))) ∧
    Gives s (exec (.cge a b) s) (·.setT (decide (z.toInt ≤ y.toInt))) ∧
    Gives s (exec (.cltn a b) s) (·.setT (decide (y.toNat < z.toNat))) ∧
    Gives s (exec (.cgen a b) s) (·.setT (decide (z.toNat ≤ y.toNat))) ∧
    Gives s (exec (.tst a b) s) (·.setT (decide (y &&& z ≠ 0))) ∧
    Gives s (exec (.ceqi a imm) s) (·.setT (decide (y = imm))) ∧
    Gives s (exec (.clti a imm) s) (·.setT (decide (y.toInt < imm.toInt))) ∧
    Gives s (exec (.movt a) s) (·.setX a (if s.ctx.t then 1 else 0)))

/-- The words with primary 0b00001 and fn 3 to 7 are DIV, DIVN, REM, REMN and GCD, without c, and with c in a PFR. For every state and operand form the division group completes. By zero: quotient 0, remainder 0, T 1. The one signed overflow: quotient 0x7FFFFFFF, remainder 0, T 1. Otherwise the quotient truncated toward zero and the remainder y - quo * z, T 0. GCD writes the greatest common divisor of the unsigned operands and T says whether it is 1. Nothing else changes but PC and loop registers. -/
def Obligations.IntegerDivisionResults : Prop :=
  ∀ (s : State) (a b : XReg) (c : Option XReg) (y z : Word), XOps s.ctx a b c y z →
    let gives (i : Instr) (w : Word) (t : Bool) : Prop := Gives s (exec i s) (fun k => (k.setX a w).setT t)
    (z = 0 → gives (.div a b c) 0 true ∧ gives (.rem a b c) 0 true ∧ gives (.divn a b c) 0 true ∧ gives (.remn a b c) 0 true) ∧
    (y = 0x80000000 → z = 0xFFFFFFFF → gives (.div a b c) 0x7FFFFFFF true ∧ gives (.rem a b c) 0 true) ∧
    (z ≠ 0 → ¬(y = 0x80000000 ∧ z = 0xFFFFFFFF) →
      gives (.div a b c) (wordOf (y.toInt.tdiv z.toInt)) false ∧
      gives (.rem a b c) (wordOf (y.toInt - y.toInt.tdiv z.toInt * z.toInt)) false) ∧
    (z ≠ 0 → gives (.divn a b c) (BitVec.ofNat 32 (y.toNat / z.toNat)) false ∧
      gives (.remn a b c) (BitVec.ofNat 32 (y.toNat - y.toNat / z.toNat * z.toNat)) false) ∧
    gives (.gcd a b c) (BitVec.ofNat 32 (Nat.gcd y.toNat z.toNat)) (Nat.gcd y.toNat z.toNat = 1) ∧
    (∀ (p : BitVec 3 × (XReg → XReg → Option XReg → Instr)),
      p ∈ [(3#3, Instr.div), (4#3, Instr.divn), (5#3, Instr.rem), (6#3, Instr.remn), (7#3, Instr.gcd)] →
      let w : HWord := 0b00001#5 ++ a.extractLsb' 0 4 ++ b.extractLsb' 0 4 ++ p.1
      (a < 16 → b < 16 → decode [w] = .ok (p.2 a b none) 1 0 w) ∧
      ∀ z : XReg, decode [0b11101#5 ++ a.extractLsb' 4 1 ++ b.extractLsb' 4 1 ++ z ++ 0#4, w] = .ok (p.2 a b (some z)) 2 0 w)

/-- For every state the immediate forms complete and write to x[a] what R160 gives for x[a] and the immediate; SHI writes x[a] shifted or rotated by imm[4:0] as its kind selects (R161); PCA writes PC[31:0] + imm * 2 and makes no transfer (R169). Nothing else changes but PC and loop registers. -/
def Obligations.ImmediateResults : Prop :=
  ∀ (s : State) (a : XReg) (imm : Imm) (amt : BitVec 5), let y := s.ctx.getX a
    Gives s (exec (.addi a imm) s) (·.setX a (y + imm)) ∧
    Gives s (exec (.li a imm) s) (·.setX a imm) ∧
    Gives s (exec (.andi a imm) s) (·.setX a (y &&& imm)) ∧
    Gives s (exec (.ori a imm) s) (·.setX a (y ||| imm)) ∧
    Gives s (exec (.xori a imm) s) (·.setX a (y ^^^ imm)) ∧
    Gives s (exec (.shi a 0 amt) s) (·.setX a (y <<< amt.toNat)) ∧
    Gives s (exec (.shi a 1 amt) s) (·.setX a (y >>> amt.toNat)) ∧
    Gives s (exec (.shi a 2 amt) s) (·.setX a (y.sshiftRight amt.toNat)) ∧
    Gives s (exec (.shi a 3 amt) s) (·.setX a (y >>> amt.toNat ||| y <<< (32 - amt.toNat))) ∧
    Gives s (exec (.pca a imm) s) (·.setX a (s.ctx.pc.extractLsb' 0 32 + imm * 2))

/-- Outside a LOOP body: BF transfers when T is 0 and BT when T is 1, to PC[31:0] + imm * 2; otherwise the next group follows and nothing else changes. JMP transfers; JAL also writes the address of the next group to x1. JR and JALR transfer to x[b] + imm, read before x[a] is written; JALR writes the address of the next group to x[a]. With an odd target both raise ALIGN with the target in TVAL and write nothing. Nothing else of the machine changes but the branch trace entry. With LACT 1, each of the twelve groups that R171 forbids in a LOOP body raises ILLEGAL, at whatever privilege, with reason 0x9, the position of the base word, the page and the base word in TVAL; nothing of it takes effect. -/
def Obligations.ControlTransfersAndLoopBodies : Prop :=
  (∀ (s : State) (a b : XReg) (imm : Imm), s.ctx.lact = false →
    let pc := s.ctx.pc.extractLsb' 0 32
    let near := pc + imm * 2
    let far := s.ctx.getX b + imm
    let link := pc + BitVec.ofNat 32 (2 * s.group.words.length)
    (s.ctx.t = false → Jumps s (exec (.bf imm) s) near id ∧ Gives s (exec (.bt imm) s) id) ∧
    (s.ctx.t = true → Jumps s (exec (.bt imm) s) near id ∧ Gives s (exec (.bf imm) s) id) ∧
    Jumps s (exec (.jmp imm) s) near id ∧
    Jumps s (exec (.jal imm) s) near (·.setX 1 link) ∧
    (far.getLsbD 0 = false → Jumps s (exec (.jr b imm) s) far id ∧ Jumps s (exec (.jalr a b imm) s) far (·.setX a link)) ∧
    (far.getLsbD 0 = true → Traps s (exec (.jr b imm) s) 0x03 far ∧ Traps s (exec (.jalr a b imm) s) 0x03 far)) ∧
  (∀ (s : State) (a b : XReg) (imm : Imm) (k : BitVec 4) (sig : BitVec 6), s.ctx.lact = true →
    ∀ i ∈ [Instr.bf imm, .bt imm, .jmp imm, .jal imm, .jr b imm, .jalr a b imm, .loop a k, .eret, .endCtx, .endFail, .absb sig imm,
        .pres sig imm],
      Traps s (exec i s) 0x01 (illegalTval 9 (s.group.words.length - 1) s.group.base s.group.page))

/-- Outside a LOOP body, LOOP of k + 1 groups with x[a] not 0 sets LCNT to it, LSTART and PC[31:0] to the address of the next group, LREM to k + 1 and LACT to 1; its core's loop buffer, when free, is held by the context and empty; nothing else changes. With x[a] = 0 and a LOOP group at the end of the text segment the fetch fault of what would follow is taken; otherwise the groups are stepped over: PC[31:0] becomes the address after the k + 1 groups found there, or the context waits for a line of the body, in the middle of its step, during which no trap is taken, or the fetch fault of a missing word is taken with GLEN 0 at the LOOP group. -/
def Obligations.LoopBeginsOrStepsOverItsBody : Prop :=
  ∀ (s : State) (a : XReg) (k : BitVec 4), s.ctx.lact = false →
    let n := s.ctx.getX a
    let start := s.ctx.pc.extractLsb' 0 32 + BitVec.ofNat 32 (2 * s.group.words.length)
    (n ≠ 0 →
      GivesCtx s (exec (.loop a k) s) { s.ctx with
        lcnt := n, lstart := start, lrem := BitVec.ofNat 5 (k.toNat + 1), lact := true
        pc := s.ctx.pc.extractLsb' 32 16 ++ start, wait := .none, pend := .none
        missed := s.ctx.missed && s.ctx.inIssue ≠ [], stepping := false, inIssue := [] } ∧
      (s.core.loopBuf = none → ∃ t, exec (.loop a k) s = .next t ∧ t.core.loopBuf = some ⟨ctxIndex s.cur, []⟩)) ∧
    (n = 0 → start ≤ s.ctx.pc.extractLsb' 0 32 →
      exec (.loop a k) s = .next (s.takeTrap s.cur .precise 0 0x04 (s.ctx.pc.extractLsb' 0 32))) ∧
    (n = 0 → s.ctx.pc.extractLsb' 0 32 < start → ∀ r, s.skipGroups s.cur (s.ctx.pc.extractLsb' 32 16) (k.toNat + 1) start = r →
      match r with
      | .at_ u pc => ∃ t, exec (.loop a k) s = .next t ∧ t = u.upd (fun c => { c with
          pc := c.pc.extractLsb' 32 16 ++ pc, wait := .none, pend := .none, missed := c.missed && c.inIssue ≠ [], stepping := false
          inIssue := [] })
      | .later u => exec (.loop a k) s = .next (u.upd (fun c => { c with stepping := true }))
      | .fault code => exec (.loop a k) s = .next (s.takeTrap s.cur .precise 0 code (s.ctx.pc.extractLsb' 0 32)))

/-- For every state TRAP code is taken as the precise trap SYSCALL and BRK code as BREAK, with the code in TVAL. The word of TRAP has primary 0b10111, the code in a, b zero and fn 4, that of BRK fn 0 of primary 0 on page 8; a non-zero b, or an AH bit of 1 (a code above 15), is ILLEGAL with reason 0x9. EPC names the group itself (without a VLOOP body being collected), GLEN its length in words, and EPC + 2 * GLEN is the address at which a handler resumes after it. -/
def Obligations.TrapAndBrkRaiseTheirTraps : Prop :=
  ∀ (s : State) (code : BitVec 4),
    Traps s (exec (.trap code) s) 0x41 (code.setWidth 32) ∧ Traps s (exec (.brk code) s) 0x40 (code.setWidth 32) ∧
    (let w := 0b10111#5 ++ code ++ 0#4 ++ 4#3
     decode [w] = .ok (.trap code) 1 0 w ∧ decode [0xEC00, w] = .illegal 9 1 w 0) ∧
    (∀ b : BitVec 4, b ≠ 0 → let w := 0b10111#5 ++ code ++ b ++ 4#3; decode [w] = .illegal 9 0 w 0) ∧
    (code ≠ 0 → let w := 0#5 ++ code ++ 0#4 ++ 0#3
     decode [0xF400, w] = .ok (.brk code) 2 8 w ∧ decode [0xEC00, 0xF400, w] = .illegal 9 2 w 8) ∧
    (s.group.words.length < 8 → s.ctx.vloop = none → ∀ i ∈ [Instr.trap code, .brk code],
      ∃ t, exec i s = .next t ∧ (t.ctxOf s.cur).epc = s.ctx.pc.extractLsb' 0 32 ∧ (t.ctxOf s.cur).tval = code.setWidth 32 ∧
        (t.ctxOf s.cur).epc + 2 * (((t.ctxOf s.cur).cause >>> 8) &&& 7) =
          s.ctx.pc.extractLsb' 0 32 + BitVec.ofNat 32 (2 * s.group.words.length))

/-- With x[b] odd, SPAWN raises ALIGN with x[b] in TVAL. Otherwise with no idle context on the core (on a hart: never one, and ALIGN still comes first there, notes/assumptions 46) T becomes 0 and nothing else changes. Otherwise the lowest-numbered idle context starts as a child: live, with the x registers of the parent but x[a] = 0, PC in the parent's text segment at x[b], its TVEC, RM, tenant, origin and stop time, the generations of its own endpoint registers with PMOD the module number, and everything else as at a context start; the parent's x[a] becomes the child's number on the core and T becomes 1. Nothing else changes. Outside a LOOP body END and END.FAIL start the flush of the residual tile and cancel a suspended matrix command. While a store, copy job, matrix command, vector entry or tile word of the context is outstanding, the context waits at the group. When none is, and no refusal or job fault waits to be reported, the context retires in that step: it is live no more and nothing of a retirement is pending, its general and floating registers keep their bits, it waits for nothing, belongs to no domain, and each of its endpoint registers is NONE with its generation one higher. -/
def Obligations.SpawnStartsAndEndRetiresContexts : Prop :=
  (∀ (s : State) (a b : XReg), let pc := s.ctx.getX b
    (pc.getLsbD 0 = true → Traps s (exec (.spawn a b) s) 0x03 pc) ∧
    (pc.getLsbD 0 = false → (∀ st c k x, s.cur = .core st c k x → ∀ y < 4, (s.ctxOf (.core st c k y)).phase ≠ .idle) →
      Gives s (exec (.spawn a b) s) (·.setT false)) ∧
    (∀ st c k x y, s.cur = .core st c k x → y < 4 → (s.ctxOf (.core st c k y)).phase = .idle →
      (∀ z < y, (s.ctxOf (.core st c k z)).phase ≠ .idle) → pc.getLsbD 0 = false →
      let old := s.ctxOf (.core st c k y)
      let child : Ctx := { Ctx.reset with
        phase := .live, child := true, tenant := s.ctx.tenant, origin := s.ctx.origin, switchat := s.ctx.switchat
        x := (s.ctx.setX a 0).x, pc := s.ctx.pc.extractLsb' 32 16 ++ pc, tvec := s.ctx.tvec, rm := s.ctx.rm
        eps := old.eps.map (fun e => { Ep.reset with gen := e.gen, pmod := s.modnum }) }
      Gives (s.setCtxOf (.core st c k y) child) (exec (.spawn a b) s)
        (fun p => (p.setX a (BitVec.ofNat 32 y)).setT true))) ∧
  (∀ (s : State), s.ctx.lact = false →
    let u := (s.startFlush s.cur).cancelMatrix s.cur
    let busy := !u.flushed s.cur || u.unacked s.cur || u.jobBusy s.cur || u.matrixBusy s.cur || u.seqBusy s.cur
    (busy = true → ∀ i ∈ [Instr.endCtx, .endFail],
      exec i s = .next (u.updOf u.cur (fun c => { c with wait := .retire }))) ∧
    (busy = false → u.refusalDue s.cur = none → (u.ctxOf s.cur).jobFaults = [] → ∀ i ∈ [Instr.endCtx, .endFail],
      ∃ t, exec i s = .next t ∧ (t.ctxOf s.cur).phase ≠ .live ∧ (t.ctxOf s.cur).retiring = none ∧
        (t.ctxOf s.cur).x = s.ctx.x ∧ (t.ctxOf s.cur).f = s.ctx.f ∧ (t.ctxOf s.cur).wait = .none ∧
        (∀ k : Fin 4, ((t.ctxOf s.cur).dom[k]).v = false) ∧
        ∀ e : EReg, ((t.ctxOf s.cur).ep e).st = .none ∧ ((t.ctxOf s.cur).ep e).gen = (s.ctx.ep e).gen + 1))

/-- SRR of every assigned number completes where the privilege suffices (of FPCSR once no vector entry or matrix command of the context is pending): PC moves on, no byte of memory and no x register but x[a] changes. For each register that reads without a side effect x[a] takes its fields at the bit places that the manual gives, and nothing else changes; so too for JOURNAL by the part and entry selected, for SLIPS and ICMISS, which read 0 on a hart, for ASTORE, which counts the free slots and stub entries of the cluster's or hart's store, and for VSEQ and VITER, which show the context's oldest VLOOP in the sequencer, else the one it collects. At kernel privilege so too for the trace buffer's registers and those of a hart and of a service core (SLCDAT0 to SLCDAT2 among them; TRACEDAT3 and SLCDAT3 move their index on). TIME gives the copy that the core or hart holds, at most 4 ahead of the module's count, and sets the shadow that TIMEH gives; SWITCHAT and INSTANT likewise set theirs, which SWITCHATH and INSTANTH give (both read 0 in no domain). FPCSR and RCSR read when the flags of every earlier group are known: no group is in flight then. DFLAGS gives the context's own flags in no domain; in one it gives the domain's merged flags with them, which the domain keeps. The model's own, not the spec's: the copies of TIME lie 0 to 4 ahead of one count (notes/assumptions 1); JOURNAL reads by a part and entry that each context holds (14); CHBUF, JOURNAL and ACCSTAT are readable at program privilege (36); the flags of outstanding accumulates are not waited for (46); groups in flight are kept as a list (49); that VSEQ and VITER show the oldest loop (46). -/
def Obligations.SystemRegisterReads : Prop :=
  ∀ (s : State) (a : XReg), let c := s.ctx
    (∀ p ∈ ([(0x000, BitVec.ofNat 32 (bit c.prv + 2 * bit c.rm + 4 * bit c.ie + 8 * bit c.lact + 16 * bit c.t + 256 * bit c.pprv
            + 512 * bit c.pie + 1024 * bit c.plact + 2048 * bit c.intrap)),
          (0x004, c.tvec), (0x008, c.lcnt), (0x009, c.lstart), (0x00A, c.lend), (0x00B, c.lrem.setWidth 32), (0x011, c.timeh),
          (0x014, ctxName s.cur), (0x02C, c.decl.extractLsb' 0 32), (0x02D, c.decl.extractLsb' 32 32),
          (0x031, BitVec.ofNat 32 c.vl), (0x038, c.mfmt), (0x039, 0x40448220), (0x03C, c.msatc), (0x03D, c.mrowmask),
          (0x04A, c.swh), (0x180, s.modnum.setWidth 32), (0x201, if c.innermost.isSome then c.insth else 0),
          (0x202, c.live.extractLsb' 0 32), (0x203, c.live.extractLsb' 32 32), (0x302, c.mopaddr)] : List (BitVec 12 × Word)),
      Gives s (exec (.srr a p.1) s) (·.setX a p.2)) ∧
    (∀ p ∈ ([(0x028, BitVec.ofNat 32 (bit c.dom[0].v * 2 ^ 31 + c.dom[0].id.toNat)),
          (0x029, BitVec.ofNat 32 (bit c.dom[1].v * 2 ^ 31 + c.dom[1].id.toNat)),
          (0x02A, BitVec.ofNat 32 (bit c.dom[2].v * 2 ^ 31 + c.dom[2].id.toNat)),
          (0x02B, BitVec.ofNat 32 (bit c.dom[3].v * 2 ^ 31 + c.dom[3].id.toNat)),
          (0x030, BitVec.ofNat 32 (c.want * 2 ^ 24 + c.vmin * 2 ^ 16 + c.count)),
          (0x03A, BitVec.ofNat 32 ((s.unitOf s.cur).gated.toNat * 2 ^ 20 + (s.unitOf s.cur).mgateIdle.toNat)),
          (0x03B, BitVec.ofNat 32 (bit c.mchain.susp * 2 ^ 31 + c.mchain.reason.toNat * 2 ^ 28 + c.mchain.cmd.toNat * 2 ^ 24 +
            c.mchain.k.toNat * 2 ^ 16 + c.mchain.done.toNat)),
          (0x040, BitVec.ofNat 32 (c.sizek.toNat * 2 ^ 16 + c.basek.toNat)),
          (0x048, BitVec.ofNat 32 (c.post.toNat * 2 ^ 22 + c.trigon.toNat * 2 ^ 8 + c.kinds.toNat)),
          (0x0C0, if isHart s.cur then 0 else c.slips), (0x0C1, if isHart s.cur then 0 else c.icmiss),
          (0x100, let g := (s.unitOf s.cur).acccfg
            BitVec.ofNat 32 (g.agex.toNat * 2 ^ 28 + g.qwx.toNat * 2 ^ 20 + g.quota.toNat * 2 ^ 8 + g.mwin.toNat)),
          (0x101, BitVec.ofNat 32 (c.refused * 2 ^ 16 + bit c.drop * 2 ^ 15 + s.resv s.cur * 2 ^ 8 + c.out)),
          (0x300, BitVec.ofNat 32 s.core.mweight), (0x301, (s.unitOf s.cur).mrset.setWidth 32),
          (0x181, let n := if isHart s.cur then 8 else 64
            BitVec.ofNat 32 ((n - (s.unitOf s.cur).stubs.length) * 2 ^ 16 + (n - (s.unitOf s.cur).slots.length)))] : List (BitVec 12 × Word)),
      Gives s (exec (.srr a p.1) s) (·.setX a p.2)) ∧
    (let mine (e : SeqItem) : Prop := ∃ body n pos iter, e = .loop s.cur body n pos iter
     let reads (q i : Word) : Prop := Gives s (exec (.srr a 0x280) s) (·.setX a q) ∧ Gives s (exec (.srr a 0x281) s) (·.setX a i)
     (∀ first body n pos iter rest, s.core.seq = first ++ .loop s.cur body n pos iter :: rest → (∀ e ∈ first, ¬mine e) →
       reads (BitVec.ofNat 32 (2 ^ 31 + body.length * 2 ^ 16 + pos)) (BitVec.ofNat 32 iter)) ∧
     ((∀ e ∈ s.core.seq, ¬mine e) → (∀ l, c.vloop = some l → reads (BitVec.ofNat 32 (2 ^ 31 + l.n * 2 ^ 16)) (BitVec.ofNat 32 l.count)) ∧
       (c.vloop = none → reads 0 0))) ∧
    (∀ w : Word, (∀ e < 32, w.getLsbD e = (decide (e < 16) && (lookup? s.core.journal e).isSome)) → c.jpart = 3 →
      Gives s (exec (.srr a 0x041) s) (·.setX a w)) ∧
    (∀ e r, lookup? s.core.journal c.jentry.toNat = some e → e.verdict = .record r →
      (c.jpart = 0 → Gives s (exec (.srr a 0x041) s)
        (·.setX a (BitVec.ofNat 32 (2 ^ 31 + r.toNat * 2 ^ 28 + e.be.toNat * 2 ^ 24 + ctxIndex e.ctx)))) ∧
      (c.jpart = 1 → Gives s (exec (.srr a 0x041) s) (·.setX a e.ea)) ∧
      (c.jpart = 2 → Gives s (exec (.srr a 0x041) s) (·.setX a e.data))) ∧
    ((∀ e r, lookup? s.core.journal c.jentry.toNat = some e → e.verdict ≠ .record r) → c.jpart ≠ 3 →
      Gives s (exec (.srr a 0x041) s) (·.setX a 0)) ∧
    (∀ n r, sysReg? s.cur n.toNat = some r → (r.kernelRead = true → c.prv = true) →
      (n = 0x020 → s.seqBusy s.cur = false ∧ s.matrixBusy s.cur = false) →
      ∃ t, exec (.srr a n) s = .next t ∧ t.ctx.pc = (c.advance s.groupBytes).pc ∧ t.mem = s.mem ∧
        ∀ q, q ≠ a → t.ctx.getX q = c.getX q) ∧
    (c.innermost = none → Gives s (exec (.srr a 0x022) s) (·.setX a
      ((0 : BitVec 19) ++ c.rcsr.flags ++ (0 : BitVec 2) ++ BitVec.ofBool c.fpcsr.sat ++ c.fpcsr.flags))) ∧
    (∀ d k, c.innermost = some d → s.domain? d.toNat = some k →
      let own : BitVec 13 := c.rcsr.flags ++ (0 : BitVec 2) ++ BitVec.ofBool c.fpcsr.sat ++ c.fpcsr.flags
      ∃ t, exec (.srr a 0x022) s = .next t ∧ t.domain? d.toNat = some { k with flags := k.flags ||| own } ∧
        t.ctx = (c.advance s.groupBytes).ready.setX a ((k.flags ||| own).setWidth 32)) ∧
    (let n : BitVec 48 := match c.innermost with
        | none => 0
        | some d => ((s.domain? d.toNat).map (·.instant)).getD 0
      GivesCtx s (exec (.srr a 0x200) s)
        ((({ c with insth := (n.extractLsb' 32 16).setWidth 32 } : Ctx).advance s.groupBytes).ready.setX a (n.extractLsb' 0 32))) ∧
    (s.time.toNat + 4 < 2 ^ 64 → s.time.toNat ≤ (s.coreClock s.cur).toNat ∧ (s.coreClock s.cur).toNat ≤ s.time.toNat + 4) ∧
    (c.prv = true → ∀ p ∈ ([(0x001, c.epc), (0x002, c.cause), (0x003, c.tval), (0x005, c.kscr0), (0x006, c.kscr1),
          (0x00C, c.ptimeh), (0x00D, c.pinsth), (0x00E, c.pswh),
          (0x380, BitVec.ofNat 32 (bit s.core.frozen * 2 ^ 31 + bit s.core.trigd * 2 ^ 30 + s.core.left % 1024 * 2 ^ 16 + s.core.head % 1024)),
          (0x381, BitVec.ofNat 32 s.core.idx), (0x382, (lookupD ⟨0, 0, 0, 0⟩ s.core.trace s.core.idx).w0),
          (0x383, (lookupD ⟨0, 0, 0, 0⟩ s.core.trace s.core.idx).w1), (0x384, (lookupD ⟨0, 0, 0, 0⟩ s.core.trace s.core.idx).w2)]
          : List (BitVec 12 × Word)),
      Gives s (exec (.srr a p.1) s) (·.setX a p.2)) ∧
    (c.prv = true → Gives (s.updCore s.cur (fun k => { k with idx := (k.idx + 1) % 1024 })) (exec (.srr a 0x385) s)
      (·.setX a (lookupD ⟨0, 0, 0, 0⟩ s.core.trace s.core.idx).w3)) ∧
    (c.prv = true → isHart s.cur = true → let h := s.hartOf s.cur
      Gives s (exec (.srr a 0x400) s) (·.setX a (h.tenant.setWidth 32)) ∧
      Gives s (exec (.srr a 0x402) s) (·.setX a (BitVec.ofNat 32 (h.lost * 2 ^ 16 + h.headM))) ∧
      (∀ st q, s.cur = .serviceCore st q → let x := s.sliceOf st h.slcsel.toNat
        ∀ p ∈ ([(0x401, BitVec.ofNat 32 (h.mrbase.toNat * 2 ^ 11)), (0x403, BitVec.ofNat 32 h.tailM), (0x410, h.slcsel.setWidth 32),
            (0x411, BitVec.ofNat 32 (bit x.en * 2 ^ 31 + bit x.filt * 2 ^ 30 + x.ten.toNat * 2 ^ 24)), (0x412, x.lo.setWidth 32),
            (0x413, x.hi.setWidth 32), (0x414, BitVec.ofNat 32 (bit x.wrap * 2 ^ 31 + x.headR * 2 ^ 16 + x.idxR)),
            (0x415, (lookupD ⟨0, 0, 0, 0⟩ x.ring x.idxR).w0), (0x416, (lookupD ⟨0, 0, 0, 0⟩ x.ring x.idxR).w1),
            (0x417, (lookupD ⟨0, 0, 0, 0⟩ x.ring x.idxR).w2),
            (0x420, h.tlbva.setWidth 32),
            (0x421, BitVec.ofNat 32 (bit h.tlbAll * 2 ^ 30 + bit h.tlbBusy.isSome * 2 ^ 29 + h.tlbTen.toNat))] : List (BitVec 12 × Word)),
          Gives s (exec (.srr a p.1) s) (·.setX a p.2)) ∧
        (∀ st q, s.cur = .serviceCore st q → let sl := h.slcsel.toNat; let x := s.sliceOf st sl
          Gives (s.updSlice st sl (fun x => { x with idxR := (x.idxR + 1) % 1024 })) (exec (.srr a 0x418) s)
            (·.setX a (lookupD ⟨0, 0, 0, 0⟩ x.ring x.idxR).w3))) ∧
    GivesCtx s (exec (.srr a 0x010) s)
      ((({ c with timeh := (s.coreClock s.cur).extractLsb' 32 32 } : Ctx).advance s.groupBytes).ready.setX a
        ((s.coreClock s.cur).extractLsb' 0 32)) ∧
    GivesCtx s (exec (.srr a 0x049) s)
      ((({ c with swh := c.switchat.extractLsb' 32 32 } : Ctx).advance s.groupBytes).ready.setX a (c.switchat.extractLsb' 0 32)) ∧
    (s.seqBusy s.cur = false → s.matrixBusy s.cur = false →
      GivesCtx s (exec (.srr a 0x020) s) ((({ c with flight := [] } : Ctx).advance s.groupBytes).ready.setX a
        ((0 : BitVec 14) ++ c.fpcsr.rnd ++ (0 : BitVec 3) ++ c.fpcsr.en ++ (0 : BitVec 2) ++ BitVec.ofBool c.fpcsr.sat ++ c.fpcsr.flags))) ∧
    GivesCtx s (exec (.srr a 0x021) s) ((({ c with flight := [] } : Ctx).advance s.groupBytes).ready.setX a
      ((0 : BitVec 2) ++ c.rcsr.runs ++ (0 : BitVec 5) ++ c.rcsr.rmode ++ (0 : BitVec 3) ++ c.rcsr.en ++ (0 : BitVec 3) ++ c.rcsr.flags))

/-- SRW and the event REGISTER_WRITE write a register's writable fields from the word: CTXSTAT whole at kernel privilege, RM and T alone at program privilege; EPC, TVEC, LSTART and LEND with bit 0 zero; CAUSE without reserved bits, a GLEN of 6 or 7 and a CODE that no cause has keeping their fields; a reserved RMODE keeps the field; VL at most COUNT; FPCSR and RCSR, into which the groups still in flight OR their flags. TVEC is writable at program privilege while it is 0 (TVEC_WRITE is that write). Writes to TIME, TIMEH, CTXNAME, VLANES, MCAP, SWITCHAT, MODNUM, INSTANT, LIVE and MOPADDR change nothing. At kernel privilege DFLAGS clears the domain's flags that are 1 in the word (none outside a domain); MGATE sets IDLE; MCHAIN with CANCEL is MCHAIN_CANCEL; CHBUF is written while no endpoint holds a reservation; JOURNAL selects part and entry, and with CLR frees a refusal record of the context; SLIPS and ICMISS are written on cores; ACCCFG but for a reserved QWX; ACCSTAT sets REFUSED and clears DROP; MWEIGHT unless 0; MRSET (a removed core leaves its ring point); TRACEIDX; TRACESTAT's CLR unfreezes; and on harts TENANT (not while a loader program runs), MRBASE, MRTAIL where HEAD is at most 64 ahead of it, SLCSEL, SLCCTL, SLCLO, SLCHI, SLCIDX, TLBVA and TLBINV. Nothing else of the machine changes. The model's own: how many cycles have passed for the groups in flight is its free value (notes/assumptions 49); the part and entry of JOURNAL are kept per context (14). -/
def Obligations.SystemRegisterWrites : Prop :=
  ∀ (s : State) (a : XReg), let w := s.ctx.getX a
    let writes (n : BitVec 12) (f : Ctx → Ctx) : Prop :=
      Gives s (exec (.srw a n) s) f ∧ GivesCtx s (exec (.registerWrite n w) s) (f s.ctx)
    (s.ctx.prv = true → ∀ p ∈ ([(0x000, fun c => { c with
            prv := w.getLsbD 0, rm := w.getLsbD 1, ie := w.getLsbD 2, lact := w.getLsbD 3, t := w.getLsbD 4, pprv := w.getLsbD 8
            pie := w.getLsbD 9, plact := w.getLsbD 10, intrap := w.getLsbD 11 }),
          (0x001, fun c => { c with epc := w &&& 0xFFFFFFFE }), (0x003, fun c => { c with tval := w }), (0x004, fun c => { c with tvec := w &&& 0xFFFFFFFE }),
          (0x005, fun c => { c with kscr0 := w }), (0x006, fun c => { c with kscr1 := w }), (0x00C, fun c => { c with ptimeh := w }),
          (0x00D, fun c => { c with pinsth := w }), (0x00E, fun c => { c with pswh := w })] : List (BitVec 12 × (Ctx → Ctx))),
      writes p.1 p.2) ∧
    (s.ctx.prv = true →
      let glen : BitVec 3 := if (w.extractLsb' 8 3).toNat < 6 then w.extractLsb' 8 3 else s.ctx.cause.extractLsb' 8 3
      let code : BitVec 8 := if w.extractLsb' 0 8 ∈ ([0x00, 0x01, 0x02, 0x03, 0x04, 0x05, 0x06, 0x07, 0x08, 0x10, 0x11, 0x12, 0x13, 0x14,
          0x18, 0x19, 0x1A, 0x1B, 0x20, 0x21, 0x22, 0x28, 0x30, 0x31, 0x40, 0x41, 0x50] : List (BitVec 8))
        then w.extractLsb' 0 8 else s.ctx.cause.extractLsb' 0 8
      writes 0x002 (fun c => { c with cause := (0 : BitVec 18) ++ w.extractLsb' 12 2 ++ (0 : BitVec 1) ++ glen ++ code })) ∧
    (s.ctx.prv = false → writes 0x000 (fun c => { c with rm := w.getLsbD 1, t := w.getLsbD 4 })) ∧
    (s.ctx.prv = false → s.ctx.tvec = 0 → writes 0x004 (fun c => { c with tvec := w &&& 0xFFFFFFFE }) ∧
      GivesCtx s (exec (.tvecWrite w) s) { s.ctx with tvec := w &&& 0xFFFFFFFE }) ∧
    (s.ctx.prv = false → s.ctx.tvec ≠ 0 → Traps s (exec (.srw a 0x004) s) 0x02 (0x00040000 + s.group.base.setWidth 32)) ∧
    (∀ p ∈ ([(0x008, fun c => { c with lcnt := w }), (0x009, fun c => { c with lstart := w &&& 0xFFFFFFFE }),
          (0x00A, fun c => { c with lend := w &&& 0xFFFFFFFE }), (0x00B, fun c => { c with lrem := w.extractLsb' 0 5 }),
          (0x02C, fun c => { c with decl := c.decl.extractLsb' 32 32 ++ w }),
          (0x02D, fun c => { c with decl := w ++ c.decl.extractLsb' 0 32 }),
          (0x031, fun c => { c with vl := min (w.toNat % 128) c.count }), (0x038, fun c => { c with mfmt := w &&& 0x00030FFF }),
          (0x03C, fun c => { c with msatc := w }), (0x03D, fun c => { c with mrowmask := w }),
          (0x048, fun c => { c with post := w.extractLsb' 22 10, trigon := w.extractLsb' 8 5, kinds := w.extractLsb' 0 5 })]
          : List (BitVec 12 × (Ctx → Ctx))),
      writes p.1 p.2) ∧
    (∀ n ∈ ([0x010, 0x011, 0x014, 0x030, 0x039, 0x049, 0x04A, 0x180, 0x181, 0x200, 0x201, 0x202, 0x203, 0x280, 0x281, 0x302]
        : List (BitVec 12)), writes n id) ∧
    (let late := afterCycles (Config.choice s.draws) s.ctx.flight
     writes 0x020 (fun c => { c with flight := late, fpcsr := ⟨w.extractLsb' 16 2, w.extractLsb' 8 5,
       w.getLsbD 5 || late.any (fun x => x.sat), late.foldl (fun f x => f ||| x.fp) (w.extractLsb' 0 5)⟩ }) ∧
     writes 0x021 (fun c => { c with flight := late, rcsr := { c.rcsr with
       rmode := if (w.extractLsb' 16 3).toNat ≤ 4 then w.extractLsb' 16 3 else c.rcsr.rmode,
       en := w.extractLsb' 8 5, flags := late.foldl (fun f x => f ||| x.rat) (w.extractLsb' 0 5) } })) ∧
    (s.ctx.prv = true →
      let upd (n : BitVec 12) (s' : State) : Prop := Gives s' (exec (.srw a n) s) id ∧ exec (.registerWrite n w) s = .next s'
      (s.ctx.innermost = none → writes 0x022 id) ∧
      (∀ d, s.ctx.innermost = some d → upd 0x022 (s.updDomain d.toNat (fun x => { x with flags := x.flags &&& ~~~(w.extractLsb' 0 13) }))) ∧
      upd 0x03A (s.updUnit s.cur (fun u => { u with mgateIdle := w.extractLsb' 0 16 })) ∧
      (w.getLsbD 30 = false → writes 0x03B id) ∧
      (w.getLsbD 30 = true → exec (.srw a 0x03B) s = exec .mchainCancel (s.complete id) ∧
        exec (.registerWrite 0x03B w) s = exec .mchainCancel s) ∧
      ((∃ e ∈ s.ctx.eps.toList, e.res.isSome = true) → writes 0x040 id) ∧
      ((∀ e ∈ s.ctx.eps.toList, e.res = none) → writes 0x040 (fun c => { c with sizek := w.extractLsb' 16 8, basek := w.extractLsb' 0 7 })) ∧
      (w.getLsbD 8 = false → writes 0x041 (fun c => { c with jpart := w.extractLsb' 4 2, jentry := w.extractLsb' 0 4 })) ∧
      (w.getLsbD 8 = true → ∀ r ∈ [exec (.srw a 0x041) s, exec (.registerWrite 0x041 w) s], ∃ t, r = .next t ∧ t.mem = s.mem ∧
        t.ctx.jpart = w.extractLsb' 4 2 ∧ t.ctx.jentry = w.extractLsb' 0 4 ∧ t.ctx.x = s.ctx.x ∧
        let e := (w.extractLsb' 0 4).toNat
        (∀ n, n ≠ e → lookup? t.core.journal n = lookup? s.core.journal n) ∧
        ((∃ j k, lookup? s.core.journal e = some j ∧ j.verdict = .record k ∧ j.ctx = s.cur) → lookup? t.core.journal e = none) ∧
        (¬(∃ j k, lookup? s.core.journal e = some j ∧ j.verdict = .record k ∧ j.ctx = s.cur) →
          lookup? t.core.journal e = lookup? s.core.journal e)) ∧
      (isHart s.cur = false → writes 0x0C0 (fun c => { c with slips := w }) ∧ writes 0x0C1 (fun c => { c with icmiss := w })) ∧
      (isHart s.cur = true → writes 0x0C0 id ∧ writes 0x0C1 id) ∧
      upd 0x100 (s.updUnit s.cur (fun u => { u with acccfg := ⟨w.extractLsb' 28 4,
        if 4 ≤ (w.extractLsb' 20 4).toNat then w.extractLsb' 20 4 else u.acccfg.qwx, w.extractLsb' 8 8, w.extractLsb' 0 8⟩ })) ∧
      writes 0x101 (fun c => { c with refused := w.toNat / 65536, drop := c.drop && !w.getLsbD 15 }) ∧
      upd 0x300 (s.updCore s.cur (fun k => { k with mweight := if w.toNat % 16 = 0 then k.mweight else w.toNat % 16 })) ∧
      (∀ r ∈ [exec (.srw a 0x301) s, exec (.registerWrite 0x301 w) s], ∃ t, r = .next t ∧ t.mem = s.mem ∧ t.ctx.x = s.ctx.x ∧
        (t.unitOf s.cur).mrset = w.extractLsb' 0 8) ∧
      ((∀ b ∈ s.members s.cur, s.atRing b = false ∧ ∀ m, s.head? b = some m → m.cancelled = false) →
        upd 0x301 (s.updUnit s.cur (fun u => { u with mrset := w.extractLsb' 0 8 }))) ∧
      upd 0x380 (s.updCore s.cur (fun k => if w.getLsbD 31 then { k with frozen := false, trigd := false, left := 0 } else k)) ∧
      upd 0x381 (s.updCore s.cur (fun k => { k with idx := w.toNat % 1024 })) ∧
      (∀ k : BitVec 2, writes (0x382 + k.setWidth 12) id) ∧
      (isHart s.cur = true → let h := s.hartOf s.cur
        ((∀ q, s.ctx.origin ≠ .loader q) → upd 0x400 (s.updHart s.cur (fun h => { h with tenant := w.extractLsb' 0 6 }))) ∧
        (∀ q, s.ctx.origin = .loader q → upd 0x400 (s.updHart s.cur id)) ∧ writes 0x402 id ∧
        (∀ st q, s.cur = .serviceCore st q → let sl := h.slcsel.toNat
          let may (lo hi : BitVec 21) : Bool := s.mayTrace s.cur st sl lo.toNat hi.toNat
          upd 0x401 (s.updHart s.cur (fun h => { h with mrbase := w.extractLsb' 11 21 })) ∧
          upd 0x403 (s.updHart s.cur (fun h =>
            { h with tailM := if (h.headM + 128 - w.toNat % 128) % 128 ≤ 64 then w.toNat % 128 else h.tailM })) ∧
          upd 0x410 (s.updHart s.cur (fun h => { h with slcsel := w.extractLsb' 0 6 })) ∧
          upd 0x411 (s.updSlice st sl (fun x =>
            let on := w.getLsbD 31 && may x.lo x.hi
            let fresh := on && !x.en
            { x with en := on, filt := w.getLsbD 30, ten := w.extractLsb' 24 6, ring := if fresh then [] else x.ring
                     headR := if fresh then 0 else x.headR, wrap := if fresh then false else x.wrap })) ∧
          upd 0x412 (s.updSlice st sl (fun x => { x with lo := w.extractLsb' 0 21, en := x.en && may (w.extractLsb' 0 21) x.hi })) ∧
          upd 0x413 (s.updSlice st sl (fun x => { x with hi := w.extractLsb' 0 21, en := x.en && may x.lo (w.extractLsb' 0 21) })) ∧
          upd 0x414 (s.updSlice st sl (fun x => { x with idxR := w.toNat % 1024 })) ∧
          (∀ k : BitVec 2, writes (0x415 + k.setWidth 12) id) ∧
          upd 0x420 (s.updHart s.cur (fun h => { h with tlbva := w.extractLsb' 0 27 })) ∧
          upd 0x421 (s.updHart s.cur (fun h => { h with
            tlbAll := w.getLsbD 30, tlbTen := w.extractLsb' 0 6
            tlbBusy := if w.getLsbD 31 = true ∧ h.tlbBusy = none then
                some ((w.extractLsb' 0 6).toNat, if w.getLsbD 30 then none else some h.tlbva.toNat)
              else h.tlbBusy })))))

/-- On a core, SRR and SRW of a number that no chapter assigns raise ILLEGAL with reason 0x9, at either privilege; the numbers from 0x400 up are assigned on harts only. At program privilege, SRR and SRW of EPC, CAUSE, TVAL, KSCR0, KSCR1, PTIMEH, PINSTH, PSWH, TRACESTAT, TRACEIDX and TRACEDAT, and SRW also of DFLAGS, DOM0 to DOM3, MGATE, MCHAIN, CHBUF, JOURNAL, SLIPS, ICMISS, ACCCFG, ACCSTAT, MWEIGHT and MRSET, raise PRIV with TVAL = number << 16 + base word; so does MCHAIN_CANCEL, the write of MCHAIN. That the kernel registers without a read rule of their own deny reads, and CHBUF, JOURNAL and ACCSTAT do not, is the model's reading (notes/assumptions 36). -/
def Obligations.SystemRegisterFaults : Prop :=
  ∀ (s : State) (a : XReg) (n : BitVec 12), isHart s.cur = false →
    (n ∉ ([0x000, 0x001, 0x002, 0x003, 0x004, 0x005, 0x006, 0x008, 0x009, 0x00A, 0x00B, 0x00C, 0x00D, 0x00E, 0x010, 0x011, 0x014,
        0x020, 0x021, 0x022, 0x028, 0x029, 0x02A, 0x02B, 0x02C, 0x02D, 0x030, 0x031, 0x038, 0x039, 0x03A, 0x03B, 0x03C, 0x03D, 0x040,
        0x041, 0x048, 0x049, 0x04A, 0x0C0, 0x0C1, 0x100, 0x101, 0x180, 0x181, 0x200, 0x201, 0x202, 0x203, 0x280, 0x281, 0x300, 0x301,
        0x302, 0x380, 0x381, 0x382, 0x383, 0x384, 0x385] : List (BitVec 12)) →
      ∀ i ∈ [Instr.srr a n, .srw a n], Traps s (exec i s) 0x01 (illegalTval 9 (s.group.words.length - 1) s.group.base s.group.page)) ∧
    (s.ctx.prv = false →
      (n ∈ ([0x001, 0x002, 0x003, 0x005, 0x006, 0x00C, 0x00D, 0x00E, 0x380, 0x381, 0x382, 0x383, 0x384, 0x385] : List (BitVec 12)) →
        ∀ i ∈ [Instr.srr a n, .srw a n], Traps s (exec i s) 0x02 (n.setWidth 32 <<< 16 ||| s.group.base.setWidth 32)) ∧
      (n ∈ ([0x022, 0x028, 0x029, 0x02A, 0x02B, 0x03A, 0x03B, 0x040, 0x041, 0x0C0, 0x0C1, 0x100, 0x101, 0x300, 0x301]
          : List (BitVec 12)) →
        Traps s (exec (.srw a n) s) 0x02 (n.setWidth 32 <<< 16 ||| s.group.base.setWidth 32)) ∧
      Traps s (exec .mchainCancel s) 0x02 (0x003B0000 + s.group.base.setWidth 32))

/-- At kernel privilege JOURNAL_CLEAR selects part 0 of the entry and frees the entry when it holds a refusal record of the context, whose POSTED_REFUSED stays pending if it has not been taken; TRACE_UNFREEZE clears FROZEN and the trigger; TRACEDAT3_READ gives word 3 of the trace entry at the index and moves the index on, modulo 1,024. On a service core SLICE_TRACE_ENABLE sets the slice's filter and tenant and, where the core may trace the range, EN; SLCDAT3_READ gives word 3 of the ring entry and moves the read index on; TLB_INVALIDATE with GO makes the unit busy with the tenant and page that it names unless it is busy already. TLB_INVALIDATE_DONE, once the accumulates of the tenant's contexts are settled, removes the translations named from every memory core and clears BUSY; before that it changes nothing. The model's own: part and entry of JOURNAL are kept per context (notes/assumptions 14), and POSTED_REFUSED of a record that is cleared before it is taken stays pending (26, from 06 R184 and 18 R474). -/
def Obligations.TraceAndMonitorRegisterEvents : Prop :=
  ∀ (s : State) (e : BitVec 4) (a : XReg) (w : Word), s.ctx.prv = true →
    (∃ t, exec (.journalClear e) s = .next t ∧
      { t.ctx with clearedRefusals := s.ctx.clearedRefusals } = { s.ctx with jpart := 0, jentry := e } ∧
      ∀ j r, lookup? s.core.journal e.toNat = some j → j.verdict = .record r → j.ctx = s.cur →
        lookup? t.core.journal e.toNat = none ∧
        t.ctx.clearedRefusals = if j.delivered then s.ctx.clearedRefusals else s.ctx.clearedRefusals ++ [e.toNat]) ∧
    (exec .traceUnfreeze s = .next (s.updCore s.cur (fun k => { k with frozen := false, trigd := false, left := 0 }))) ∧
    (exec (.tracedat3Read a) s = .next ((s.updCore s.cur (fun k => { k with idx := (k.idx + 1) % 1024 })).updOf s.cur
      (·.setX a (lookupD ⟨0, 0, 0, 0⟩ s.core.trace s.core.idx).w3))) ∧
    (∀ st q, s.cur = .serviceCore st q → let h := s.hartOf s.cur; let x := s.sliceOf st h.slcsel.toNat
      (∃ t, exec (.sliceTraceEnable w) s = .next t ∧ (t.sliceOf st h.slcsel.toNat).filt = w.getLsbD 30 ∧
        (t.sliceOf st h.slcsel.toNat).ten = w.extractLsb' 24 6 ∧
        (t.sliceOf st h.slcsel.toNat).en = (w.getLsbD 31 && s.mayTrace s.cur st h.slcsel.toNat x.lo.toNat x.hi.toNat)) ∧
      (∃ t, exec (.slcdat3Read a) s = .next t ∧ t.ctx = s.ctx.setX a (lookupD ⟨0, 0, 0, 0⟩ x.ring x.idxR).w3 ∧
        (t.sliceOf st h.slcsel.toNat).idxR = (x.idxR + 1) % 1024) ∧
      (∃ t, exec (.tlbInvalidate w) s = .next t ∧ (t.hartOf s.cur).tlbAll = w.getLsbD 30 ∧ (t.hartOf s.cur).tlbTen = w.extractLsb' 0 6 ∧
        (w.getLsbD 31 = true → h.tlbBusy = none →
          (t.hartOf s.cur).tlbBusy = some ((w.extractLsb' 0 6).toNat, if w.getLsbD 30 then none else some h.tlbva.toNat)) ∧
        (w.getLsbD 31 = false ∨ h.tlbBusy ≠ none → (t.hartOf s.cur).tlbBusy = h.tlbBusy))) ∧
    (∀ ag ten page, (s.hartOf ag).tlbBusy = some (ten, page) →
      (s.settledAccs ten = false → exec (.tlbInvalidateDone ag) s = .next s) ∧
      (s.settledAccs ten = true → ∃ t, exec (.tlbInvalidateDone ag) s = .next t ∧ (t.hartOf ag).tlbBusy = none ∧ t.mem = s.mem ∧
        t.ctxs = s.ctxs ∧ ∀ m, m ≠ ag → ∀ x, x ∈ (t.hartOf m).tcache ↔
          x ∈ (s.hartOf m).tcache ∧ ¬(x.1 = ten ∧ (page = none ∨ page = some x.2.1))))

/-- For every core context: local addresses below 0x20000 name its own TCM, 0x100000 to 0x13FFFF the scratchpad of its cluster, 0x1000000 to 0x10FFFFF the TCM of core (offset / 0x20000) of the cluster, 0x3000000 to 0x301FFFF the matrix-side memory, 0x40000000 to 0x7FFFFFFF shared SRAM through the windows, 0x80000000 to 0x8000FFFF the event unit; every other address is in no range. A memory core has 64 KiB of own TCM, the aperture from 0xC0000000 and two translation ports. Different cores' TCM bytes have different numbers (the numbering is the model's, notes/assumptions 2). -/
def Obligations.LocalAddressMap : Prop :=
  ∀ (st c k x ea : Nat), let a := AgentId.core st c k x
    (ea < 0x20000 → place a ea = .ownTcm ea ∧ ownTcmAt a ea = tcmAt st c k ea) ∧
    (0x00100000 ≤ ea → ea < 0x00140000 → place a ea = .scratch (scratchAt st c (ea - 0x00100000))) ∧
    (0x01000000 ≤ ea → ea < 0x01100000 → place a ea = .peer st c ((ea - 0x01000000) / 0x20000) ((ea - 0x01000000) % 0x20000)) ∧
    (0x03000000 ≤ ea → ea < 0x03020000 → place a ea = .matrix (matrixAt st c (ea - 0x03000000))) ∧
    (0x40000000 ≤ ea → ea < 0x80000000 → place a ea = .shared) ∧
    (0x80000000 ≤ ea → ea < 0x80010000 → place a ea = .event (ea - 0x80000000)) ∧
    ((0x20000 ≤ ea ∧ ea < 0x00100000) ∨ (0x00140000 ≤ ea ∧ ea < 0x01000000) ∨ (0x01100000 ≤ ea ∧ ea < 0x03000000) ∨
      (0x03020000 ≤ ea ∧ ea < 0x40000000) ∨ 0x80010000 ≤ ea → place a ea = .unmapped) ∧
    (ea < 0x10000 → place (.memoryCore st c) ea = .ownTcm ea) ∧
    (0xC0000000 ≤ ea → place (.memoryCore st c) ea = .aperture (ea - 0xC0000000)) ∧
    place (.memoryCore st c) 0xA0000000 = .port false ∧ place (.memoryCore st c) 0xA0000008 = .port true ∧
    (∀ st' c' k' o o', k < 8 → k' < 8 → c < 1280 → c' < 1280 → o < 0x20000 → o' < 0x20000 → tcmAt st c k o = tcmAt st' c' k' o' →
      st = st' ∧ c = c' ∧ k = k' ∧ o = o')

/-- Wherever a naturally aligned load answers (own TCM, scratchpad, matrix-side memory, the TCM of a present core, or shared SRAM whose data have arrived), the load completes and its destination takes the bytes at x[b] + imm * size, least significant byte first, sign- or zero-extended as R163 says; LDD writes the low word to x[a] and the high word to x[a + 1], and with a = 0 discards the low word. No other register, no byte of memory and no other context changes. -/
def Obligations.LoadsWriteTheirDestinationAndNothingElse : Prop :=
  ∀ (s u : State) (a b : XReg) (f : FReg) (imm : Imm), let x := s.ctx.getX b
    (∀ b0 b1 b2 b3 : Byte, LoadAnswers s (x + imm * 4) 4 [b0, b1, b2, b3] u →
      let w : Word := b3 ++ b2 ++ b1 ++ b0
      Gives u (exec (.ldw a b imm) s) (·.setX a w) ∧ Gives u (exec (.lda a b imm) s) (·.setX a w) ∧
      Gives u (exec (.ldf f b imm) s) (·.setF f w) ∧ Gives u (exec (.fld f b imm) s) (·.setF f w)) ∧
    (∀ v : Byte, LoadAnswers s (x + imm) 1 [v] u →
      Gives u (exec (.ldb a b imm) s) (·.setX a (v.signExtend 32)) ∧ Gives u (exec (.ldbn a b imm) s) (·.setX a (v.zeroExtend 32))) ∧
    (∀ lo hi : Byte, LoadAnswers s (x + imm * 2) 2 [lo, hi] u →
      Gives u (exec (.ldh a b imm) s) (·.setX a ((hi ++ lo).signExtend 32)) ∧
      Gives u (exec (.ldhn a b imm) s) (·.setX a ((hi ++ lo).zeroExtend 32))) ∧
    (∀ b0 b1 b2 b3 c0 c1 c2 c3 : Byte, LoadAnswers s (x + imm * 8) 8 [b0, b1, b2, b3, c0, c1, c2, c3] u →
      Gives u (exec (.ldd a b imm) s) (fun k => (k.setX a (b3 ++ b2 ++ b1 ++ b0)).setX (a + 1) (c3 ++ c2 ++ c1 ++ c0))) ∧
    (∀ ea size bs, LoadAnswers s ea size bs u → u.mem = s.mem ∧ u.ctxs = s.ctxs ∧ u.units = s.units ∧ u.cur = s.cur)

/-- Where a naturally aligned store goes to cluster memory, the store completes: the bytes at the address computed from x[b] + imm * size (place gives their number) take the register's bytes, least significant first (STD: x[a] then x[a + 1]), every other byte of every memory is unchanged, and no register or flag changes. STL does so when the context has no unacknowledged store and no vector entry, and otherwise waits. -/
def Obligations.StoresWriteTheirBytesAndNothingElse : Prop :=
  ∀ (s : State) (a b : XReg) (f : FReg) (imm : Imm) (flat : Nat) (own : Bool), Memory.wf s.mem = true → let x := s.ctx.getX b
    (StoreGoes s (x + imm * 4) 4 flat own →
      StoresBytes s (exec (.stw a b imm) s) flat 4 ((s.ctx.getX a).setWidth 64) id ∧
      StoresBytes s (exec (.stf f b imm) s) flat 4 ((s.ctx.getF f).setWidth 64) id ∧
      StoresBytes s (exec (.fst f b imm) s) flat 4 ((s.ctx.getF f).setWidth 64) id ∧
      (s.released s.cur = true → StoresBytes s (exec (.stl a b imm) s) flat 4 ((s.ctx.getX a).setWidth 64) id) ∧
      (s.released s.cur = false → GivesCtx s (exec (.stl a b imm) s) { s.ctx with wait := .interlock })) ∧
    (StoreGoes s (x + imm) 1 flat own → StoresBytes s (exec (.stb a b imm) s) flat 1 ((s.ctx.getX a).setWidth 64) id) ∧
    (StoreGoes s (x + imm * 2) 2 flat own → StoresBytes s (exec (.sth a b imm) s) flat 2 ((s.ctx.getX a).setWidth 64) id) ∧
    (StoreGoes s (x + imm * 8) 8 flat own →
      StoresBytes s (exec (.std a b imm) s) flat 8 (s.ctx.getX (a + 1) ++ s.ctx.getX a) id)

/-- For each load and store with its address ea and size, the group is taken as a precise trap with TVAL = ea: ALIGN where ea is not a multiple of the size, whatever the address; LOAD_WINDOW or STORE_WINDOW where ea is in no range or no window gives the access; PEER_ABSENT where it names the TCM of a core that is not present; ECC_UNCORRECTABLE where a load meets an uncorrectable error in cluster memory; STORE_WINDOW where a store at program privilege meets a hardware-managed range of the own TCM. -/
def Obligations.LoadsAndStoresTrapWhereTheAddressIsBad : Prop :=
  ∀ (s : State) (a b : XReg) (f : FReg) (imm : Imm), let x := s.ctx.getX b
    let loads : List (Instr × Word × Nat) := [(.ldw a b imm, x + imm * 4, 4), (.ldb a b imm, x + imm, 1), (.ldbn a b imm, x + imm, 1),
      (.ldh a b imm, x + imm * 2, 2), (.ldhn a b imm, x + imm * 2, 2), (.ldf f b imm, x + imm * 4, 4), (.ldd a b imm, x + imm * 8, 8),
      (.fld f b imm, x + imm * 4, 4), (.lda a b imm, x + imm * 4, 4)]
    let stores : List (Instr × Word × Nat) := [(.stw a b imm, x + imm * 4, 4), (.stb a b imm, x + imm, 1),
      (.sth a b imm, x + imm * 2, 2), (.stf f b imm, x + imm * 4, 4), (.std a b imm, x + imm * 8, 8), (.fst f b imm, x + imm * 4, 4),
      (.stl a b imm, x + imm * 4, 4)]
    (∀ p ∈ loads ++ stores, p.2.1.toNat % p.2.2 ≠ 0 → Traps s (exec p.1 s) 0x03 p.2.1) ∧
    (∀ p ∈ loads ++ stores, p.2.1.toNat % p.2.2 = 0 → ∀ st c k o, place s.cur p.2.1.toNat = .peer st c k o →
      s.present s.cur st c k = false → (p ∈ stores → s.ctx.prv = true) → Traps s (exec p.1 s) 0x06 p.2.1) ∧
    (∀ p ∈ loads, p.2.1.toNat % p.2.2 = 0 →
      (place s.cur p.2.1.toNat = .unmapped ∨
        (place s.cur p.2.1.toNat = .shared ∧ homeOf s.ctx.windows p.2.1.toNat .load = none) → Traps s (exec p.1 s) 0x04 p.2.1) ∧
      (∀ flat own, Near s p.2.1 flat own → s.hasBad flat p.2.2 = true → Traps s (exec p.1 s) 0x08 p.2.1)) ∧
    (∀ p ∈ stores, p.2.1.toNat % p.2.2 = 0 →
      (place s.cur p.2.1.toNat = .unmapped ∨
        (place s.cur p.2.1.toNat = .shared ∧ homeOf s.ctx.windows p.2.1.toNat .store = none) → Traps s (exec p.1 s) 0x05 p.2.1) ∧
      (∀ o, place s.cur p.2.1.toNat = .ownTcm o → s.ctx.prv = false → s.hwManaged s.cur o = true → Traps s (exec p.1 s) 0x05 p.2.1))

/-- A naturally aligned load from shared SRAM that a window with R gives (LDW, LDB, LDBN, LDH, LDHN, LDF, LDD, FLD and LDA), with nothing asked for yet, marks the context as waiting for the bytes at its home and does nothing else. LOAD_RETURN for it brings LOAD_WINDOW when the home range belongs to another tenant, ECC_UNCORRECTABLE when the words hold an uncorrectable error, and otherwise, for each byte, that of the latest of the context's own unacknowledged stores to it that holds no refusal record, and with none the byte as it stands in memory; it changes no byte of memory. -/
def Obligations.SharedSramLoadsAskAndReturn : Prop :=
  ∀ (s : State) (a b : XReg) (f : FReg) (imm : Imm) (st sl o : Nat), let x := s.ctx.getX b
    let loads : List (Instr × Word × Nat) := [(.ldw a b imm, x + imm * 4, 4), (.ldb a b imm, x + imm, 1), (.ldbn a b imm, x + imm, 1),
      (.ldh a b imm, x + imm * 2, 2), (.ldhn a b imm, x + imm * 2, 2), (.ldf f b imm, x + imm * 4, 4), (.ldd a b imm, x + imm * 8, 8),
      (.fld f b imm, x + imm * 4, 4), (.lda a b imm, x + imm * 4, 4)]
    (∀ p ∈ loads, let ea := p.2.1
      ea.toNat % p.2.2 = 0 → place s.cur ea.toNat = .shared → homeOf s.ctx.windows ea.toNat .load = some (st, sl, o) → s.ctx.pend = .none →
        GivesCtx s (exec p.1 s) { s.ctx with pend := .asked (sliceAt st sl o) p.2.2 ea, wait := .load }) ∧
    (∀ ag size ea, st < 16 → sl < 64 → o < 0x180000 → (s.ctxOf ag).pend = .asked (sliceAt st sl o) size ea →
      (s.sliceTenant st sl o ≠ some (s.tenantOf ag) →
        ∃ t, exec (.loadReturn ag) s = .next t ∧ t.ctxOf ag = { s.ctxOf ag with pend := .bad 0x04 ea } ∧ t.mem = s.mem) ∧
      (s.sliceTenant st sl o = some (s.tenantOf ag) → s.hasBad (sliceAt st sl o) size = true →
        ∃ t, exec (.loadReturn ag) s = .next t ∧ t.ctxOf ag = { s.ctxOf ag with pend := .bad 0x08 ea } ∧ t.mem = s.mem) ∧
      (s.sliceTenant st sl o = some (s.tenantOf ag) → s.hasBad (sliceAt st sl o) size = false →
        ∃ t bs, exec (.loadReturn ag) s = .next t ∧ t.ctxOf ag = { s.ctxOf ag with pend := .got bs } ∧ t.mem = s.mem ∧
          bs.length = size ∧ ∀ i (h : i < bs.length), let m := sliceAt st sl o + i
            ((∀ e, ¬Supplies s ag m e) → bs[i] = s.byteAt m) ∧
            (∀ e, Supplies s ag m e → (∀ g, Supplies s ag m g → g = e ∨ g.seqNo < e.seqNo) →
              bs[i] = e.data.extractLsb' (8 * (m - e.home)) 8)))

/-- STW, STB, STH, STF, FST and STL to shared SRAM that a window with W gives take a free journal entry with the bytes they store, their byte enables and their place in the order of stores, and complete, changing no byte of memory; with no free entry they wait. STL first waits for the context's unacknowledged stores and vector entries. STD takes two entries of the same place in that order, one per word, and waits with fewer than two free. STORE_PERFORMED of an entry posted as the oldest of its context toward its slice makes the store when the range is the tenant's (the bytes enabled, and no other byte), and otherwise marks it refused, as it does where a store of part of a word meets an uncorrectable error. The entry taken is the lowest that is free, the model's choice (notes/assumptions 46). STORE_ACK frees a performed entry; STORE_REFUSAL turns a refused one into a refusal record, which the context's loads no longer see. -/
def Obligations.StoresToSharedSramArePosted : Prop :=
  ∀ (s : State) (a b : XReg) (f : FReg) (imm : Imm) (st sl o : Nat), Memory.wf s.mem = true → let x := s.ctx.getX b
    let stores : List (Instr × Word × Nat × Word) := [(.stw a b imm, x + imm * 4, 4, s.ctx.getX a), (.stb a b imm, x + imm, 1, s.ctx.getX a),
      (.sth a b imm, x + imm * 2, 2, s.ctx.getX a), (.stf f b imm, x + imm * 4, 4, s.ctx.getF f), (.fst f b imm, x + imm * 4, 4, s.ctx.getF f),
      (.stl a b imm, x + imm * 4, 4, s.ctx.getX a)]
    let waits (i : Instr) : Prop := ∃ t, exec i s = .next t ∧ t.mem = s.mem ∧ t.ctx = { s.ctx with wait := .interlock } ∧ t.core.journal = s.core.journal
    (∀ p ∈ stores, let ea := p.2.1
      let size := p.2.2.1
      let stl : Bool := decide (p.1 = .stl a b imm)
      let lane := ea.toNat % 4
      ea.toNat % size = 0 → place s.cur ea.toNat = .shared → homeOf s.ctx.windows ea.toNat .store = some (st, sl, o) →
      (stl = true → s.released s.cur = false → waits p.1) ∧
      ((∀ n < 16, lookup? s.core.journal n ≠ none) → waits p.1) ∧
      (∀ n < 16, (stl = true → s.released s.cur = true) → lookup? s.core.journal n = none → (∀ m < n, lookup? s.core.journal m ≠ none) →
        ∃ t e, exec p.1 s = .next t ∧ t.mem = s.mem ∧ t.ctx = (s.ctx.advance s.groupBytes).ready ∧ lookup? t.core.journal n = some e ∧
          (∀ m, m ≠ n → lookup? t.core.journal m = lookup? s.core.journal m) ∧ e.ctx = s.cur ∧ e.ea.toNat + lane = ea.toNat ∧
          e.home + lane = sliceAt st sl o ∧ e.stl = stl ∧ e.verdict = .posted ∧ e.seqNo = s.core.jseq + 1 ∧ e.past = 0 ∧
          (∀ i < 4, e.be.getLsbD i = decide (lane ≤ i ∧ i < lane + size)) ∧
          ∀ i < size, e.data.extractLsb' (8 * (lane + i)) 8 = p.2.2.2.extractLsb' (8 * i) 8)) ∧
    (let ea := x + imm * 8
     let word (i : Nat) (v : Word) : JEntry :=
       ⟨s.cur, ea + BitVec.ofNat 32 i, sliceAt st sl o + i, 15, v, false, .posted, false, s.core.jseq + 1, 0⟩
     ea.toNat % 8 = 0 → place s.cur ea.toNat = .shared → homeOf s.ctx.windows ea.toNat .store = some (st, sl, o) →
      ((∀ n < 16, ∀ m < 16, lookup? s.core.journal n = none → lookup? s.core.journal m = none → n = m) → waits (.std a b imm)) ∧
      (∀ n m, n < m → m < 16 → lookup? s.core.journal n = none → lookup? s.core.journal m = none →
        (∀ k < m, k ≠ n → lookup? s.core.journal k ≠ none) →
        ∃ t, exec (.std a b imm) s = .next t ∧ t.mem = s.mem ∧ t.ctx = (s.ctx.advance s.groupBytes).ready ∧
          lookup? t.core.journal n = some (word 0 (s.ctx.getX a)) ∧ lookup? t.core.journal m = some (word 4 (s.ctx.getX (a + 1))) ∧
          ∀ k, k ≠ n → k ≠ m → lookup? t.core.journal k = lookup? s.core.journal k)) ∧
    (∀ (ag : AgentId) (n : BitVec 4) (e : JEntry), lookup? (s.coreOf ag).journal n.toNat = some e →
      (e.verdict = .posted → e.home = sliceAt st sl o → st < 16 → sl < 64 → o < 0x180000 → oldest (s.coreOf ag).journal e = true →
        (s.sliceTenant st sl o ≠ some (s.tenantOf e.ctx) →
          exec (.storePerformed ag n) s = .next (s.updCore ag (fun k => { k with
            journal := assign k.journal n.toNat { e with verdict := .rejected 1 } }))) ∧
        (s.sliceTenant st sl o = some (s.tenantOf e.ctx) → e.be ≠ 15 → s.hasBad e.home 4 = true →
          exec (.storePerformed ag n) s = .next (s.updCore ag (fun k => { k with
            journal := assign k.journal n.toNat { e with verdict := .rejected 2 } }))) ∧
        (s.sliceTenant st sl o = some (s.tenantOf e.ctx) → e.be = 15 ∨ s.hasBad e.home 4 = false →
          ∃ t, exec (.storePerformed ag n) s = .next t ∧ lookup? (t.coreOf ag).journal n.toNat = some { e with verdict := .performed } ∧
            ∀ m, t.byteAt m = if e.home ≤ m ∧ m < e.home + 4 ∧ e.be.getLsbD (m - e.home) = true then
              e.data.extractLsb' (8 * (m - e.home)) 8 else s.byteAt m)) ∧
      (e.verdict = .performed → ∃ t, exec (.storeAck ag n) s = .next t ∧ lookup? (t.coreOf ag).journal n.toNat = none ∧ t.mem = s.mem) ∧
      (∀ r, e.verdict = .rejected r →
        exec (.storeRefusal ag n) s = .next (s.updCore ag (fun k => { k with
          journal := assign k.journal n.toNat { e with verdict := .record r } }))))

/-- NOP and YIELD complete and change nothing. IPREF completes and never waits. On a hart it changes nothing else. On a core, where the instruction cache holds the line of the tenant at (PC + 2 * imm) / 64, it changes nothing else; where it does not, a fill of exactly that line for the tenant joins the fills of the cluster, unless one is under way or 8 fills are outstanding. Nothing else of the cluster, no other cluster or context, no register and no byte of memory changes. FENCE completes, changing nothing, when its scope is 0, or when the context has no entry in the vector sequencer and no unacknowledged store that it orders; with a scope above 0 it waits for such an entry. With unacknowledged stores it waits at scope 5; at scopes 1 to 4 it waits or, where no home would refuse one of them, completes with them acknowledged at its scope, as a free value says (notes/assumptions 47). JDRAIN completes when no copy job of the context is unfinished and waits otherwise. -/
def Obligations.FencesAndHints : Prop :=
  ∀ (s : State) (imm : Imm) (scope kinds : BitVec 4),
    Gives s (exec .nop s) id ∧ Gives s (exec .yield s) id ∧
    (isHart s.cur = true → Gives s (exec (.ipref imm) s) id) ∧
    (isHart s.cur = false →
      let va : BitVec 48 := s.ctx.pc.extractLsb' 32 16 ++ (s.ctx.pc.extractLsb' 0 32 + imm * 2)
      let line := va.toNat / 64
      let u := s.unitOf s.cur
      let joined := u.fills.any (fun f => f.tenant = s.ctx.tenant && f.addr = line)
      ((u.line? s.ctx.tenant line).isSome = true → Gives s (exec (.ipref imm) s) id) ∧
      ((u.line? s.ctx.tenant line).isSome = false →
        Gives (s.setUnitOf s.cur { u with fills :=
          if joined || 8 ≤ u.fills.length then u.fills else u.fills ++ [⟨s.ctx.tenant, line, false⟩] }) (exec (.ipref imm) s) id)) ∧
    (scope = 0 ∨ (s.unacked s.cur = false ∧ s.seqBusy s.cur = false) → Gives s (exec (.fence scope kinds) s) id) ∧
    (kinds.getLsbD 2 = false → kinds.getLsbD 3 = false → s.seqBusy s.cur = false → Gives s (exec (.fence scope kinds) s) id) ∧
    (scope ≠ 0 → (kinds.getLsbD 2 = true ∨ kinds.getLsbD 3 = true) → s.unacked s.cur = true → s.seqBusy s.cur = false →
      let may := scope.toNat < 5 ∧ Config.choice s.draws % 2 = 1 ∧
        ∀ p ∈ s.core.journal, p.2.ctx = s.cur → p.2.verdict = .performed ∨ (∃ r, p.2.verdict = .record r) ∨
          (p.2.verdict = .posted ∧ s.judge p.2 = none)
      (¬may → GivesCtx s (exec (.fence scope kinds) s) { s.ctx with wait := .interlock }) ∧
      (may → Gives (s.acknowledgeAt s.cur scope.toNat) (exec (.fence scope kinds) s) id)) ∧
    (scope ≠ 0 → s.seqBusy s.cur = true → GivesCtx s (exec (.fence scope kinds) s) { s.ctx with wait := .interlock }) ∧
    ((∀ j ∈ s.jobsOf s.cur, j.ctx ≠ s.cur) → Gives s (exec .jdrain s) id) ∧
    ((∃ j ∈ s.jobsOf s.cur, j.ctx = s.cur) → GivesCtx s (exec .jdrain s) { s.ctx with wait := .interlock })

/-- In floating mode (RM 0): with y and z the operands (f[a], f[b] without PFR, f[b], f[c] with it), FADD, FSUB, FMUL, FDIV, FMIN, FMAX write to f[a] the exact sum, difference, product, quotient, lesser or greater, rounded once in RND; FMA, FMS, FNMA, FNMS the rounded f[b] * f[c] + f[a], minus f[a], and their negatives; FSQRT the rounded root of f[b]. The flags raised join FPCSR.FLAGS; if one of them is enabled, FP_TRAP is raised with them in TVAL and nothing is written. Nothing else changes. The rounding function fp32.round is stated on its own in FloatingSpecialValues. -/
def Obligations.FloatArithmeticResults : Prop :=
  ∀ (s : State) (a b : FReg) (c : Option FReg) (c' : FReg) (y z : Word), s.ctx.rm = false → FOps s.ctx a b c y z →
    let rnd := s.ctx.fpcsr.rnd
    let gives (i : Instr) (r : Word × BitVec 5) : Prop := FpGives s i r.2 false (·.setF a r.1)
    let add3 (neg : Bool) (addend : Machine.Num) : Word × BitVec 5 :=
      round32 rnd (Machine.Num.fma rnd neg (num32 (s.ctx.getF b)) (num32 (s.ctx.getF c')) addend)
    let addend := num32 (s.ctx.getF a)
    gives (.fadd a b c) (round32 rnd (Machine.Num.add rnd (num32 y) (num32 z))) ∧
    gives (.fsub a b c) (round32 rnd (Machine.Num.add rnd (num32 y) (num32 z).neg)) ∧
    gives (.fmul a b c) (round32 rnd (Machine.Num.mul (num32 y) (num32 z))) ∧
    gives (.fdiv a b c) (round32 rnd (Machine.Num.div (num32 y) (num32 z))) ∧
    gives (.fmin a b c) (minMaxF false y z) ∧ gives (.fmax a b c) (minMaxF true y z) ∧
    gives (.fma a b c') (add3 false addend) ∧ gives (.fms a b c') (add3 false addend.neg) ∧
    gives (.fnma a b c') (add3 true addend) ∧ gives (.fnms a b c') (add3 true addend.neg) ∧
    gives (.fsqrt a b) (round32 rnd (Machine.Num.sqrt (num32 (s.ctx.getF b))))

/-- For every rounding mode: FADD, FSUB, FMUL, FDIV with a NaN operand give 0x7FC00000, with NV when one is signalling; infinity minus infinity, zero times infinity, 0/0, infinity/infinity (at all signs) and the root of a negative number give it with NV; a finite number other than 0 divided by a zero gives the infinity of the combined sign with DZ; a sum that is exactly zero of operands of opposite sign is +0, but -0 in RDN; FMIN and FMAX return the other operand where one is a NaN, and order -0 below +0. Rounding n/d of a sign to FP32, BF16, E5M2 or E4M3: a value of the format is given exactly, without flags; one between two neighbouring values gives the nearer, of two equally near the one with an even code (RNE), or the one toward zero, +infinity or -infinity, with NX, and with UN when its rounding with an unbounded exponent lies below the smallest normal; one beyond the largest finite value gives it with NX where rounding does not pass it, and otherwise overflows with OV and NX: to the infinity (E4M3: to the NaN) in RNE and in the mode away from zero, to the largest finite value in the others. Rounding to an integer follows the same modes. Rounding a magnitude n/d, or its square root, to a slash word: in at most 28 runs a representable value is given in lowest terms without flags; otherwise RMODE chooses between the two adjacent representable neighbours whose mediant is not representable, by their midpoint or mediant (ties to the smaller denominator, then to the even numerator), toward zero, down or up; NX is raised, OF above 67,108,863 and UF below 1/67,108,863. -/
def Obligations.FloatingSpecialValues : Prop :=
  (∀ (rnd : BitVec 2) (y z : Word),
    (((num32 y).isNan = true ∨ (num32 z).isNan = true) → ∀ op ∈ [addF, subF, mulF, divF],
      (op rnd y z).1 = 0x7FC00000 ∧ (op rnd y z).2 = if (num32 y).sig || (num32 z).sig then 16 else 0) ∧
    (∀ a b : Bool,
      let inf (n : Bool) : Word := if n then 0xFF800000 else 0x7F800000
      let zero (n : Bool) : Word := if n then 0x80000000 else 0
      addF rnd (inf a) (inf !a) = (0x7FC00000, 16) ∧ subF rnd (inf a) (inf a) = (0x7FC00000, 16) ∧
      mulF rnd (zero a) (inf b) = (0x7FC00000, 16) ∧ mulF rnd (inf a) (zero b) = (0x7FC00000, 16) ∧
      divF rnd (zero a) (zero b) = (0x7FC00000, 16) ∧ divF rnd (inf a) (inf b) = (0x7FC00000, 16)) ∧
    (∀ n d, num32 y = .fin true n d → n ≠ 0 → sqrtF rnd y = (0x7FC00000, 16)) ∧ sqrtF rnd 0xFF800000 = (0x7FC00000, 16) ∧
    sqrtF rnd 0x80000000 = (0x80000000, 0) ∧
    (∀ b n d, num32 y = .fin b n d → n ≠ 0 → divF rnd y 0 = (if b then 0xFF800000 else 0x7F800000, 8) ∧
      divF rnd y 0x80000000 = (if b then 0x7F800000 else 0xFF800000, 8)) ∧
    (∀ n d, num32 y = .fin false n d → n ≠ 0 → addF rnd y (y ^^^ 0x80000000) = (if rnd = 3 then 0x80000000 else 0, 0) ∧
      subF rnd y y = (if rnd = 3 then 0x80000000 else 0, 0)) ∧
    ((num32 y).isNan = true → (num32 z).isNan = false → ∀ m, (minMaxF m y z).1 = z ∧ (minMaxF m z y).1 = z) ∧
    minMaxF false 0 0x80000000 = (0x80000000, 0) ∧ minMaxF true 0x80000000 0 = (0, 0)) ∧
  (∀ (rnd : BitVec 2) (neg : Bool) (n d : Nat), 0 < d →
    -- each format: sign bit, code and significand * 2^q of the largest finite value, precision, the exponent of its smallest normal, negated, infinities
    ∀ t ∈ ([(fp32, 0x80000000, 0x7F7FFFFF, 2 ^ 24 - 1, 104, 24, 126, 0x7F800000, 0xFF800000),
        (bf16, 0x8000, 0x7F7F, 255, 120, 8, 126, 0x7F80, 0xFF80), (e5m2, 0x80, 0x7B, 7, 13, 3, 14, 0x7C, 0xFC),
        (e4m3, 0x80, 0x7E, 14, 5, 4, 6, 0x7F, 0x7F)] : List (FpFormat × Nat × Nat × Nat × Nat × Nat × Nat × Nat × Nat)),
      let (f, bit, top, sig, q, p, e, infP, infN) := t
      let sign := if neg then bit else 0
      let away : Bool := (rnd = 2 && !neg) || (rnd = 3 && neg)
      let r := f.round rnd neg n d
      (n = 0 → r = (sign, 0)) ∧
      (∀ m a b, m ≤ top → f.decode m = .fin false a b → n * b = a * d → r = (sign + m, 0)) ∧
      (∀ m a b a' b', m < top → f.decode m = .fin false a b → f.decode (m + 1) = .fin false a' b' → a * d < n * b → n * b' < a' * d →
        let x := 2 * n * (b * b'); let mid := (a * b' + a' * b) * d
        let up : Bool := away || (rnd = 0 && (mid < x || (mid = x && m % 2 = 1)))
        let reaches : Bool := (rnd = 0 && (2 ^ (p + 1) - 1) * d ≤ n * 2 ^ (e + p + 1)) || (away && (2 ^ p - 1) * d < n * 2 ^ (e + p))
        r = (sign + m + (if up then 1 else 0), if m + 1 < 2 ^ (p - 1) || (m + 1 = 2 ^ (p - 1) && !reaches) then 3 else 1)) ∧
      (sig * 2 ^ q * d < n →
        let past : Bool := (sig + 1) * 2 ^ q * d ≤ n ||
          away || (rnd = 0 && ((2 * sig + 1) * 2 ^ q * d < 2 * n || ((2 * sig + 1) * 2 ^ q * d = 2 * n && sig % 2 = 1)))
        r = if past then (if rnd = 0 || away then (if neg then infN else infP) else sign + top, 5) else (sign + top, 1))) ∧
  (∀ (rnd : BitVec 2) (neg : Bool) (n d : Nat), 0 < d → let r := roundNat rnd neg n d
    (r.2 = false ↔ d ∣ n) ∧ (d ∣ n → r.1 * d = n) ∧
    (rnd = 0 → 2 * n ≤ (2 * r.1 + 1) * d ∧ 2 * (r.1 * d) ≤ 2 * n + d ∧ (2 * n = (2 * r.1 + 1) * d ∨ 2 * (r.1 * d) = 2 * n + d → r.1 % 2 = 0)) ∧
    (rnd ≠ 0 → if (rnd = 2 ∧ neg = false) ∨ (rnd = 3 ∧ neg = true) then n ≤ r.1 * d ∧ r.1 * d < n + d else r.1 * d ≤ n ∧ n < (r.1 + 1) * d)) ∧
  (∀ (m : BitVec 3) (neg root : Bool) (n d : Nat), 0 < n → 0 < d → m.toNat ≤ 4 →
    let rep (p q : Nat) : Prop := p = 0 ∨ ∃ i ≤ 27, p < 2 ^ i ∧ q < 2 ^ (27 - i)
    let r := Target.round ⟨n, d, root⟩ m neg
    -- the magnitude x lies below, or above, the fraction a / b
    let below (a b : Nat) : Bool := if root then n * (b * b) < a * a * d else n * b < a * d
    let above (a b : Nat) : Bool := if root then a * a * d < n * (b * b) else a * d < n * b
    (root = false → roundRat m neg n d = r) ∧ r.runs ≤ 28 ∧
    ((∃ p q, 0 < q ∧ Nat.gcd p q = 1 ∧ rep p q ∧ below p q = false ∧ above p q = false ∧ r.word = slashWord neg p q ∧ r.flags = 0) ∨
     (∃ lp lq hp hq, rep lp lq ∧ rep hp hq ∧ hp * lq = lp * hq + 1 ∧ ¬ rep (lp + hp) (lq + hq) ∧ above lp lq = true ∧ below hp hq = true ∧
       (let tie : Bool := if lq = hq then hp % 2 = 0 else hq < lq
        let past (a b : Nat) : Bool := above a b || (!below a b && tie)
        let high : Bool := if m = 0 then past (lp * hq + hp * lq) (2 * lq * hq) else if m = 1 then past (lp + hp) (lq + hq)
          else if m = 2 then false else if m = 3 then neg else !neg
        r.word = (if high then slashWord neg hp hq else slashWord neg lp lq)) ∧
       r.flags = 1 ||| (if above 67108863 1 then 4 else 0) ||| (if below 1 67108863 then 2 else 0)))) ∧
  (∀ neg, slashWord neg 0 1 = 0 ∧ slashWord neg 1 0 = (if neg then 0xE8000000 else 0x68000000)) ∧
  (∀ neg b p q, 0 < p → b < 26 → 2 ^ b ≤ q → q < 2 ^ (b + 1) →
    slashWord neg p q = BitVec.ofNat 32 ((if neg then 2 ^ 31 else 0) + b * 2 ^ 26 + p * 2 ^ b + (q - 2 ^ b)))

/-- FMOV, FMV.X and FMV.F copy bits unchanged in either mode. In floating mode FNEG inverts and FABS clears bit 31 of f[b] and raise no flag; FEQ, FLT, FLE and FUNORD set T from the numbers in f[a] and f[b], NaN operands comparing unequal and unordered, FEQ and FUNORD raising NV for a signalling NaN and FLT and FLE for every NaN; FCLASS writes the class code of f[b] (0 zero, 1 subnormal, 2 normal, 3 infinity, 4 quiet, 5 signalling NaN) with the sign in bit 3 to x[a]. No other register changes. -/
def Obligations.FloatingMovesComparesAndClass : Prop :=
  ∀ (s : State) (a b : FReg) (x : XReg),
    Gives s (exec (.fmov a b) s) (·.setF a (s.ctx.getF b)) ∧ Gives s (exec (.fmvX x b) s) (·.setX x (s.ctx.getF b)) ∧
    Gives s (exec (.fmvF a x) s) (·.setF a (s.ctx.getX x)) ∧
    (s.ctx.rm = false →
      Gives s (exec (.fneg a b) s) (·.setF a (s.ctx.getF b ^^^ 0x80000000)) ∧
      Gives s (exec (.fabs a b) s) (·.setF a (s.ctx.getF b &&& 0x7FFFFFFF)) ∧
      (let y := num32 (s.ctx.getF a); let z := num32 (s.ctx.getF b)
       let quiet : BitVec 5 := if y.sig || z.sig then 16 else 0
       let loud : BitVec 5 := if y.isNan || z.isNan then 16 else 0
       FpGives s (.feq a b) quiet false (·.setT (y.eq z)) ∧
       FpGives s (.flt a b) loud false (·.setT (y.lt z)) ∧
       FpGives s (.fle a b) loud false (·.setT (y.lt z || y.eq z)) ∧
       FpGives s (.funord a b) quiet false (·.setT (y.isNan || z.isNan))) ∧
      (let w := s.ctx.getF b; let e := w.extractLsb' 23 8; let m := w.extractLsb' 0 23
       let cls : Word := if e = 255 then (if m = 0 then 3 else if m.getLsbD 22 then 4 else 5) else if e = 0 then (if m = 0 then 0 else 1) else 2
       Gives s (exec (.fclass x b) s) (·.setX x (cls + if w.getLsbD 31 then 8 else 0))))

/-- In floating mode: FCVT.I32 and FCVT.N32 write to x[a] f[b] rounded to an integer in RND; a value out of range gives the nearest bound, an infinity its bound and a NaN 0, with NV, and an inexact one raises NX. FCVT to BF16, E4M3 and E5M2, and their .SAT forms, write the narrow value (a .SAT form clamps at the largest finite value and sets SAT). FCVTF.I32 and FCVTF.N32 round an integer, and FCVTF from a narrow format widens it exactly. An enabled flag traps instead. -/
def Obligations.FloatingConversions : Prop :=
  ∀ (s : State) (a : FReg) (x : XReg), s.ctx.rm = false →
    let rnd := s.ctx.fpcsr.rnd
    let y := num32 (s.ctx.getF a)
    let toInt (i : Instr) (lo hi : Int) : Prop :=
      (∀ b, y = .nan b → FpGives s i 16 false (·.setX x 0)) ∧
      (∀ b, y = .inf b → FpGives s i 16 false (·.setX x (BitVec.ofInt 32 (if b then lo else hi)))) ∧
      (∀ b n d, y = .fin b n d → let r := roundNat rnd b n d; let v := signed b r.1
        (v < lo → FpGives s i 16 false (·.setX x (BitVec.ofInt 32 lo))) ∧
        (hi < v → FpGives s i 16 false (·.setX x (BitVec.ofInt 32 hi))) ∧
        (lo ≤ v → v ≤ hi → FpGives s i (if r.2 then 1 else 0) false (·.setX x (BitVec.ofInt 32 v))))
    let narrow (i : Instr) (f : FpFormat) (sat : Bool) : Prop :=
      let r := f.narrow rnd sat y; FpGives s i r.2.1 r.2.2 (·.setX x r.1)
    let widen (i : Instr) (f : FpFormat) : Prop :=
      let v := f.decode ((s.ctx.getX x).toNat % 2 ^ (f.eb + f.fb + 1))
      FpGives s i (if v.sig then 16 else 0) false (·.setF a (BitVec.ofNat 32 (fp32.deliver 0 v).1))
    let ofInt (i : Instr) (v : Int) : Prop :=
      let r := fp32.round rnd (v < 0) v.natAbs 1; FpGives s i r.2 false (·.setF a (BitVec.ofNat 32 r.1))
    toInt (.fcvtI32 x a) (-(2 ^ 31)) (2 ^ 31 - 1) ∧ toInt (.fcvtN32 x a) 0 (2 ^ 32 - 1) ∧
    narrow (.fcvtBf16 x a) bf16 false ∧ narrow (.fcvtE4m3 x a) e4m3 false ∧ narrow (.fcvtE5m2 x a) e5m2 false ∧
    narrow (.fcvtBf16Sat x a) bf16 true ∧ narrow (.fcvtE4m3Sat x a) e4m3 true ∧ narrow (.fcvtE5m2Sat x a) e5m2 true ∧
    widen (.fcvtfBf16 a x) bf16 ∧ widen (.fcvtfE4m3 a x) e4m3 ∧ widen (.fcvtfE5m2 a x) e5m2 ∧
    ofInt (.fcvtfI32 a x) (s.ctx.getX x).toInt ∧ ofInt (.fcvtfN32 a x) (s.ctx.getX x).toNat

/-- In rational mode (RM 1) FADD to FSQRT write to f[a] the slash word of the exact result rounded by descent in RMODE; FNEG and FABS change the sign (a zero becomes 0); the compares set T; FCLASS writes the class (2 or 10 a finite number by sign, 0 zero, 3 or 11 an infinity, 4 the NaN, 6 an invalid code); conversions to integers and from integers and narrow formats go through RMODE; conversions to narrow formats put their flags into FPCSR. RCSR takes flags and RUNS, or RATIONAL_TRAP is raised with the enabled ones and nothing is written. -/
def Obligations.RationalModeResults : Prop :=
  ∀ (s : State) (a b : FReg) (c : Option FReg) (c' : FReg) (x : XReg) (y z : Word), s.ctx.rm = true → FOps s.ctx a b c y z →
    let m := s.ctx.rcsr.rmode
    let gives (i : Instr) (r : SlashOut) : Prop := RatGives s i r.flags r.runs (·.setF a r.word)
    let p := Slash.ofWord y; let q := Slash.ofWord z
    let fb := s.ctx.getF b
    let sum3 (neg : Bool) (addend : Slash) : SlashOut :=
      SlashRes.deliver m (Slash.fma neg (Slash.ofWord fb) (Slash.ofWord (s.ctx.getF c')) addend)
    let addend := Slash.ofWord (s.ctx.getF a)
    gives (.fadd a b c) (SlashRes.deliver m (p.add q)) ∧ gives (.fsub a b c) (SlashRes.deliver m (p.add q.neg)) ∧
    gives (.fmul a b c) (SlashRes.deliver m (p.mul q)) ∧ gives (.fdiv a b c) (SlashRes.deliver m (p.div q)) ∧
    gives (.fmin a b c) (slashMinMax false y z) ∧ gives (.fmax a b c) (slashMinMax true y z) ∧
    gives (.fma a b c') (sum3 false addend) ∧ gives (.fms a b c') (sum3 false addend.neg) ∧
    gives (.fnma a b c') (sum3 true addend) ∧ gives (.fnms a b c') (sum3 true addend.neg) ∧
    gives (.fsqrt a b) (slashSqrt m fb) ∧
    gives (.fneg a b) ⟨slashSign fb (fb ^^^ 0x80000000), 0, 0⟩ ∧ gives (.fabs a b) ⟨slashSign fb (fb &&& 0x7FFFFFFF), 0, 0⟩ ∧
    (let u := Slash.ofWord (s.ctx.getF a); let v := Slash.ofWord fb
     let quiet : BitVec 5 := if u.isInvalid || v.isInvalid then 16 else 0
     let loud : BitVec 5 := if u.isNan || v.isNan then 16 else 0
     RatGives s (.feq a b) quiet 0 (·.setT (u.eq v)) ∧ RatGives s (.flt a b) loud 0 (·.setT (u.lt v)) ∧
     RatGives s (.fle a b) loud 0 (·.setT (u.lt v || u.eq v)) ∧
     RatGives s (.funord a b) quiet 0 (·.setT (u.isNan || v.isNan)) ∧
     RatGives s (.fclass x b) 0 0 (·.setX x (match v with
       | .nan => 4 | .invalid => 6 | .inf n => if n then 11 else 3 | .fin n k _ => if k = 0 then 0 else if n then 10 else 2))) ∧
    (let v := (Slash.ofWord fb).toNum; let rnd : BitVec 2 := if m = 2 then 1 else if m = 3 then 3 else if m = 4 then 2 else 0
     RatGives s (.fcvtI32 x b) (v.toI32 rnd).2 0 (·.setX x (v.toI32 rnd).1) ∧
     RatGives s (.fcvtN32 x b) (v.toN32 rnd).2 0 (·.setX x (v.toN32 rnd).1) ∧
     ∀ t ∈ [(Instr.fcvtBf16 x b, bf16, false), (.fcvtE4m3 x b, e4m3, false), (.fcvtE5m2 x b, e5m2, false),
         (.fcvtBf16Sat x b, bf16, true), (.fcvtE4m3Sat x b, e4m3, true), (.fcvtE5m2Sat x b, e5m2, true)],
       let r := t.2.1.narrow s.ctx.fpcsr.rnd t.2.2 v; FpGives s t.1 r.2.1 r.2.2 (·.setX x r.1)) ∧
    (let w := s.ctx.getX x
     gives (.fcvtfI32 a x) (intToSlash m w.toInt) ∧ gives (.fcvtfN32 a x) (intToSlash m w.toNat) ∧
     gives (.fcvtfBf16 a x) ((bf16.decode (w.toNat % 2 ^ 16)).toSlash m) ∧
     gives (.fcvtfE4m3 a x) ((e4m3.decode (w.toNat % 2 ^ 8)).toSlash m) ∧
     gives (.fcvtfE5m2 a x) ((e5m2.decode (w.toNat % 2 ^ 8)).toSlash m))

/-- In either mode: SMK makes x[b] / x[c] (0/0 the NaN with NV, n/0 an infinity with DZ, else the rounded fraction); SNUM, SDEN and SBND write to x[a] the signed numerator, the denominator and the boundary of f[b] (an infinity is +-1 over 0, a NaN or invalid code 0 over 0); SMED gives the mediant; SREC the reciprocal (0 gives the infinity with DZ, an infinity 0); SCVTF converts the FP32 number in x[b], FCVTS the slash word in f[b] to FP32 bits in x[a] with its flags in FPCSR. Flags and RUNS go to RCSR otherwise, or RATIONAL_TRAP is raised. -/
def Obligations.SlashInstructionResults : Prop :=
  ∀ (s : State) (a b : FReg) (c : Option FReg) (x x' : XReg) (y z : Word), FOps s.ctx a b c y z →
    let m := s.ctx.rcsr.rmode
    let gives (i : Instr) (r : SlashOut) : Prop := RatGives s i r.flags r.runs (·.setF a r.word)
    let num := (s.ctx.getX x).toInt; let den := (s.ctx.getX x').toInt
    let w := s.ctx.getF b
    let bnd := (w.extractLsb' 26 5).toNat; let low := (w.extractLsb' 0 26).toNat
    let field (i : Instr) (v : Word) : Prop := RatGives s i 0 0 (·.setX x v)
    (den ≠ 0 → gives (.smk a x x') (roundRat m (decide ((num < 0) ≠ (den < 0))) num.natAbs den.natAbs)) ∧
    (den = 0 → num ≠ 0 → gives (.smk a x x') ⟨if num < 0 then 0xE8000000 else 0x68000000, 8, 0⟩) ∧
    (den = 0 → num = 0 → gives (.smk a x x') ⟨0x6C000000, 16, 0⟩) ∧
    field (.sbnd x b) (BitVec.ofNat 32 bnd) ∧
    (bnd < 26 → let n : Int := (low / 2 ^ bnd : Nat)
      field (.snum x b) (BitVec.ofInt 32 (if w.getLsbD 31 then -n else n)) ∧
      field (.sden x b) (BitVec.ofNat 32 (2 ^ bnd + low % 2 ^ bnd))) ∧
    (bnd = 26 → field (.snum x b) (if w.getLsbD 31 then 0xFFFFFFFF else 1) ∧ field (.sden x b) 0) ∧
    (26 < bnd → field (.snum x b) 0 ∧ field (.sden x b) 0) ∧
    gives (.smed a b c) (slashMediant m y z) ∧
    gives (.srec a b) (slashRec w) ∧
    gives (.scvtf a x) ((num32 (s.ctx.getX x)).toSlash m) ∧
    (let r := round32 s.ctx.fpcsr.rnd ((Slash.ofWord w).toNum, if (Slash.ofWord w).isInvalid then 16 else 0)
     FpGives s (.fcvts x b) r.2 false (·.setX x r.1))

/-- On a core context with lanes, outside a VLOOP body, with fewer than 16 entries occupied, every page 2 and page 3 instruction completes by adding one entry to its core's sequencer: the instruction, the x and f operands it reads, its effective address, VL, RND, PRV and PC as they stand. A load or store does so when its address checks pass (a trace entry beyond the own TCM aside). With COUNT 0 each raises VECTOR_LANES with VLANES in TVAL; with 16 entries it waits; on a hart it is ILLEGAL with reason 0xA. An address check that fails is taken first, with its cause and TVAL. VQUANT needs VL 32 or 64, and raises VECTOR_LANES with another; VQUANT and VDEQUANT need a width of 2 to 8, and are ILLEGAL with reason 9 with another. -/
def Obligations.VectorInstructionsEnterTheSequencer : Prop :=
  ∀ (s : State) (x x' : XReg) (f : FReg) (a b c : VReg) (o : Option VReg) (m : VMask) (imm : Imm),
    let k := s.ctx
    let w := k.getX x'
    let ea := k.getX x + imm * 4
    let entry (i : Instr) (xb xc fc ea : Word) : SeqEntry := ⟨s.cur, i, xb, xc, fc, ea, k.vl, k.fpcsr.rnd, k.prv,
      k.pc.extractLsb' 0 32, false, false, []⟩
    let enters (u : State) (e : SeqEntry) : Prop :=
      isHart s.cur = false → k.count ≠ 0 → k.vloop = none → s.seqUsed s.cur < 16 →
        Gives (u.updCore s.cur (fun q => { q with seq := q.seq ++ [.one e] })) (exec e.op s) id
    let plain : List Instr := [.vaddI a b o m, .vsubI a b o m, .vmulI a b o m, .vminI a b o m, .vmaxI a b o m, .vand a b o m, .vor a b o m,
      .vxor a b o m, .vsll a b o m, .vsrl a b o m, .vsra a b o m, .vaddsI a b o m, .vsubsI a b o m, .vaddF a b o m, .vsubF a b o m,
      .vmulF a b o m, .vdivF a b o m, .vminF a b o m, .vmaxF a b o m, .vfma a b c m, .vfms a b c m, .vsel a b c m, .vceqI a b o m,
      .vcltI a b o m, .vcltnI a b o m, .vceqF a b o m, .vcltF a b o m, .vcleF a b o m, .vcunF a b o m, .vcvtFI a b m, .vcvtIF a b m,
      .vcvtBf16F a b m, .vcvtFBf16 a b m, .vcvtE4m3F a b m, .vcvtE5m2F a b m, .vcvtFE4m3 a b m, .vcvtFE5m2 a b m, .vcvtBf16FSat a b m,
      .vcvtE4m3FSat a b m, .vcvtE5m2FSat a b m, .viota a m, .vperm a b o m, .vzip a b o m, .vunzip a b o m, .vrev a b m,
      .vcompress a b m, .vexpand a b m, .vredaddF f b m, .vredmaxF f b m, .vredminF f b m, .vredaddI x b m, .vredmaxI x b m,
      .vredminI x b m, .vpopc x b m, .vfirst x b m, .vexp a b m, .vlog a b m, .vrcp a b m, .vrsqrt a b m, .vtanh a b m, .vsigm a b m]
    let byX : List Instr := [.vextX x b x', .vslideup a b x' m, .vslidedn a b x' m, .vtopk a b x' m, .vtnorm a b x']
    let byF : List Instr := [.vaddFs a b f m, .vmulFs a b f m, .vfmaFs a b f m, .vbcastF a f m]
    (∀ i ∈ plain, enters s (entry i 0 0 0 0)) ∧ (∀ i ∈ byX, enters s (entry i 0 w 0 0)) ∧
    (∀ i ∈ byF, enters s (entry i 0 0 (k.getF f) 0)) ∧ enters s (entry (.vbcastX a x' m) w 0 0 0) ∧
    enters s (entry (.vinsX a x x') (k.getX x) w 0 0) ∧
    (2 ≤ w.toNat → w.toNat ≤ 8 → enters s (entry (.vdequant a b x') 0 w 0 0) ∧
      (k.vl = 32 ∨ k.vl = 64 → enters s (entry (.vquant a b x') 0 w 0 0))) ∧
    (let u := s.accessed (ea.toNat < tcmSize s.cur)
     let offs (stride : Word) := (List.range k.vl).map (fun i => BitVec.ofNat 32 i * stride)
     (s.vecCheck true ea 0 (offs 4) (4 * BitVec.ofNat 32 k.vl) = none → enters (u 2 ea) (entry (.vld a x imm m) 0 0 0 ea)) ∧
     (s.vecCheck false ea 0 (offs 4) (4 * BitVec.ofNat 32 k.vl) = none → enters (u 3 ea) (entry (.vst a x imm m) 0 0 0 ea)) ∧
     (s.vecCheck true ea w (offs w) (w * BitVec.ofNat 32 k.vl) = none → enters (u 2 ea) (entry (.vlds a x x' imm m) 0 w 0 ea)) ∧
     (s.vecCheck false ea w (offs w) (w * BitVec.ofNat 32 k.vl) = none → enters (u 3 ea) (entry (.vsts a x x' imm m) 0 w 0 ea)) ∧
     (s.vecCheck true ea 0 (offs 0) 4 = none → enters (u 2 ea) (entry (.vldb a x imm m) 0 0 0 ea)) ∧
     (ea.toNat % 4 = 0 → vecRange s.cur ea = true →
       enters (u 2 ea) (entry (.vldx a x c imm m) 0 0 0 ea) ∧ enters (u 3 ea) (entry (.vstx a x c imm m) 0 0 0 ea))) ∧
    (let offs (stride : Word) := (List.range k.vl).map (fun i => BitVec.ofNat 32 i * stride)
     let indexed (load : Bool) : Option (BitVec 8 × Word) := s.vecCheckIndexed load ea
     ∀ p ∈ ([(.vld a x imm m, s.vecCheck true ea 0 (offs 4) (4 * BitVec.ofNat 32 k.vl)),
        (.vst a x imm m, s.vecCheck false ea 0 (offs 4) (4 * BitVec.ofNat 32 k.vl)),
        (.vlds a x x' imm m, s.vecCheck true ea w (offs w) (w * BitVec.ofNat 32 k.vl)),
        (.vsts a x x' imm m, s.vecCheck false ea w (offs w) (w * BitVec.ofNat 32 k.vl)),
        (.vldb a x imm m, s.vecCheck true ea 0 (offs 0) 4), (.vldx a x c imm m, indexed true), (.vstx a x c imm m, indexed false)]
        : List (Instr × Option (BitVec 8 × Word))),
      (isHart s.cur = true → Traps s (exec p.1 s) 0x01 (illegalTval 0xA (s.group.words.length - 1) s.group.base s.group.page)) ∧
      (isHart s.cur = false → (∀ code tval, p.2 = some (code, tval) → Traps s (exec p.1 s) code tval) ∧
        (p.2 = none → k.count = 0 → Traps s (exec p.1 s) 0x28 (BitVec.ofNat 32 (k.want * 2 ^ 24 + k.vmin * 2 ^ 16))) ∧
        (p.2 = none → k.count ≠ 0 → k.vloop = none → 16 ≤ s.seqUsed s.cur →
          GivesCtx s (exec p.1 s) { k with wait := .sequencer }))) ∧
    (ea.toNat % 4 ≠ 0 → k.vloop = none → ∀ load, s.vecCheckIndexed load ea = some (0x03, ea)) ∧
    (w.toNat < 2 ∨ 8 < w.toNat → ∀ i ∈ [Instr.vquant a b x', .vdequant a b x'],
      Traps s (exec i s) 0x01 (illegalTval 9 (s.group.words.length - 1) s.group.base s.group.page)) ∧
    (2 ≤ w.toNat → w.toNat ≤ 8 → isHart s.cur = false → k.vl ≠ 32 → k.vl ≠ 64 →
      Traps s (exec (.vquant a b x') s) 0x28 (BitVec.ofNat 32 (k.want * 2 ^ 24 + k.vmin * 2 ^ 16 + k.count))) ∧
    (∀ i ∈ plain ++ byX ++ byF ++ [.vbcastX a x' m, .vinsX a x x'] ++
        (if 2 ≤ w.toNat ∧ w.toNat ≤ 8 then [.vdequant a b x'] else []) ++
        (if 2 ≤ w.toNat ∧ w.toNat ≤ 8 ∧ (k.vl = 32 ∨ k.vl = 64) then [.vquant a b x'] else []),
      (isHart s.cur = true → Traps s (exec i s) 0x01 (illegalTval 0xA (s.group.words.length - 1) s.group.base s.group.page)) ∧
      (isHart s.cur = false → k.count = 0 → Traps s (exec i s) 0x28 (BitVec.ofNat 32 (k.want * 2 ^ 24 + k.vmin * 2 ^ 16))) ∧
      (isHart s.cur = false → k.count ≠ 0 → k.vloop = none → 16 ≤ s.seqUsed s.cur →
        GivesCtx s (exec i s) { k with wait := .sequencer })) ∧
    (2 ≤ w.toNat → w.toNat ≤ 8 → isHart s.cur = true →
      Traps s (exec (.vquant a b x') s) 0x01 (illegalTval 0xA (s.group.words.length - 1) s.group.base s.group.page))

/-- When a core's sequencer starts its oldest entry, of a context that no switch has stopped and that has its saved lanes, and no vector element holds an error, the elementwise instructions write for every active element the result of their rule: sums, differences, low products, minima, maxima, logic, shifts by the low five bits, saturating sums, floating results in the captured RND with their flags, 0 or 1 for compares, conversions, broadcasts, the element number, reversed, zipped and slid elements, and special functions. Inactive and tail elements follow their policies; nothing else changes. For VSLIDEUP the active elements below x[c] keep their values, and inactive and tail ones follow their policies there too (notes/assumptions 46). VSEL writes every element below VL by its mask; VINS.X one element; VCOMPRESS the active elements packed, and VEXPAND elements in order to the active positions; VTOPK the indices of the active elements by rank, largest first, equal ones and NaNs by index (the order of NaNs is notes/assumptions 46), with NV for a NaN; VTNORM the weights of the values that v[a] names; VQUANT exponent and mantissa of blocks of 32, and VDEQUANT the value of each. The quantiser: NaN gives exponent 255, all zeros 0; otherwise each mantissa is the element over 2^(E - 127 - (w - 1)) rounded to nearest even and clamped, an infinity its bound, and E the candidate of least squared error (of the largest finite magnitude's exponent + 128, then 1 more, then 1 less). How transcendental functions are computed is notes/assumptions 10. -/
def Obligations.VectorElementResults : Prop :=
  ∀ (s : State) (core : AgentId) (e : SeqEntry) (rest : List SeqItem), (s.coreOf core).seq = .one e :: rest → s.mayStart e.ctx = true → e.early = [] →
    s.eccBad = [] → s.eccOne = [] → ∀ (a b c : VReg) (o : Option VReg) (m : VMask) (x : XReg) (g : FReg),
    let go (f : Nat → Elem) : Prop := LaneGives s (exec (.sequencerStart core) s) e a m f
    let yr := if o = none then a else b; let zr := o.getD b
    let y := s.lane e.ctx yr; let z := s.lane e.ctx zr
    let la := s.lane e.ctx a; let lb := s.lane e.ctx b; let lc := s.lane e.ctx c
    let int (f : Word → Word → Word) : Prop := go (fun i => ⟨f (y i) (z i), 0, false⟩)
    let flt (f : Word → Word → Word × BitVec 5) : Prop := go (fun i => ⟨(f (y i) (z i)).1, (f (y i) (z i)).2, false⟩)
    let cmp (f : Word → Word → Bool × BitVec 5) : Prop :=
      go (fun i => ⟨if (f (y i) (z i)).1 then 1 else 0, (f (y i) (z i)).2, false⟩)
    let un (f : Word → Word × BitVec 5) : Prop := go (fun i => ⟨(f (lb i)).1, (f (lb i)).2, false⟩)
    let nar (f : FpFormat) (sat : Bool) : Prop := go (fun i =>
      let r := f.narrow e.rnd sat (num32 (lb i)); ⟨r.1, r.2.1, r.2.2⟩)
    (e.op = .vaddI a b o m → int (· + ·)) ∧ (e.op = .vsubI a b o m → int (· - ·)) ∧ (e.op = .vmulI a b o m → int (· * ·)) ∧
    (e.op = .vminI a b o m → int (fun y z => if y.toInt < z.toInt then y else z)) ∧
    (e.op = .vmaxI a b o m → int (fun y z => if y.toInt < z.toInt then z else y)) ∧
    (e.op = .vand a b o m → int (· &&& ·)) ∧ (e.op = .vor a b o m → int (· ||| ·)) ∧ (e.op = .vxor a b o m → int (· ^^^ ·)) ∧
    (e.op = .vsll a b o m → int (fun y z => y <<< (z.toNat % 32))) ∧ (e.op = .vsrl a b o m → int (fun y z => y >>> (z.toNat % 32))) ∧
    (e.op = .vsra a b o m → int (fun y z => y.sshiftRight (z.toNat % 32))) ∧
    (e.op = .vaddsI a b o m → go (fun i => let v := (y i).toInt + (z i).toInt
      ⟨if v < -(2 ^ 31) then 0x80000000 else if 2 ^ 31 ≤ v then 0x7FFFFFFF else y i + z i, 0, v < -(2 ^ 31) || 2 ^ 31 ≤ v⟩)) ∧
    (e.op = .vsubsI a b o m → go (fun i => let v := (y i).toInt - (z i).toInt
      ⟨if v < -(2 ^ 31) then 0x80000000 else if 2 ^ 31 ≤ v then 0x7FFFFFFF else y i - z i, 0, v < -(2 ^ 31) || 2 ^ 31 ≤ v⟩)) ∧
    (e.op = .vaddF a b o m → flt (addF e.rnd)) ∧ (e.op = .vsubF a b o m → flt (subF e.rnd)) ∧ (e.op = .vmulF a b o m → flt (mulF e.rnd)) ∧
    (e.op = .vdivF a b o m → flt (divF e.rnd)) ∧ (e.op = .vminF a b o m → flt (minMaxF false)) ∧
    (e.op = .vmaxF a b o m → flt (minMaxF true)) ∧
    (e.op = .vfma a b c m → go (fun i => let r := fmaF e.rnd false false (la i) (lb i) (lc i); ⟨r.1, r.2, false⟩)) ∧
    (e.op = .vfms a b c m → go (fun i => let r := fmaF e.rnd true false (la i) (lb i) (lc i); ⟨r.1, r.2, false⟩)) ∧
    (e.op = .vceqI a b o m → cmp (fun y z => (y = z, 0))) ∧ (e.op = .vcltI a b o m → cmp (fun y z => (y.toInt < z.toInt, 0))) ∧
    (e.op = .vcltnI a b o m → cmp (fun y z => (y.toNat < z.toNat, 0))) ∧ (e.op = .vceqF a b o m → cmp eqF) ∧
    (e.op = .vcltF a b o m → cmp ltF) ∧ (e.op = .vcleF a b o m → cmp leF) ∧ (e.op = .vcunF a b o m → cmp unordF) ∧
    (e.op = .vcvtFI a b m → un (fun y => ofInt32 e.rnd y.toInt)) ∧ (e.op = .vcvtIF a b m → un (fun y => (num32 y).toI32 e.rnd)) ∧
    (e.op = .vcvtBf16F a b m → nar bf16 false) ∧ (e.op = .vcvtE4m3F a b m → nar e4m3 false) ∧ (e.op = .vcvtE5m2F a b m → nar e5m2 false) ∧
    (e.op = .vcvtBf16FSat a b m → nar bf16 true) ∧ (e.op = .vcvtE4m3FSat a b m → nar e4m3 true) ∧
    (e.op = .vcvtE5m2FSat a b m → nar e5m2 true) ∧ (e.op = .vcvtFBf16 a b m → un (fun y => bf16.widen y.toNat)) ∧
    (e.op = .vcvtFE4m3 a b m → un (fun y => e4m3.widen y.toNat)) ∧ (e.op = .vcvtFE5m2 a b m → un (fun y => e5m2.widen y.toNat)) ∧
    (e.op = .vaddFs a b g m → un (fun y => addF e.rnd y e.fc)) ∧ (e.op = .vmulFs a b g m → un (fun y => mulF e.rnd y e.fc)) ∧
    (e.op = .vfmaFs a b g m → go (fun i => let r := fmaF e.rnd false false (la i) (lb i) e.fc; ⟨r.1, r.2, false⟩)) ∧
    (e.op = .vbcastX a x m → go (fun _ => ⟨e.xb, 0, false⟩)) ∧ (e.op = .vbcastF a g m → go (fun _ => ⟨e.fc, 0, false⟩)) ∧
    (e.op = .viota a m → go (fun i => ⟨BitVec.ofNat 32 i, 0, false⟩)) ∧
    (e.op = .vperm a b o m → go (fun i => ⟨if (z i).toNat < (s.ctxOf e.ctx).count then y (z i).toNat else 0, 0, false⟩)) ∧
    (e.op = .vzip a b o m → go (fun i => ⟨if i % 2 = 0 then y (i / 2) else z (i / 2), 0, false⟩)) ∧
    (e.op = .vunzip a b o m → go (fun i => ⟨if 2 * i < e.vl then y (2 * i) else z (2 * i - e.vl), 0, false⟩)) ∧
    (e.op = .vrev a b m → go (fun i => ⟨lb (e.vl - 1 - i), 0, false⟩)) ∧
    (e.op = .vslidedn a b x m → go (fun i => ⟨if i + e.xc.toNat < e.vl then lb (i + e.xc.toNat) else 0, 0, false⟩)) ∧
    (e.op = .vexp a b m → un vexpF) ∧ (e.op = .vlog a b m → un vlogF) ∧ (e.op = .vrcp a b m → un (divF e.rnd 0x3F800000)) ∧
    (e.op = .vrsqrt a b m → un (vrsqrtF e.rnd)) ∧ (e.op = .vtanh a b m → un vtanhF) ∧ (e.op = .vsigm a b m → un vsigmF) ∧
    (let k := s.ctxOf e.ctx
     let bit (i : Nat) : Bool := (s.lane e.ctx (m.msel.setWidth 5) i).getLsbD 0
     let act (i : Nat) : Bool := i < e.vl && (m.msel = 0 || bit i)
     let on := (List.range 64).filter act
     let tail (p : Bool) : Option Word := if p then some 0xFFFFFFFF else none
     let puts (wr : Nat → Option Word) (flags : BitVec 5) (sat : Bool) : Prop :=
       ∃ t, exec (.sequencerStart core) s = .next t ∧ t.mem = s.mem ∧ (∀ b, b ≠ e.ctx → t.ctxOf b = s.ctxOf b) ∧
         (∀ i : Fin 64, ((t.ctxOf e.ctx).getV a)[i] = if k.count ≤ i then (k.getV a)[i] else (wr i).getD (k.getV a)[i]) ∧
         (∀ q, q ≠ a → (t.ctxOf e.ctx).getV q = k.getV q) ∧ (t.ctxOf e.ctx).x = k.x ∧ (t.ctxOf e.ctx).f = k.f ∧
         (t.ctxOf e.ctx).fpcsr.flags = k.fpcsr.flags ||| flags ∧ (t.ctxOf e.ctx).fpcsr.sat = (k.fpcsr.sat || sat)
     (e.op = .vslideup a b x m → go (fun i => ⟨if e.xc.toNat ≤ i then lb (i - e.xc.toNat) else la i, 0, false⟩)) ∧
     (e.op = .vexpand a b m → go (fun i => ⟨lb ((List.range i).filter act).length, 0, false⟩)) ∧
     (e.op = .vsel a b c m → puts (fun i => if i < e.vl then some (if bit i then lb i else lc i) else tail m.tpol) 0 false) ∧
     (∀ x', e.op = .vinsX a x x' → puts (fun i => if i = e.xc.toNat then some e.xb else none) 0 false) ∧
     (e.op = .vcompress a b m → puts (fun j => match on[j]? with
       | some i => some (lb i)
       | none => tail m.tpol) 0 false) ∧
     (e.op = .vtopk a b x m →
       let num (i : Nat) := num32 (lb i)
       let above (i j : Nat) : Bool := !(num i).isNan && ((num j).isNan || (num j).lt (num i))
       let rank (i : Nat) : Nat := (on.filter (fun j => above j i || (!above i j && j < i))).length
       puts (fun j => match if j < e.xc.toNat then on.find? (fun i => rank i = j) else none with
         | some i => some (BitVec.ofNat 32 i)
         | none => tail m.tpol) (if on.any (fun i => (num i).isNan) then 16 else 0) false) ∧
     (e.op = .vtnorm a b x →
       let n := min e.xc.toNat k.count
       let z (j : Nat) : Word := if (la j).toNat % 64 < k.count then lb ((la j).toNat % 64) else 0
       let zs := (List.range n).map z
       let fin (w : Word) : Bool := w.toNat % 2 ^ 31 < 0x7F800000
       let infs := (zs.filter (· = 0x7F800000)).length
       let nan : BitVec 5 := if zs.any (fun w => (num32 w).isNan) then 16 else 0
       let give (f : Word → Word × BitVec 5) (more : BitVec 5) : Prop := puts (fun j => if j < n then some (f (z j)).1 else none)
         (zs.foldl (fun r w => r ||| (f w).2) (nan ||| more)) false
       (infs ≠ 0 → let w := divF 0 0x3F800000 (ofInt32 0 infs).1
         give (fun y => if y = 0x7F800000 then (w.1, w.2) else (0, 0)) 0) ∧
       (infs = 0 → (∀ w ∈ zs, fin w = false) → give (fun _ => (0, 0)) 0) ∧
       (infs = 0 → ∀ top, zs.find? (fun w => fin w && zs.all (fun y => !fin y || !(num32 w).lt (num32 y))) = some top →
         let es := zs.map (fun w => if fin w then ((vexpF (subF 0 w top).1).1, (subF 0 w top).2 ||| (vexpF (subF 0 w top).1).2) else (0, 0))
         let sum := combTree (addF 0) 6 (es.map (fun p => some p.1) ++ List.replicate (64 - n) none)
         let weight (w : Word) : Word × BitVec 5 := divF 0 (if fin w then (vexpF (subF 0 w top).1).1 else 0) (sum.1.getD 0)
         give weight (es.foldl (fun r p => r ||| p.2) sum.2))) ∧
     (e.op = .vquant a b x → e.vl = 32 ∨ e.vl = 64 →
       let blk (n : Nat) : Block := quantBlock e.xc.toNat ((List.range 32).map (fun i => lb (32 * n + i)))
       let blks := (List.range (e.vl / 32)).map blk
       puts (fun i => if i < e.vl then some (BitVec.ofNat 8 (blk (i / 32)).e ++ (0 : BitVec 16) ++ BitVec.ofInt 8 ((blk (i / 32)).m.getD (i % 32) 0))
         else none) (blks.foldl (fun f q => f ||| q.flags) 0) (blks.any (fun q => q.clamps ≠ 0))) ∧
     (e.op = .vdequant a b x → 2 ≤ e.xc.toNat → e.xc.toNat ≤ 8 →
       puts (fun i => if i < e.vl then
           let ex : Nat := (lb i).toNat / 2 ^ 24
           let v : Nat := (lb i).toNat % 2 ^ e.xc.toNat
           let mant : Int := if 2 ^ (e.xc.toNat - 1) ≤ v then (v : Int) - 2 ^ e.xc.toNat else v
           let u := inUnits mant.natAbs 1 (126 + (e.xc.toNat : Int) - (ex : Int))
           some (if ex = 0 then 0 else if ex = 255 then 0x7FC00000 else if mant = 0 then 0 else (round32 0 (.fin (mant < 0) u.1 u.2, 0)).1)
         else none) 0 false)) ∧
    (∀ (w : Nat) (xs : List Word), 2 ≤ w → w ≤ 8 → xs.length = 32 → let q := quantBlock w xs
      let mag (y : Word) : Nat := y.toNat % 2 ^ 31
      let sc : Int := (q.e : Int) - 127 - ((w : Int) - 1)
      let bound (b : Bool) : Int := if b then -(2 ^ (w - 1)) else 2 ^ (w - 1) - 1
      -- nearest integer, and the value, of a finite element in units of the scale
      let near (b : Bool) (n d : Nat) : Int := signed b (roundNat 0 b (inUnits n d sc).1 (inUnits n d sc).2).1
      let mant (y : Word) : Int := match num32 y with
        | .nan _ => 0
        | .inf b => bound b
        | .fin b n d => max (bound true) (min (near b n d) (bound false))
      let clamped (y : Word) : Bool := match num32 y with
        | .nan _ => false
        | .inf _ => true
        | .fin b n d => near b n d != mant y
      let differs (y : Word) : Bool := match num32 y with
        | .nan _ => false
        | .inf _ => false
        | .fin b n d => signed b (inUnits n d sc).1 != mant y * (inUnits n d sc).2
      ((∃ y ∈ xs, (num32 y).isNan = true) → q = ⟨255, List.replicate 32 0, 0, 16⟩) ∧
      ((∀ y ∈ xs, mag y = 0) → q = ⟨0, List.replicate 32 0, 0, 0⟩) ∧
      ((∀ y ∈ xs, (num32 y).isNan = false) → (∃ y ∈ xs, mag y ≠ 0) →
        q.m = xs.map mant ∧ q.clamps = (xs.filter clamped).length ∧
        q.flags = (if xs.any (fun y => mag y = 0x7F800000) then 4 else 0) ||| (if xs.any differs then 1 else 0) ∧
        ((∀ y ∈ xs, mag y = 0 ∨ mag y = 0x7F800000) → q.e = 254) ∧
        (∀ big ∈ xs, 0 < mag big → mag big < 0x7F800000 → (∀ y ∈ xs, mag y < 0x7F800000 → mag y ≤ mag big) →
          ∀ n d, fp32.decode (mag big) = .fin false n d →
          let cand (δ : Int) : Nat := (min (max (exponentOf n d + 128 + δ) 1) 254).toNat
          let err (δ : Int) : Int := quantErr (cand δ) w (xs.map num32)
          q.e = if err 0 ≤ err 1 ∧ err 0 ≤ err (-1) then cand 0 else if err 1 < err 0 ∧ err 1 ≤ err (-1) then cand 1 else cand (-1))))

/-- When a core's sequencer starts its oldest entry, of a context that no switch has stopped and that has its saved lanes, none of whose elements has been accessed before, and no memory or vector element holds an error: VEXT.X writes element x[c] of v[b], or 0 beyond COUNT, to x[a]; VPOPC the number of active elements of v[b] with bit 0 set; VFIRST the first such, or VL, and T says whether there is one; VREDADD, VREDMAX and VREDMIN, floating and integer, the root of the fixed tree over the 64 leaves, or the value of an empty tree, a floating NaN as the default NaN, with the flags of every combination; a register, or T, that a later group has written keeps its value (06 R143). VLD, VLDB, VLDS and VLDX load for each active element the word at its address: element i at ea + 4 * i, at ea, at ea + i * x[c], and at ea + 4 * v[c][i] wrapped in the range that holds ea. VSTS and VSTX store likewise, the highest element to a word last; VSTX at program privilege leaves words of hardware-managed ranges alone. VST stores element i of v[a] to the word at ea + 4 * i for each active i, and every byte outside these words stays as it was. An entry that starts leaves the sequencer; the last entry of a VLOOP pass leaves the first of the next pass at its head, and of the last pass nothing. -/
def Obligations.VectorReductionsAndMemory : Prop :=
  ∀ (s : State) (core : AgentId) (e : SeqEntry) (rest : List SeqItem), s.eccBad = [] → s.eccOne = [] → e.early = [] →
    let c := s.ctxOf e.ctx
    let r := exec (.sequencerStart core) s
    let act (m : VMask) (i : Nat) : Bool := i < e.vl && (m.msel = 0 || (s.lane e.ctx (m.msel.setWidth 5) i).getLsbD 0)
    ((s.coreOf core).seq = .one e :: rest → s.mayStart e.ctx = true → ∀ (a x : XReg) (v b : VReg) (m : VMask) (imm : Imm),
      (∃ t, r = .next t ∧ (t.coreOf core).seq = rest) ∧
      (e.op = .vextX a b x → ∃ t, r = .next t ∧ t.mem = s.mem ∧
        t.ctxOf e.ctx = if e.gone then c else c.setX a (if e.xc.toNat < c.count then s.lane e.ctx b e.xc.toNat else 0)) ∧
      (e.op = .vpopc a b m → ∃ t, r = .next t ∧ t.mem = s.mem ∧ t.ctxOf e.ctx = if e.gone then c else c.setX a (BitVec.ofNat 32
        ((List.range 64).filter (fun i => act m i && (s.lane e.ctx b i).getLsbD 0)).length)) ∧
      (e.op = .vfirst a b m → ∃ t, r = .next t ∧ t.mem = s.mem ∧
        let hit := (List.range 64).find? (fun i => act m i && (s.lane e.ctx b i).getLsbD 0)
        let c' := if e.gone then c else c.setX a (BitVec.ofNat 32 (hit.getD e.vl))
        t.ctxOf e.ctx = if e.tGone then c' else c'.setT hit.isSome) ∧
      (e.op = .vld v x imm m → (∀ i, act m i = true → (tcmOrScratch e.ctx (e.ea + BitVec.ofNat 32 i * 4).toNat 4).isSome) →
        LaneGives s r e v m (fun i => ⟨s.wordAt ((tcmOrScratch e.ctx (e.ea + BitVec.ofNat 32 i * 4).toNat 4).getD 0), 0, false⟩)) ∧
      (e.op = .vldb v x imm m → (tcmOrScratch e.ctx e.ea.toNat 4).isSome →
        LaneGives s r e v m (fun _ => ⟨s.wordAt ((tcmOrScratch e.ctx e.ea.toNat 4).getD 0), 0, false⟩)) ∧
      (∀ (f : FReg) (node : Nat → Nat → Option Word) (op : Word → Word → Word × BitVec 5) (put : Word → Ctx → Ctx) (none' : Word),
        (e.op = .vredaddF f b m ∧ op = addF e.rnd ∧ none' = 0 ∨ e.op = .vredmaxF f b m ∧ op = minMaxF true ∧ none' = 0xFF800000 ∨
          e.op = .vredminF f b m ∧ op = minMaxF false ∧ none' = 0x7F800000) ∧
            put = (fun w k => k.setF f (if (num32 w).isNan then 0x7FC00000 else w)) ∨
        (e.op = .vredaddI a b m ∧ op = (fun y z => (y + z, 0)) ∧ none' = 0 ∨
          e.op = .vredmaxI a b m ∧ op = (fun y z => (if y.toInt < z.toInt then z else y, 0)) ∧ none' = 0x80000000 ∨
          e.op = .vredminI a b m ∧ op = (fun y z => (if y.toInt < z.toInt then y else z, 0)) ∧ none' = 0x7FFFFFFF) ∧
            put = (fun w k => k.setX a w) →
        (∀ i < 64, node 0 i = if act m i then some (s.lane e.ctx b i) else none) →
        (∀ l j, node (l + 1) j = match node l (2 * j), node l (2 * j + 1) with
          | some y, some z => some (op y z).1
          | some y, none => some y
          | none, z => z) →
        ∃ t, r = .next t ∧ t.mem = s.mem ∧ (∀ g, g ≠ e.ctx → t.ctxOf g = s.ctxOf g) ∧
          (let raised (n : Nat) : Bool := (List.range 6).any (fun l => (List.range 32).any (fun j => decide (j < 32 / 2 ^ l) &&
            match node l (2 * j), node l (2 * j + 1) with
              | some y, some z => (op y z).2.getLsbD n
              | some _, none => false
              | none, _ => false))
           let c' := { c with fpcsr := { c.fpcsr with flags := (t.ctxOf e.ctx).fpcsr.flags } }
           (∀ n : Fin 5, (t.ctxOf e.ctx).fpcsr.flags[n] = (c.fpcsr.flags[n] || raised n)) ∧
           t.ctxOf e.ctx = if e.gone then c' else put ((node 6 0).getD none') c')) ∧
      (∀ (d : VReg) (x' : XReg),
        let wrap (w : Word) : Word := if e.ea.toNat < tcmSize e.ctx then BitVec.ofNat 32 (w.toNat % tcmSize e.ctx)
          else 0x00100000 + BitVec.ofNat 32 ((w - 0x00100000).toNat % 0x40000)
        let loads (addr : Nat → Word) : Prop := (∀ i, act m i = true → (tcmOrScratch e.ctx (addr i).toNat 4).isSome) →
          LaneGives s r e v m (fun i => ⟨s.wordAt ((tcmOrScratch e.ctx (addr i).toNat 4).getD 0), 0, false⟩)
        let stores (addr : Nat → Word) (keep : Nat → Bool) : Prop := Memory.wf s.mem = true → e.ea.toNat % 4 = 0 → ∃ t, r = .next t ∧ t.ctxs = s.ctxs ∧
          (∀ i < 64, act m i = true → keep i = false → (∀ j, i < j → act m j = true → addr j ≠ addr i) →
            ∀ flat, tcmOrScratch e.ctx (addr i).toNat 4 = some flat → t.wordAt flat = s.lane e.ctx v i) ∧
          ∀ n, (∀ i, act m i = true → keep i = false → ∀ flat, tcmOrScratch e.ctx (addr i).toNat 4 = some flat → n < flat ∨ flat + 4 ≤ n) →
            t.byteAt n = s.byteAt n
        let strided (i : Nat) : Word := e.ea + BitVec.ofNat 32 i * e.xc
        let indexed (i : Nat) : Word := wrap (e.ea + 4 * s.lane e.ctx d i)
        (e.op = .vlds v x x' imm m → loads strided) ∧ (e.op = .vldx v x d imm m → loads indexed) ∧
        (e.op = .vsts v x x' imm m → e.xc.toNat % 4 = 0 → stores strided (fun _ => false)) ∧
        (e.op = .vstx v x d imm m → stores indexed (fun i => !e.prv && s.vecManaged e.ctx (indexed i)))) ∧
      (e.op = .vst v x imm m → Memory.wf s.mem = true → ∃ t, r = .next t ∧ t.ctxs = s.ctxs ∧
        (∀ i < 64, act m i = true → ∀ flat, tcmOrScratch e.ctx (e.ea + BitVec.ofNat 32 i * 4).toNat 4 = some flat →
          t.wordAt flat = s.lane e.ctx v i) ∧
        ∀ n, (∀ i, act m i = true → ∀ flat, tcmOrScratch e.ctx (e.ea + BitVec.ofNat 32 i * 4).toNat 4 = some flat →
          n < flat ∨ flat + 4 ≤ n) → t.byteAt n = s.byteAt n)) ∧
    (∀ l body count pos iter, (s.coreOf core).seq = .loop l body count pos iter :: rest → pos < body.length → 0 < iter →
      s.mayStart l = true → (∀ b ∈ body, b.early = []) →
      ∃ t, r = .next t ∧ (t.coreOf core).seq =
        if pos + 1 < body.length then .loop l body count (pos + 1) iter :: rest
        else if 1 < iter then .loop l body count 0 (iter - 1) :: rest else rest)

/-- On a core whose context has no vector entry in progress VCLAIM with a well-formed operand releases its lanes. At the head of the queue, with its minimum free, it is granted min(want, free) lanes at once: it completes, the number granted goes to VLANES and x[a], VL is 0, and every element of every v register reads zero. With its minimum not free it waits in the queue with no lanes, until CLAIM_GRANT grants it in the same way. A malformed operand raises VECTOR_LANES. VYIELD completes with the whole grant released and every element zero. VSYNC completes. While an entry is in progress VCLAIM, VYIELD and VSYNC wait for it, and a VCLAIM in the queue waits. VSETVL completes: VL becomes min(x[b], COUNT), x[a] the rest, and T whether a rest is left; with a = x0 T still says so (the model's reading, notes/assumptions 46). VLOOP of 1 to 16 groups that fit beside the entries of the sequencer completes and begins to collect its body; with more than fit it waits, without lanes it raises VECTOR_LANES, and of no group or more than 16 it is ILLEGAL with reason 9. On a hart each of these is ILLEGAL with reason 0xA (a VLOOP of no group or more than 16 with 9). That VCLAIM names no lanes yet taken from another and that a restored context is served first are rules of the pool; of several the order is the model's (notes/assumptions 46). -/
def Obligations.LanePoolAndSequencerControl : Prop :=
  ∀ (s : State) (a b : XReg), let w := s.ctx.getX b
    (isHart s.cur = true → ∀ i ∈ [Instr.vclaim a b, .vyield, .vsetvl a b, .vsync],
      Traps s (exec i s) 0x01 (illegalTval 0xA (s.group.words.length - 1) s.group.base s.group.page)) ∧
    (isHart s.cur = true →
      Traps s (exec (.vloop a b) s) 0x01 (illegalTval (if 1 ≤ w.toNat ∧ w.toNat ≤ 16 then 0xA else 9)
        (s.group.words.length - 1) s.group.base s.group.page)) ∧
    (isHart s.cur = false →
    let want := w.toNat % 128; let min := w.toNat / 65536 % 128
    let zeros (t : State) (k : AgentId) : Prop := ∀ (r : VReg), ∀ i < 64, t.lane k r i = 0
    (s.seqBusy s.cur = false → s.unit.claims = [] → claimOk w = true → (∀ p ∈ s.ctxs, p.2.owed = 0) →
      (s.ctxs.filter (fun p => p.1 = s.cur)).length = 1 →
      (s.freeLanes s.cur + s.ctx.count < min →
        ∃ t, exec (.vclaim a b) s = .next t ∧ t.ctx.wait = .lanes ∧ t.ctx.count = 0 ∧ t.ctx.vl = 0 ∧ t.ctx.x = s.ctx.x ∧
          t.unit.claims = [⟨s.cur, want, min, a, s.group.words⟩]) ∧
      (min ≤ s.freeLanes s.cur + s.ctx.count →
        ((s.ctxs.filter (fun p => unitKey p.1 = unitKey s.cur)).map (fun p => p.2.count)).sum ≤ 64 →
        let g := Nat.min want (s.freeLanes s.cur + s.ctx.count)
        ∃ t, exec (.vclaim a b) s = .next t ∧ t.unit.claims = [] ∧ t.mem = s.mem ∧ (∀ k, k ≠ s.cur → t.ctxOf k = s.ctxOf k) ∧
          zeros t s.cur ∧ t.ctx = ({ (s.ctx.advance s.groupBytes).ready with
            want := want, vmin := min, count := g, vl := 0, v := t.ctx.v } : Ctx).setX a (BitVec.ofNat 32 g))) ∧
    (s.unit.claims.any (fun k => k.ctx = s.cur) = true → GivesCtx s (exec (.vclaim a b) s) { s.ctx with wait := .lanes }) ∧
    (s.unit.claims.any (fun k => k.ctx = s.cur) = false →
      (claimOk w = false → Traps s (exec (.vclaim a b) s) 0x28
        (BitVec.ofNat 32 (s.ctx.want * 2 ^ 24 + s.ctx.vmin * 2 ^ 16 + s.ctx.count))) ∧
      (claimOk w = true → s.seqBusy s.cur = true → GivesCtx s (exec (.vclaim a b) s) { s.ctx with wait := .sequencer })) ∧
    (∀ (u : AgentId) (k : Claim), (s.unitOf u).claims = [k] → (∀ p ∈ s.ctxs, p.2.owed = 0) → k.min ≤ s.freeLanes u →
      ∃ t, exec (.claimGrant u) s = .next t ∧ (t.unitOf u).claims = [] ∧
        (t.ctxOf k.ctx).count = Nat.min k.want (s.freeLanes u) ∧ (t.ctxOf k.ctx).wait = .none ∧ zeros t k.ctx ∧
        (k.dst ≠ 0 → (t.ctxOf k.ctx).getX k.dst = BitVec.ofNat 32 (Nat.min k.want (s.freeLanes u)))) ∧
    (s.seqBusy s.cur = false → (∀ k ∈ s.unit.claims, k.ctx ≠ s.cur) → s.ctx.owed = 0 →
      ∃ t, exec .vyield s = .next t ∧ t.mem = s.mem ∧ zeros t s.cur ∧ t.ctx = { (s.ctx.advance s.groupBytes).ready with
        want := 0, vmin := 0, count := 0, vl := 0, v := t.ctx.v }) ∧
    (s.seqBusy s.cur = false → Gives s (exec .vsync s) id) ∧
    (s.seqBusy s.cur = true → ∀ i ∈ [Instr.vyield, .vsync], GivesCtx s (exec i s) { s.ctx with wait := .sequencer }) ∧
    (let n := w.toNat; let vl := Nat.min n s.ctx.count
     Gives s (exec (.vsetvl a b) s) (fun c => ({ c with vl := vl }.setX a (BitVec.ofNat 32 (n - vl))).setT (decide (vl < n)))) ∧
    (1 ≤ w.toNat → w.toNat ≤ 16 → s.ctx.count ≠ 0 → s.seqUsed s.cur + w.toNat ≤ 16 →
      Gives s (exec (.vloop a b) s) (fun c => { c with vloop := some ⟨(s.ctx.getX a).toNat, w.toNat, [], s.ctx.pc.extractLsb' 0 32,
        s.group.words.length, s.ctx.lcnt, s.ctx.lend, s.ctx.lrem, s.ctx.lact⟩ })) ∧
    (1 ≤ w.toNat → w.toNat ≤ 16 →
      (s.ctx.count ≠ 0 → 16 < s.seqUsed s.cur + w.toNat → GivesCtx s (exec (.vloop a b) s) { s.ctx with wait := .sequencer }) ∧
      (s.ctx.count = 0 → Traps s (exec (.vloop a b) s) 0x28 (BitVec.ofNat 32 (s.ctx.want * 2 ^ 24 + s.ctx.vmin * 2 ^ 16)))) ∧
    (w.toNat < 1 ∨ 16 < w.toNat →
      Traps s (exec (.vloop a b) s) 0x01 (illegalTval 9 (s.group.words.length - 1) s.group.base s.group.page)))

/-- On a core whose queue holds fewer than 4 commands, each matrix command (MMA, MMAR and MLATB when the context has no earlier vector load or store in progress) completes by adding itself to the queue with x[a], x[b], MFMT and MROWMASK as they stand (MMAR with its steps). An operand address that is no multiple of 32 raises ALIGN; a width outside 2 to 8 MATRIX_FORMAT with its field and value in TVAL; a full queue makes each wait, and MMA, MMAR and MLATB wait for earlier vector loads and stores of the context. MWAIT completes when no command of the context is left, MSYNC when none of the core is (a cancelled chain aside, which only keeps its ring points), and they wait otherwise. MCSWAP inverts MFMT.CB. On a hart each is ILLEGAL with reason 0xA. -/
def Obligations.MatrixCommandsEnterTheirQueue : Prop :=
  ∀ (s : State) (a b : XReg) (imm : Imm),
    let k := s.ctx
    let wa := k.mfmt.toNat % 16; let wb := k.mfmt.toNat / 16 % 16; let wq := k.mfmt.toNat / 256 % 16
    let ok (w : Nat) : Prop := 2 ≤ w ∧ w ≤ 8
    let joins (i : Instr) (xa xb : Word) (steps : Nat) : Prop :=
      s.core.mqueue.length < 4 →
        Gives (s.updCore s.cur (fun q => { q with mqueue := q.mqueue ++
          [⟨s.cur, i, xa, xb, k.mfmt, k.mrowmask, steps, 0, false, false, false, false, 0, false, false, [], none⟩] })) (exec i s) id
    let enters (i : Instr) (xa xb : Word) (steps : Nat) : Prop := (s.seqOps s.cur).any vectorMem = false → joins i xa xb steps
    let waits (i : Instr) : Prop := GivesCtx s (exec i s) { k with wait := .interlock }
    let late : Prop := 4 ≤ s.core.mqueue.length ∨ (s.seqOps s.cur).any vectorMem = true
    (isHart s.cur = false →
      ((k.getX a).toNat % 32 = 0 →
        (ok wa → enters (.mma a b) (k.getX a) (k.getX b) 1 ∧ enters (.mmar a b imm) (k.getX a) (k.getX b) imm.toNat) ∧
        (ok wb → enters (.mlatb a) (k.getX a) 0 1) ∧ (ok wq → joins (.mquant a b) (k.getX a) (k.getX b) 1) ∧
        (late → (ok wa → waits (.mma a b) ∧ waits (.mmar a b imm)) ∧ (ok wb → waits (.mlatb a))) ∧
        (4 ≤ s.core.mqueue.length → ok wq → waits (.mquant a b)) ∧
        (¬ok wa → Traps s (exec (.mma a b) s) 0x22 (BitVec.ofNat 32 wa) ∧ Traps s (exec (.mmar a b imm) s) 0x22 (BitVec.ofNat 32 wa)) ∧
        (¬ok wb → Traps s (exec (.mlatb a) s) 0x22 (BitVec.ofNat 32 (256 + wb))) ∧
        (¬ok wq → Traps s (exec (.mquant a b) s) 0x22 (BitVec.ofNat 32 (512 + wq)))) ∧
      ((k.getX a).toNat % 32 ≠ 0 → ∀ i ∈ [Instr.mma a b, .mmar a b imm, .mlatb a, .mquant a b], Traps s (exec i s) 0x03 (k.getX a)) ∧
      joins .mring 0 0 1 ∧ joins (.mzero a) (k.getX a) 0 1 ∧ joins (.mcrd a b) (k.getX a) (k.getX b) 1 ∧
      joins (.mcwr a b) (k.getX a) (k.getX b) 1 ∧ joins (.msatrd a b) (k.getX a) (k.getX b) 1 ∧
      (4 ≤ s.core.mqueue.length → ∀ i ∈ [Instr.mring, .mzero a, .mcrd a b, .mcwr a b, .msatrd a b], waits i) ∧
      (s.matrixBusy s.cur = false → Gives s (exec .mwait s) id) ∧
      (s.matrixBusy s.cur = true → waits .mwait) ∧
      ((∀ m ∈ s.core.mqueue, m.cancelled = true) → Gives s (exec .msync s) id) ∧
      ((∃ m ∈ s.core.mqueue, m.cancelled = false) → waits .msync) ∧
      Gives s (exec .mcswap s) (fun c => { c with mfmt := c.mfmt ^^^ 0x10000 })) ∧
    (isHart s.cur = true → ∀ i ∈ [Instr.mma a b, .mmar a b imm, .mlatb a, .mring, .mwait, .msync, .mzero a, .mcswap, .mcrd a b,
        .mcwr a b, .mquant a b, .msatrd a b],
      Traps s (exec i s) 0x01 (illegalTval 0xA (s.group.words.length - 1) s.group.base s.group.page))

/-- On a core of a cluster, without memory errors, for a head command none of whose words has been accessed early, of a context that no switch has stopped and that has its saved lanes. MATRIX_COMMAND_START of MLATB at the head latches its operand's bytes and frees the entry. ARRAY_SERVICE of the head that the arbiter picks: MZERO makes every element of the tile +0, MCWR writes one element, MCRD writes the element to x[a] unless a later group has written it, and an MMA whose operand is readable goes into service; no byte but the tile's changes. MQUANT, whose output area is readable, writes the exponents and mantissas that the quantiser of R318 gives the tile's rows or columns, and records their flags, SAT and clamps. MSATRD gives the tile's count of saturations, and clears it where x[b][8] is 1. TILE_OPERATION replaces each element (i, j) of an unmasked row by the rounded sum of R314; DONE rises; an MMAR of a ring member then stands at its ring point (a sole member passes it at once), and one of a core outside the ring goes on to its next step, or leaves the queue after its last with its flags recorded. A ring step moves each member's latch to the next member. SUBARRAY_GATE gates an idle sub-array. MCHAIN_CANCEL at kernel privilege removes the context's suspended MMA. -/
def Obligations.MatrixUnitServesItsCommands : Prop :=
  ∀ (s : State) (st c k x : Nat) (m : MCmd) (rest : List MCmd) (a b : XReg), s.eccBad = [] → s.eccOne = [] → Memory.wf s.mem = true →
    k < 8 → let core := AgentId.core st c k 0
    let el (t i j : Nat) := matrixAt st c (t * 0x1000 + i * 0x80 + j * 4)
    let outside (t n : Nat) : Prop := n < el t 0 0 ∨ el t 0 0 + 4096 ≤ n
    (m.ctx = .core st c k x → (s.coreOf core).mqueue = m :: rest → m.susp = false → m.atRing = false → m.cancelled = false →
      m.early = [] → m.out = none → s.mayStart m.ctx = true →
      (m.op = .mlatb a → ∀ flat, s.operandAt m.ctx m.xa.toNat (32 + 128 * (m.mfmt.toNat / 16 % 16)) = .ok flat →
        ∃ t, exec (.matrixCommandStart core) s = .next t ∧ (t.coreOf core).mqueue = rest ∧ t.mem = s.mem ∧
          (t.coreOf core).latch = s.bytesAt flat (32 + 128 * (m.mfmt.toNat / 16 % 16)) ∧
          (t.coreOf core).latchWidth = m.mfmt.toNat / 16 % 16) ∧
      (∀ p n, (s.unitOf core).service = none → s.arbitrate core = some (k, p, n) →
        (m.op = .mzero a → ∃ t, exec (.arrayService core) s = .next t ∧ (t.coreOf core).mqueue = rest ∧
          (∀ i j, i < 32 → j < 32 → t.wordAt (el m.tile i j) = 0) ∧ ∀ n, outside m.tile n → t.byteAt n = s.byteAt n) ∧
        (m.op = .mcwr a b → ∃ t, exec (.arrayService core) s = .next t ∧ (t.coreOf core).mqueue = rest ∧
          let at_ := el (m.xb.toNat / 1024 % 32) (m.xb.toNat / 32 % 32) (m.xb.toNat % 32)
          t.wordAt at_ = m.xa ∧ ∀ n, n < at_ ∨ at_ + 4 ≤ n → t.byteAt n = s.byteAt n) ∧
        (m.op = .mcrd a b → a ≠ 0 → m.gone = false → ∃ t, exec (.arrayService core) s = .next t ∧ (t.coreOf core).mqueue = rest ∧ t.mem = s.mem ∧
          (t.ctxOf m.ctx).getX a = s.wordAt (el (m.xb.toNat / 1024 % 32) (m.xb.toNat / 32 % 32) (m.xb.toNat % 32))) ∧
        (m.op = .mma a b → m.done = 0 → ∀ flat, s.operandAt m.ctx m.xa.toNat (32 + 128 * (m.mfmt.toNat % 16)) = .ok flat →
          ∃ t, exec (.arrayService core) s = .next t ∧ (t.unitOf core).service = some core ∧ t.mem = s.mem) ∧
        (∀ imm, m.op = .mmar a b imm → ∀ flat,
          s.operandAt m.ctx (m.xa + BitVec.ofNat 32 (m.done * (32 + 128 * (m.mfmt.toNat % 16)))).toNat (32 + 128 * (m.mfmt.toNat % 16)) = .ok flat →
          ∃ t, exec (.arrayService core) s = .next t ∧ (t.unitOf core).service = some core ∧ t.mem = s.mem) ∧
        (m.op = .mquant a b → let wq := m.mfmt.toNat / 256 % 16; let len := 32 + 128 * wq
          2 ≤ wq → wq ≤ 8 → ∀ flat, s.operandAt m.ctx m.xa.toNat len = .ok flat →
          let elem (i j : Nat) : Word := if m.rowmask.getLsbD i then s.wordAt (el m.tile i j) else 0
          let blk (p : Nat) : Block := quantBlock wq ((List.range 32).map (fun q => if m.xb.getLsbD 5 then elem q p else elem p q))
          let clamps := ((List.range 32).map (fun p => (blk p).clamps)).sum
          ∃ t, exec (.arrayService core) s = .next t ∧ (t.coreOf core).mqueue = rest ∧
            (∀ p i, p < 32 → i < 32 → tileExp (t.bytesAt flat len) p = (blk p).e ∧
              tileMant (t.bytesAt flat len) wq (32 * p + i) = (blk p).m.getD i 0) ∧
            (∀ n, n < flat ∨ flat + len ≤ n → t.byteAt n = s.byteAt n) ∧
            (t.ctxOf m.ctx).fpcsr.flags = (List.range 32).foldl (fun f p => f ||| (blk p).flags) ((s.ctxOf m.ctx).fpcsr.flags ||| m.flags) ∧
            (t.ctxOf m.ctx).fpcsr.sat = ((s.ctxOf m.ctx).fpcsr.sat || m.sat || clamps ≠ 0) ∧
            (t.ctxOf m.ctx).msatc.toNat = min ((s.ctxOf m.ctx).msatc.toNat + clamps) 0xFFFFFFFF)) ∧
      (m.op = .msatrd a b → let n := lookupD (0, false) (s.unitOf core).satc (m.xb.toNat % 32)
        ∃ t, exec (.matrixCommandStart core) s = .next t ∧ (t.coreOf core).mqueue = rest ∧ t.mem = s.mem ∧
          (m.gone = true → (t.ctxOf m.ctx).x = (s.ctxOf m.ctx).x) ∧
          (m.gone = false → (t.ctxOf m.ctx).x = ((s.ctxOf m.ctx).setX a (BitVec.ofNat 32 (bit n.2 * 2 ^ 31 + n.1))).x) ∧
          lookupD (0, false) (t.unitOf core).satc (m.xb.toNat % 32) = (if m.xb.getLsbD 8 then (0, false) else n) ∧
          ∀ j, j ≠ m.xb.toNat % 32 → lookup? (t.unitOf core).satc j = lookup? (s.unitOf core).satc j) ∧
      (∀ imm, m.op = .mma a b ∨ m.op = .mmar a b imm → (s.unitOf core).service = some core → ∀ flat,
        let len := 32 + 128 * (m.mfmt.toNat % 16)
        s.operandAt m.ctx (m.xa + BitVec.ofNat 32 (m.done * len)).toNat len = .ok flat →
        let A := s.bytesAt flat len; let B := (s.coreOf core).latch; let wb := (s.coreOf core).latchWidth
        let res (i j : Nat) : Word × BitVec 5 := tileElem (tileExp A i) (tileExp B j) (dotFrom A B (m.mfmt.toNat % 16) wb i j 32)
          (m.mfmt.toNat % 16) wb (s.wordAt (el m.tile i j))
        let flags := (List.range 1024).foldl (fun f n => if m.rowmask.getLsbD (n / 32) then f ||| (res (n / 32) (n % 32)).2 else f) m.flags
        let left := { m with done := m.done + 1, flags := flags }
        ∃ t, exec (.tileOperation core) s = .next t ∧ (t.unitOf core).service = none ∧
          (∀ i j, i < 32 → j < 32 → t.wordAt (el m.tile i j) = if m.rowmask.getLsbD i then (res i j).1 else s.wordAt (el m.tile i j)) ∧
          (∀ n, outside m.tile n → t.byteAt n = s.byteAt n) ∧ (t.ctxOf m.ctx).mchain.done = BitVec.ofNat 8 (m.done + 1) ∧
          (m.op = .mma a b ∨ s.member core = false ∨ s.members core = [core] →
            (t.coreOf core).mqueue = (if m.steps ≤ m.done + 1 then rest else left :: rest) ∧
            (m.steps ≤ m.done + 1 → (t.ctxOf m.ctx).fpcsr.flags = (s.ctxOf m.ctx).fpcsr.flags ||| flags)) ∧
          (m.op = .mmar a b imm → s.member core = true → (∃ o ∈ s.members core, o ≠ core) →
            (t.coreOf core).mqueue = { left with atRing := true } :: rest)) ∧
      (m.op = .mma a b → m.done = 0 → m.steps = 1 → (s.unitOf core).service = some core → ∀ flat,
        s.operandAt m.ctx m.xa.toNat (32 + 128 * (m.mfmt.toNat % 16)) = .ok flat →
        ∃ t, exec (.tileOperation core) s = .next t ∧ (t.coreOf core).mqueue = rest ∧ (t.unitOf core).service = none ∧
          (∀ i j, i < 32 → j < 32 →
            t.wordAt (el m.tile i j) =
              if m.rowmask.getLsbD i then
                let A := s.bytesAt flat (32 + 128 * (m.mfmt.toNat % 16)); let B := (s.coreOf core).latch
                (tileElem (tileExp A i) (tileExp B j)
                  (dotFrom A B (m.mfmt.toNat % 16) (s.coreOf core).latchWidth i j 32)
                  (m.mfmt.toNat % 16) (s.coreOf core).latchWidth (s.wordAt (el m.tile i j))).1
              else s.wordAt (el m.tile i j)) ∧
          ∀ n, outside m.tile n → t.byteAt n = s.byteAt n)) ∧
    (s.members core ≠ [] → (s.members core).all s.ringReady = true → ∃ t, exec (.ringStep core) s = .next t ∧ t.mem = s.mem ∧
      ∀ i (h : i < (s.members core).length),
        (t.coreOf ((s.members core)[(i + 1) % (s.members core).length]'(Nat.mod_lt _ (by omega)))).latch =
          (s.coreOf (s.members core)[i]).latch) ∧
    (∀ sub : BitVec 2, let u := s.unitOf core
      u.mgateIdle ≠ 0 → u.service = none → u.lastUse[sub.toNat] + u.mgateIdle.toNat ≤ s.time.toNat →
        exec (.subarrayGate core sub) s = .next (s.setUnitOf core { u with gated := u.gated ||| ((1 : BitVec 4) <<< sub.toNat) })) ∧
    (s.core.mqueue = m :: rest → m.susp = true → m.ctx = s.cur → m.op = .mma a b → s.ctx.mchain.susp = true → s.ctx.prv = true →
      ∃ t, exec .mchainCancel s = .next t ∧ t.core.mqueue = rest ∧ t.ctx.mchain.susp = false ∧ t.mem = s.mem)

/-- On a core, with no store or vector entry of the context outstanding, an atomic at an aligned scratchpad word completes: x[a] takes the old word and the word becomes old + y (AADD); old + y if that is at most z unsigned, T (FADDB); 0 with T 0 if y is at most old, else old + 1 with T 1 (INCW); y (ASWAP); z if old = y, T (ACAS); old AND y; old OR y; the signed maximum. No other byte changes. At a shared word with a window's A permission the request waits; REMOTE_ATOMIC performs it at the home slice for the owner tenant, and the group then writes the same result. A misaligned address raises ALIGN; any other place raises STORE_WINDOW. -/
def Obligations.ReturningAtomics : Prop :=
  ∀ (s : State) (a b c : XReg), let ea := s.ctx.getX b; let y := s.ctx.getX c; let z := s.ctx.getX (c + 1)
    let cases (old : Word) : List (Instr × Word × Option Bool) :=
      [(.aadd a b c, old + y, none),
       (.faddb a b c, if old.toNat + y.toNat ≤ z.toNat then old + y else old, some (decide (old.toNat + y.toNat ≤ z.toNat))),
       (.incw a b c, if y.toNat ≤ old.toNat then 0 else old + 1, some (decide ¬(y.toNat ≤ old.toNat))),
       (.aswap a b c, y, none), (.acas a b c, if old = y then z else old, some (decide (old = y))), (.aand a b c, old &&& y, none),
       (.aor a b c, old ||| y, none), (.amax a b c, if old.toInt < y.toInt then y else old, none)]
    let result (old : Word) (t : Option Bool) (k : Ctx) : Ctx :=
      match t with
      | some t => (k.setX a old).setT t
      | none => k.setX a old
    let fn (i : Instr) : BitVec 3 := match i with
      | .aadd _ _ _ => 0 | .faddb _ _ _ => 1 | .incw _ _ _ => 2 | .aswap _ _ _ => 3 | .acas _ _ _ => 4 | .aand _ _ _ => 5 | .aor _ _ _ => 6 | _ => 7
    (ea.toNat % 4 ≠ 0 → ∀ p ∈ cases 0, Traps s (exec p.1 s) 0x03 ea) ∧
    (∀ flat, ea.toNat % 4 = 0 → place s.cur ea.toNat = .scratch flat → s.hasBad flat 4 = false → s.released s.cur = true →
      Memory.wf s.mem = true → ∀ p ∈ cases (s.wordAt flat),
        StoresBytes s (exec p.1 s) flat 4 (p.2.1.setWidth 64) (result (s.wordAt flat) p.2.2)) ∧
    (ea.toNat % 4 = 0 → (∀ flat, place s.cur ea.toNat ≠ .scratch flat) → place s.cur ea.toNat ≠ .shared →
      ∀ p ∈ cases 0, Traps s (exec p.1 s) 0x05 ea) ∧
    (ea.toNat % 4 = 0 → place s.cur ea.toNat = .shared →
      (homeOf s.ctx.windows ea.toNat .atomic = none → ∀ p ∈ cases 0, Traps s (exec p.1 s) 0x05 ea) ∧
      (∀ st sl o, homeOf s.ctx.windows ea.toNat .atomic = some (st, sl, o) →
        (s.ctx.pend = .none → s.released s.cur = true → ∀ p ∈ cases 0,
          GivesCtx s (exec p.1 s) { s.ctx with pend := .rmw (sliceAt st sl o) ea (fn p.1) y z, wait := .load }) ∧
        (∀ bs, s.ctx.pend = .got bs → ∀ p ∈ cases (wordOfBytes bs), Gives s (exec p.1 s) (result (wordOfBytes bs) p.2.2)))) ∧
    (∀ ag st sl o, st < 16 → sl < 64 → o < 0x180000 → Memory.wf s.mem = true → let old := s.wordAt (sliceAt st sl o)
      ∀ p ∈ cases old, (s.ctxOf ag).pend = .rmw (sliceAt st sl o) ea (fn p.1) y z →
      (s.sliceTenant st sl o ≠ some (s.tenantOf ag) → ∃ t, exec (.remoteAtomic ag) s = .next t ∧ t.mem = s.mem ∧
        t.ctxOf ag = { s.ctxOf ag with pend := .bad 0x05 ea }) ∧
      (s.sliceTenant st sl o = some (s.tenantOf ag) → s.hasBad (sliceAt st sl o) 4 = true →
        ∃ t, exec (.remoteAtomic ag) s = .next t ∧ t.mem = s.mem ∧ t.ctxOf ag = { s.ctxOf ag with pend := .bad 0x08 ea }) ∧
      (s.sliceTenant st sl o = some (s.tenantOf ag) → s.hasBad (sliceAt st sl o) 4 = false →
        ∃ t, exec (.remoteAtomic ag) s = .next t ∧ t.wordAt (sliceAt st sl o) = p.2.1 ∧
          t.ctxOf ag = { s.ctxOf ag with pend := .got (wordBytes4 old) } ∧
          ∀ n, n < sliceAt st sl o ∨ sliceAt st sl o + 4 ≤ n → t.byteAt n = s.byteAt n))

/-- ACC.I and ACC.F at an aligned shared word with A permission and fewer than 64 messages out complete and send x[a] or f[a] to the home word; with 64 out they wait. ACCSQ sends f[a] and its square to two words. ACCUMULATE_ARRIVAL marks the message dropped where the word is another tenant's. It applies a must-accept message, one without a quota, one of a partition or team whose gang switch has come to its stop time by the slice's TIME, and one whose source cluster has fewer than QUOTA accepted in the present window of 2^QWX cycles of that TIME; what it accepts without MUST counts. One beyond the quota is refused, and no memory changes. ACC_ACK and REFUSAL_RETURN end the message at its owner. A returned refusal enters its tile entry where that is empty, is added to it where the entry is of the same word, kind and domain, and otherwise sends the old addend as a must-accept message and takes its place; during a flush, and after the stop time, it is sent again as a must-accept message. ACC_MERGE combines two messages of one word. RESIDUAL_AGEING empties an entry that has reached its age by the core's TIME and sends its addend as a must-accept message. FLUSHR completes when the tile is empty and nothing is out. Otherwise it begins a flush and waits: the addends of the lowest valid entries are sent as must-accept messages and the entries emptied, at most 4 of them and 64 in all unacknowledged; each ACC_ACK of a context that flushes sends more. QUOTA_WINDOW forgets passed windows. -/
def Obligations.AccumulatesAndResidualTiles : Prop :=
  ∀ (s : State) (a b : XReg) (f : FReg), let ea := s.ctx.getX b
    let msg (st sl o : Nat) (fp : Bool) (v : Word) : Acc := s.accMsg s.cur ⟨fp, st, sl, o, v, s.ctx.innermost⟩ false
    (ea.toNat % 4 ≠ 0 → Traps s (exec (.accI a b) s) 0x03 ea ∧ Traps s (exec (.accF f b) s) 0x03 ea) ∧
    (∀ st sl o, ea.toNat % 4 = 0 → place s.cur ea.toNat = .shared → homeOf s.ctx.windows ea.toNat .atomic = some (st, sl, o) →
      s.tileEntry s.cur (o / 4 % 64) = none →
      (s.ctx.out < 64 →
        (∃ t, exec (.accI a b) s = .next t ∧ t.accs = s.accs ++ [msg st sl o false (s.ctx.getX a)] ∧ t.ctx.out = s.ctx.out + 1 ∧
          t.ctx.x = s.ctx.x ∧ t.mem = s.mem) ∧
        (∃ t, exec (.accF f b) s = .next t ∧ t.accs = s.accs ++ [msg st sl o true (s.ctx.getF f)] ∧ t.ctx.out = s.ctx.out + 1 ∧
          t.ctx.f = s.ctx.f ∧ t.mem = s.mem)) ∧
      (64 ≤ s.ctx.out → GivesCtx s (exec (.accI a b) s) { s.ctx with wait := .interlock } ∧
        GivesCtx s (exec (.accF f b) s) { s.ctx with wait := .interlock }) ∧
      (∀ st' sl' o', ea.toNat % 8 = 0 → s.ctx.out < 63 → place s.cur (ea + 4).toNat = .shared →
        homeOf s.ctx.windows (ea + 4).toNat .atomic = some (st', sl', o') → s.tileEntry s.cur (o' / 4 % 64) = none →
        ∃ t, exec (.accsq f b) s = .next t ∧ t.accs = s.accs ++ [msg st sl o true (s.ctx.getF f),
            msg st' sl' o' true (mulF 0 (s.ctx.getF f) (s.ctx.getF f)).1] ∧ t.ctx.out = s.ctx.out + 2 ∧ t.mem = s.mem)) ∧
    ((∀ n < 64, s.tileEntry s.cur n = none) → s.ctx.out = 0 → ∃ t, exec .flushr s = .next t ∧ t.ctx.flushing = false ∧
      t.ctx.x = s.ctx.x ∧ t.mem = s.mem ∧ t.accs = s.accs) ∧
    -- `t` has the messages `accs`, and after them those of the lowest entries that may be sent beside `must` of `out` messages
    (let drained (ag : AgentId) (accs : List Acc) (must out : Nat) (t : State) : Prop :=
        let sent := ((List.range 64).filter (fun n => (s.tileEntry ag n).isSome)).take (Nat.min (4 - must) (64 - out))
        t.accs = accs ++ sent.filterMap (fun n => (s.tileEntry ag n).map (fun x => s.accMsg ag x true)) ∧
        (t.ctxOf ag).out = out + sent.length ∧ (t.ctxOf ag).mustOut = must + sent.length ∧
        ∀ n < 64, t.tileEntry ag n = if n ∈ sent then none else s.tileEntry ag n
     Memory.wf s.mem = true →
      ((∃ n < 64, s.tileEntry s.cur n ≠ none) ∨ s.ctx.out ≠ 0 → ∃ t, exec .flushr s = .next t ∧ t.ctx.flushing = true ∧
        t.ctx.wait = .interlock ∧ t.ctx.x = s.ctx.x ∧ t.ctx.pc = s.ctx.pc ∧ drained s.cur s.accs s.ctx.mustOut s.ctx.out t) ∧
      (∀ (n : Nat) (m : Acc), s.accs[n]? = some m → m.dir = .ack → (s.ctxOf m.owner).flushing = true →
        ∃ t, exec (.accAck n) s = .next t ∧
          drained m.owner (s.accs.eraseIdx n) ((s.ctxOf m.owner).mustOut - (if m.must then 1 else 0)) ((s.ctxOf m.owner).out - 1) t)) ∧
    (∀ (n : Nat) (m : Acc), s.accs[n]? = some m →
      (m.dir = .toHome → let flat := sliceAt m.stack m.slice m.off
        let now := (s.sliceClock m.stack m.slice).toNat
        let count := ((s.sliceOf m.stack m.slice).quota.filter (fun q => q.1 = sourceOf m.owner && now / 2 ^ m.qwx * 2 ^ m.qwx ≤ q.2)).length
        let gang := ∃ w ∈ s.switches, w.2.stop ≤ now ∧ ((w.2.team = none ∧ w.2.tenant = m.tenant) ∨
          ∃ q l i k, w.2.team = some (q, l, i) ∧ (s.ctxOf m.owner).origin = .member q l i k)
        let free := m.must = true ∨ m.quota = 0 ∨ gang
        (s.sliceTenant m.stack m.slice m.off ≠ some m.tenant → ∃ t, exec (.accumulateArrival n) s = .next t ∧
          t.accs[n]? = some { m with dir := .ack, dropped := true }) ∧
        (s.sliceTenant m.stack m.slice m.off = some m.tenant → s.hasBad flat 4 = false →
          (¬free → m.quota ≤ count →
            exec (.accumulateArrival n) s = .next { s with accs := s.accs.set n { m with dir := .refusal } }) ∧
          (free ∨ count < m.quota → Memory.wf s.mem = true → ∃ t, exec (.accumulateArrival n) s = .next t ∧
            t.wordAt flat = (combine m.fp (s.wordAt flat) m.value).1 ∧ (t.accs[n]?).map Acc.dir = some .ack ∧
            (t.sliceOf m.stack m.slice).quota =
              (if m.must then [] else [(sourceOf m.owner, now)]) ++ (s.sliceOf m.stack m.slice).quota ∧
            ∀ q, q < flat ∨ flat + 4 ≤ q → t.byteAt q = s.byteAt q))) ∧
      (m.dir = .ack → (s.ctxOf m.owner).flushing = false →
        ∃ t, exec (.accAck n) s = .next t ∧ t.accs = s.accs.eraseIdx n ∧ (t.ctxOf m.owner).out = (s.ctxOf m.owner).out - 1 ∧
          (t.ctxOf m.owner).fpcsr.flags = (s.ctxOf m.owner).fpcsr.flags ||| m.flags ∧ t.mem = s.mem ∧
          (t.ctxOf m.owner).pauseFlags = (s.ctxOf m.owner).pauseFlags ||| (if (s.ctxOf m.owner).pause = .no then 0 else m.flags.setWidth 13)) ∧
      (m.dir = .refusal → (s.ctxOf m.owner).mustOut < 4 → Memory.wf s.mem = true → m.stack < 16 → m.slice < 64 →
        m.off % 4 = 0 → m.off < 0x400000 →
        let at_ := m.off / 4 % 64
        let new : Addend := ⟨m.fp, m.stack, m.slice, m.off, m.value, m.dom⟩
        let left := s.accs.eraseIdx n
        ∃ t, exec (.refusalReturn n) s = .next t ∧
          (t.ctxOf m.owner).refused = Nat.min ((s.ctxOf m.owner).refused + 1) 0xFFFF ∧
          (∀ q < 64, q ≠ at_ → t.tileEntry m.owner q = s.tileEntry m.owner q) ∧
          (if (s.ctxOf m.owner).flushing = true ∨ (s.pastStop m.owner = true ∧ s.resuming m.owner = false) then
            t.accs = left ++ [s.accMsg m.owner new true] ∧ t.tileEntry m.owner at_ = s.tileEntry m.owner at_
          else match s.tileEntry m.owner at_ with
            | none => t.accs = left ∧ (t.ctxOf m.owner).out = (s.ctxOf m.owner).out - 1 ∧ t.tileEntry m.owner at_ = some new
            | some y =>
              if y.fp = m.fp ∧ y.stack = m.stack ∧ y.slice = m.slice ∧ y.off = m.off ∧ y.dom = m.dom then
                t.accs = left ∧ t.tileEntry m.owner at_ = some { y with value := (combine m.fp y.value m.value).1 }
              else t.accs = left ++ [s.accMsg m.owner y true] ∧ t.tileEntry m.owner at_ = some new))) ∧
    (∀ i j m k, i < j → s.accs[i]? = some m → s.accs[j]? = some k → m.merges k s.time.toNat = true →
      ∃ t, exec (.accMerge i j) s = .next t ∧ (t.accs[i]?).map Acc.value = some (combine m.fp m.value k.value).1 ∧
        (t.accs[j]?).map Acc.dir = some .ack ∧ t.mem = s.mem) ∧
    (∀ ag (n : BitVec 6) v, s.tileEntry ag n.toNat = some v → (s.ctxOf ag).mustOut < 4 → (s.ctxOf ag).out < 64 →
      Memory.wf s.mem = true →
      2 ^ ((s.unitOf ag).acccfg.agex.toNat + 8) ≤ ((s.coreClock ag).setWidth 32 - s.wordAt (tileBase ag + 16 * n.toNat + 12)).toNat →
      ∃ t, exec (.residualAgeing ag n) s = .next t ∧ t.accs = s.accs ++ [s.accMsg ag v true] ∧
        (t.ctxOf ag).out = (s.ctxOf ag).out + 1 ∧ ∀ q < 64, t.tileEntry ag q = if q = n.toNat then none else s.tileEntry ag q) ∧
    (∀ st sl, exec (.quotaWindow st sl) s = .next (s.updSlice st sl (fun x => { x with
      quota := x.quota.filter (fun q => decide ((s.sliceClock st sl).toNat / 32768 * 32768 ≤ q.2)) })))

/-- On a core with fewer than 32 jobs in the cluster and 8 of the context, and no store outstanding, JOB with a readable, aligned descriptor and mailbox outside managed ranges queues the job, writes 0 to the mailbox, its identifier to x[a], and T 1; with 32 or 8 jobs T becomes 0 alone. JOB_START marks the oldest job that may start running while fewer than 4 run. The copy unit first sees the stores that are ordered before its accesses. JOB_END of a started job, of any number of rows and any length, between TCM, scratchpad, matrix memory, peer TCM, shared SRAM and DRAM, whose rows overlap neither each other nor the source, copies every byte of every row (row r lies at the address plus r strides; DRAM by the tenant's page table) and writes the mailbox with DONE; no other byte changes. A malformed job (REASON 1), or one whose first word meets a source in no range or outside its window (2), such a destination or a managed one (3), a failed translation (4), an absent peer (5) or an uncorrectable error (6), copies nothing, writes STATUS 1 and that REASON and leaves a job fault. POLLJ gives DONE in T. WAITJ completes with T 1 when it is set; otherwise with an unfinished job of the context with that mailbox it waits, whatever is stored there, until the copy unit has written the mailbox, and then completes with T 1; with no such job it completes with T 0. Single-bit errors of the words read are corrected (12 R371). -/
def Obligations.CopyJobs : Prop :=
  ∀ (s : State) (a b : XReg) (flat mflat : Nat), let d := s.ctx.getX b
    let ws := s.wordsAt flat 8; let mb := (ws[7]?).getD 0
    (d.toNat % 32 ≠ 0 → Traps s (exec (.job a b) s) 0x03 d) ∧
    (d.toNat % 32 = 0 → tcmOrScratch s.cur d.toNat 32 = some flat → s.hasBad flat 32 = false → mb.toNat % 4 = 0 →
      tcmOrScratch s.cur mb.toNat 4 = some mflat → s.managedAt s.cur mb.toNat = false → isHart s.cur = false →
      (s.unit.jobs.length < 32 → (s.unit.jobs.filter (fun j => j.ctx = s.cur)).length < 8 → s.released s.cur = true →
        Memory.wf s.mem = true → ∃ t, exec (.job a b) s = .next t ∧
          t.unit.jobs = s.unit.jobs ++ [⟨s.unit.jobCounter, s.cur, ws, s.ctx.windows, [], [], false⟩] ∧
          t.unit.jobCounter = s.unit.jobCounter + 1 ∧ t.wordAt mflat = 0 ∧
          t.ctx = (((s.ctx.advance s.groupBytes).ready).setX a (s.unit.jobCounter.setWidth 32)).setT true ∧
          ∀ n, n < mflat ∨ mflat + 4 ≤ n → t.byteAt n = s.byteAt n) ∧
      (32 ≤ s.unit.jobs.length ∨ 8 ≤ (s.unit.jobs.filter (fun j => j.ctx = s.cur)).length →
        Gives (s.correct flat 32) (exec (.job a b) s) (·.setT false))) ∧
    (s.ctx.wait = .job d false → GivesCtx s (exec (.waitj b) s) s.ctx) ∧
    (d.toNat % 4 = 0 → tcmOrScratch s.cur d.toNat 4 = some flat → s.hasBad flat 4 = false →
      Gives (s.correct flat 4) (exec (.pollj b) s) (·.setT ((s.wordAt flat).getLsbD 31)) ∧
      (s.ctx.wait ≠ .job d false →
        let mine := ∃ j ∈ s.jobsOf s.cur, j.ctx = s.cur ∧ (j.words[7]?).getD 0 = d
        (s.ctx.wait = .job d true ∨ (s.wordAt flat).getLsbD 31 = true → Gives (s.correct flat 4) (exec (.waitj b) s) (·.setT true)) ∧
        (s.ctx.wait ≠ .job d true → (s.wordAt flat).getLsbD 31 = false →
          (¬mine → Gives (s.correct flat 4) (exec (.waitj b) s) (·.setT false)) ∧
          (mine → GivesCtx (s.correct flat 4) (exec (.waitj b) s) { s.ctx with wait := .job d false })))) ∧
    (∀ st c j rest, let u := AgentId.core st c 0 0; let v := s.orderFor (.copyUnit st c)
      ((v.unitOf u).jobs = j :: rest → j.started = false → v.mayStart j.ctx = true → (∀ k ∈ rest, k.id ≠ j.id) →
        (rest.filter (·.started)).length < 4 → ∃ t, exec (.jobStart (.copyUnit st c)) s = .next t ∧
          (t.unitOf u).jobs = { j with started := true } :: rest ∧ t.mem = v.mem) ∧
      ((v.unitOf u).jobs = [j] → j.started = true → v.mayStart j.ctx = true → tcmOrScratch j.ctx (j.word 7) 4 = some mflat →
        Memory.wf v.mem = true →
        let ten := v.tenantOf j.ctx
        let faults (reason : Nat) : Prop := ∃ t, exec (.jobEnd (.copyUnit st c) j.id) s = .next t ∧ (t.unitOf u).jobs = [] ∧
          t.wordAt mflat = BitVec.ofNat 32 (0x90000000 + reason * 2 ^ 24 + j.id.toNat) ∧ j.id ∈ (t.ctxOf j.ctx).jobFaults ∧
          ∀ n, n < mflat ∨ mflat + 4 ≤ n → t.byteAt n = v.byteAt n
        let perm (w : Bool) : Perm := if w then .store else .load
        let home (w : Bool) (ea st sl o : Nat) : Prop := homeOf j.windows ea (perm w) = some (st, sl, o) ∧ v.sliceTenant st sl o = some ten
        let nowhere (w : Bool) (ea : Nat) : Prop := (∃ o b, place j.ctx ea = .event o ∨ place j.ctx ea = .aperture o ∨ place j.ctx ea = .port b) ∨
          place j.ctx ea = .unmapped ∨ (place j.ctx ea = .shared ∧ ∀ st sl o, ¬home w ea st sl o)
        let managed (ea : Nat) : Prop := (∃ o, place j.ctx ea = .ownTcm o ∧ v.hwManaged j.ctx o = true) ∨
          (∃ st c k o, place j.ctx ea = .peer st c k o ∧ v.hwManaged (.core st c k 0) o = true)
        let absent (ea : Nat) : Prop := ∃ st c k o, place j.ctx ea = .peer st c k o ∧ v.present j.ctx st c k = false
        let holds (w : Bool) (ea n : Nat) : Prop := (w = true → ¬managed ea) ∧
          ((∃ o, place j.ctx ea = .ownTcm o ∧ n = ownTcmAt j.ctx o) ∨ place j.ctx ea = .scratch n ∨ place j.ctx ea = .matrix n ∨
            (∃ st c k o, place j.ctx ea = .peer st c k o ∧ v.present j.ctx st c k = true ∧ n = tcmAt st c k o) ∨
            (∃ st sl o, place j.ctx ea = .shared ∧ home w ea st sl o ∧ n = sliceAt st sl o))
        let unmapped (va : Nat) (w : Bool) (r : Nat) : Prop := (v.hartOf (homeMemoryCore va)).cached ten va = none ∧
          ((lookup? v.partitions ten = none ∧ r = 4) ∨ ∃ p, lookup? v.partitions ten = some p ∧
            ((∃ e, v.walk p.root va = .error e ∧ r = if e = 4 then 6 else 4) ∨
              ∃ row perms, v.walk p.root va = .ok (row, perms) ∧ perms / (if w then 2 else 1) % 2 = 0 ∧ r = 4))
        let byte (base stride : Nat) (dram : Bool) (r i : Nat) : Nat :=
          (((base : Int) + r * (BitVec.ofNat 32 stride).toInt + i).emod (if dram then 2 ^ 48 else 2 ^ 32)).toNat
        (j.wellFormed = false → faults 1) ∧
        (j.wellFormed = true → j.done = [] → j.parts = [] →
          (j.srcDram = false → (nowhere false j.src → faults 2) ∧ (absent j.src → faults 5) ∧
            (∀ n, holds false j.src n → v.hasBad n 4 = true → faults 6)) ∧
          (j.srcDram = true → ∀ r, unmapped j.src false r → faults r) ∧
          ∀ src dst : Nat → Nat → Nat,
            let lies (w dram : Bool) (A n : Nat) : Prop :=
              if dram then ∃ p row perms, lookup? v.partitions ten = some p ∧ v.walk p.root A = .ok (row, perms) ∧
                perms / (if w then 2 else 1) % 2 = 1 ∧ (∀ x, (v.hartOf (homeMemoryCore A)).cached ten A = some x → x = (row, perms)) ∧
                n = vaAt A row ∧ ∀ e ∈ v.walkReads p.root A, ∀ r i, r < j.rows → i < j.len → dst r i < e ∨ e + 8 ≤ dst r i
              else ∃ f, holds w (A / 4 * 4) f ∧ n = f + A % 4
            v.eccBad = [] → v.eccOne = [] →
            (∀ r i, r < j.rows → i < j.len → lies false j.srcDram (byte j.src (j.word 5) j.srcDram r i) (src r i)) →
            (j.dstDram = false → (nowhere true j.dst ∨ managed j.dst → faults 3) ∧ (absent j.dst → ¬managed j.dst → faults 5)) ∧
            (j.dstDram = true → ∀ r, unmapped j.dst true r → faults r) ∧
            ((∀ r i, r < j.rows → i < j.len → lies true j.dstDram (byte j.dst (j.word 6) j.dstDram r i) (dst r i)) →
              (∀ r i r' i', r < j.rows → i < j.len → r' < j.rows → i' < j.len →
                dst r i ≠ src r' i' ∧ (dst r i = dst r' i' → r = r' ∧ i = i') ∧ (dst r i < mflat ∨ mflat + 4 ≤ dst r i)) →
              ∃ t, exec (.jobEnd (.copyUnit st c) j.id) s = .next t ∧ (t.unitOf u).jobs = [] ∧
                (∀ r i, r < j.rows → i < j.len → t.byteAt (dst r i) = v.byteAt (src r i)) ∧
                t.wordAt mflat = BitVec.ofNat 32 (0x80000000 + j.id.toNat) ∧ (t.ctxOf j.ctx).jobFaults = (v.ctxOf j.ctx).jobFaults ∧
                ∀ n, (n < mflat ∨ mflat + 4 ≤ n) → (∀ r i, r < j.rows → i < j.len → n ≠ dst r i) → t.byteAt n = v.byteAt n))))

/-- LINE_FILL of a context at a group boundary with no trap due, whose next group needs an absent line, starts its fill and makes it wait. FILL_ARRIVAL of a fill whose page translates brings the 64 bytes there as 32 words into the cache and ends the fill. SCHEDULE_SLIP of a context whose group extends into the next block, which the cache holds, counts one slip. TRANSLATION_REQUEST of a memory core starts the translation; TRANSLATION_DONE writes the aperture address, or the reason, and frees the port; a page of another channel gives 3, before any other reason, and TENANT is looked at as it then stands (notes/assumptions 46). TRAP_DELIVERY takes a due job fault, lowest identifier first. -/
def Obligations.FetchAndTranslationEvents : Prop :=
  ∀ (s : State) (st c k x : Nat), let ag := AgentId.core st c k x
    let q := s.ctxOf ag
    let block : BitVec 48 := BitVec.ofNat 48 (q.pc.toNat / 16 * 16)
    let line := q.pc.toNat / 64
    (s.atBoundary ag = true → s.due ag = .none → q.lact = false →
      (q.inIssue = [] → q.fetchBuf = [] → (∀ l ∈ (s.unitOf ag).lines, ¬(l.tenant = q.tenant ∧ l.addr = line)) → (s.unitOf ag).fills = [] →
        ∃ t, exec (.lineFill ag) s = .next t ∧ (t.ctxOf ag).wait = .fill ∧ (t.unitOf ag).fills = [⟨q.tenant, line, false⟩] ∧
          (t.ctxOf ag).x = q.x ∧ (t.ctxOf ag).pc = q.pc ∧ t.mem = s.mem) ∧
      (∀ ws l, q.fetchBuf = [(block, ws)] → groupLength (ws.drop (q.pc.toNat % 16 / 2)) = none → q.missed = false → q.inIssue = [] →
        (s.unitOf ag).line? q.tenant ((nextBlock block).toNat / 64) = some l → l.bad = [] → nextBlock block ≠ block →
        ∃ t, exec (.scheduleSlip ag) s = .next t ∧ (t.ctxOf ag).slips = q.slips + 1 ∧ (t.ctxOf ag).x = q.x ∧ (t.ctxOf ag).pc = q.pc ∧
          t.mem = s.mem)) ∧
    (∀ (ten line row : Nat), (s.unitOf ag).fills = [⟨ten, line, false⟩] → line < 2 ^ 42 → s.eccBad = [] → s.eccOne = [] →
      (s.translate (homeMemoryCore (line * 64)) ten (line * 64) .fetch).2 = .ok row →
      ∃ t, exec (.fillArrival ag ten (BitVec.ofNat 48 (line * 64))) s = .next t ∧ (t.unitOf ag).fills = [] ∧ t.mem = s.mem ∧
        ((t.unitOf ag).line? ten line).map Line.words = some (wordsOfBytes (s.bytesAt (vaAt (line * 64) row) 64))) ∧
    (∀ write va, s.cur = .memoryCore st c → s.ctx.prv = true →
      ∃ t, exec (.translationRequest write va) s = .next t ∧ t.ctx.port = s.ctx.port.filter (fun p => p.1 ≠ write) ++ [(write, va)] ∧ t.mem = s.mem) ∧
    (∀ write va, let m := AgentId.memoryCore st c
      (s.ctxOf m).port = [(write, va)] →
      (homeMemoryCore va.toNat ≠ m → ∃ t, exec (.translationDone m) s = .next t ∧ (t.ctxOf m).port = [] ∧
        (t.ctxOf m).portResult[if write then 1 else 0]! = 3 ∧ t.mem = s.mem) ∧
      (∀ row, homeMemoryCore va.toNat = m →
        (s.translate m (s.hartOf m).tenant.toNat va.toNat (if write then .write else .read)).2 = .ok row →
        ∃ t, exec (.translationDone m) s = .next t ∧ (t.ctxOf m).port = [] ∧ t.mem = s.mem ∧
          (t.ctxOf m).portResult[if write then 1 else 0]! = BitVec.ofNat 32 (0xC0000000 + row * 2 ^ 21 + va.toNat % 2 ^ 21))) ∧
    (∀ j rest, s.atBoundary ag = true → s.due ag = .jobFault j → q.jobFaults = j :: rest → q.halted = false → q.vloop = none →
      ∃ t, exec (.trapDelivery ag) s = .next t ∧ (t.ctxOf ag).jobFaults = rest ∧ (t.ctxOf ag).tval = j.setWidth 32 ∧
        (t.ctxOf ag).cause = 0x1050 ∧ (t.ctxOf ag).epc = q.pc.extractLsb' 0 32)

/-- ALOAD of an aligned image that passes the checks fills a free slot (which one is the model's choice, log 15), writes its handle to x[a] and sets T; a failing check writes its number and clears T, and so does a full store (8). ALAHEAD writes the look-aheads and the reservation; AFREE frees an unused slot; a handle of no automaton clears T alone. SUNBIND unbinds; SBIND binds an OPEN register; SBINDA binds a generator over eight words that obey their table. SRD and SRDF read the generator's next address or the endpoint's next 4 bytes; SWR and SWRF store there; the generator moves on by one position. RAUCFG configures bins and reads the status. VKSEND sends one contribution to each destination; CONTRIBUTION_APPLY adds an element to its bin. The model's choices: a kernel SWR into a hardware-managed range is performed (log 34, of 12 R361), and RAUCFG waits for a contribution in the midst of its elements to be applied (log 4), so a premise rules that case out. -/
def Obligations.AutomatonStoreAndStreams : Prop :=
  ∀ (s : State) (a b : XReg) (f : FReg) (r : SReg) (e : EReg), s.eccBad = [] → s.eccOne = [] → let d := s.ctx.getX b; let h := s.unit.slots
    (∀ flat n ws, d.toNat % 4 = 0 → tcmOrScratch s.cur d.toNat 8 = some flat → headOk (s.wordAt flat).toNat (s.wordAt (flat + 4)).toNat = true →
      n = 2 + headNstate (s.wordAt flat).toNat + headNedge (s.wordAt flat).toNat → tcmOrScratch s.cur d.toNat (4 * n) = some flat →
      1 ≤ headNedge (s.wordAt flat).toNat → headNedge (s.wordAt flat).toNat ≤ 64 → ws = s.wordsAt flat n →
      (∀ k, checkAuto ws = .error k → Gives s (exec (.aload a b) s) (fun c => (c.setX a (BitVec.ofNat 32 k)).setT false)) ∧
      (∀ auto, checkAuto ws = .ok auto →
        (s.freeSlot s.cur = none → Gives s (exec (.aload a b) s) (fun c => (c.setX a 8).setT false)) ∧
        (∀ slot, s.freeSlot s.cur = some slot → lookup? h slot = none ∧ ∃ t, exec (.aload a b) s = .next t ∧ t.mem = s.mem ∧
          t.ctx = (((s.ctx.advance s.groupBytes).ready).setX a (BitVec.ofNat 32 (s.unit.loadSeq.toNat * 2 ^ 16 + slot))).setT true ∧
          lookup? t.unit.slots slot = some ⟨s.unit.loadSeq, s.tenantOf s.cur, auto, false, s.ctx.origin.queue?⟩ ∧ t.unit.loadSeq = s.unit.loadSeq + 1 ∧
          ∀ m, m ≠ slot → lookup? t.unit.slots m = lookup? h m))) ∧
    (d.toNat % 4 ≠ 0 → Traps s (exec (.aload a b) s) 0x03 d ∧ Traps s (exec (.sbinda r b) s) 0x03 d) ∧
    (s.handle? s.cur d = none → Gives s (exec (.alahead a b) s) (·.setT false) ∧ Gives s (exec (.afree b) s) (·.setT false)) ∧
    (∀ n x, lookup? h n = some x → x.installed = false → n < 64 → d = BitVec.ofNat 32 (x.seqNo.toNat * 2 ^ 16 + n) →
      Gives s (exec (.alahead a b) s) (fun c =>
        (c.setX a (BitVec.ofNat 32 (x.auto.outLook * 2 ^ 24 + x.auto.inLook * 2 ^ 16 + x.auto.resv / 32))).setT true) ∧
      (s.slotUsed s.cur n = true → Gives s (exec (.afree b) s) (·.setT false)) ∧
      (s.slotUsed s.cur n = false → ∃ t, exec (.afree b) s = .next t ∧ t.ctx = ((s.ctx.advance s.groupBytes).ready).setT true ∧
        t.unit.slots = erase h n ∧ t.mem = s.mem)) ∧
    Gives s (exec (.sunbind r) s) (·.setStream r .unbound) ∧
    ((s.ctx.ep e).st = .opened → Gives s (exec (.sbind r e) s) (·.setStream r (.endpoint e))) ∧
    ((s.ctx.ep e).st = .none → Traps s (exec (.sbind r e) s) 0x14 (e.setWidth 32)) ∧
    (∀ flat, d.toNat % 4 = 0 → tcmOrScratch s.cur d.toNat 32 = some flat → let ws := s.wordsAt flat 8
      ((∀ n < 8, affineWordOk n ((ws[n]?).getD 0) = true) →
        Gives s (exec (.sbinda r b) s) (·.setStream r (.affine ⟨ws, 0, 0, 0, 0, false⟩))) ∧
      (∀ n < 8, affineWordOk n ((ws[n]?).getD 0) = false → (∀ m < n, affineWordOk m ((ws[m]?).getD 0) = true) →
        Traps s (exec (.sbinda r b) s) 0x04 (d + BitVec.ofNat 32 (4 * n)))) ∧
    (s.ctx.stream r = .unbound → Traps s (exec (.srd a r) s) 0x04 (r.setWidth 32) ∧ Traps s (exec (.swr a r) s) 0x05 (r.setWidth 32)) ∧
    (∀ g : Affine, s.ctx.stream r = .affine g → g.exhausted = false → (tcmOrScratch s.cur g.addr.toNat 4).isSome = true →
      (∀ b0 b1 b2 b3 u, g.writes = false → LoadAnswers s g.addr 4 [b0, b1, b2, b3] u →
        Gives u (exec (.srd a r) s) (fun c => (c.setStream r (.affine g.next)).setX a (b3 ++ b2 ++ b1 ++ b0)) ∧
        Gives u (exec (.srdf f r) s) (fun c => (c.setStream r (.affine g.next)).setF f (b3 ++ b2 ++ b1 ++ b0))) ∧
      (∀ flat own, g.writes = true → StoreGoes s g.addr 4 flat own → Memory.wf s.mem = true →
        StoresBytes s (exec (.swr a r) s) flat 4 ((s.ctx.getX a).setWidth 64) (·.setStream r (.affine g.next)) ∧
        StoresBytes s (exec (.swrf f r) s) flat 4 ((s.ctx.getF f).setWidth 64) (·.setStream r (.affine g.next)))) ∧
    (∀ g : Affine, let pos (g : Affine) := g.i0 + g.count 0 * (g.i1 + g.count 1 * (g.i2 + g.count 2 * g.i3))
      g.i0 < g.count 0 → g.i1 < g.count 1 → g.i2 < g.count 2 → g.i3 < g.count 3 → g.exhausted = false →
        if pos g + 1 = g.count 0 * g.count 1 * g.count 2 * g.count 3 then g.next.exhausted = true
        else g.next.exhausted = false ∧ pos g.next = pos g + 1 ∧ g.next.words = g.words) ∧
    (∀ m rest, let x := s.ctx.ep e
      s.ctx.stream r = .endpoint e → x.st = .opened → x.inbox = m :: rest →
      (∀ j, x.readPos = 0 → x.fit (fun d => d.kind = Kind.recv) = some j → 4 < m.payload.length →
        Gives s (exec (.srd a r) s) (fun c => (c.setEp e { x.advance j with readPos := 4 }).setX a (wordOfBytes (m.payload.take 4))) ∧
        Gives s (exec (.srdf f r) s) (fun c => (c.setEp e { x.advance j with readPos := 4 }).setF f (wordOfBytes (m.payload.take 4)))) ∧
      (x.readPos ≠ 0 → m.payload.length ≤ x.readPos + 4 →
        Gives s (exec (.srd a r) s) (fun c => (c.setEp e { x with inbox := rest, readPos := 0, freed := x.freed + 1 }).setX a
          (wordOfBytes ((m.payload.drop x.readPos).take 4))))) ∧
    (let base := d.toNat % 2 ^ 18; let kind := d.toNat / 2 ^ 30; let log2 := d.toNat / 2 ^ 26 % 16
      let status := BitVec.ofNat 32 (bit s.ctx.rau.sat * 2 ^ 31 + bit s.ctx.rau.drop * 2 ^ 30 + bit s.ctx.rau.fovf * 2 ^ 29 +
        s.ctx.rau.contribs * 2 ^ 18 + s.ctx.rau.elems);
      (d.toNat / 2 ^ 18 % 256 ≠ 0 → Traps s (exec (.raucfg a b) s) 0x05 (BitVec.ofNat 32 (0x00100000 + base))) ∧
      (d.toNat / 2 ^ 18 % 256 = 0 → kind = 3 → Gives s (exec (.raucfg a b) s) (·.setX a status)) ∧
      (d.toNat / 2 ^ 18 % 256 = 0 → kind ≠ 3 → s.mesh.any (Mesh.begunAt s.cur) = false → (kind ≠ 0 → base % 4 = 0 ∧ base + 4 * 2 ^ log2 ≤ 0x40000 ∧ isHart s.cur = false) →
        Gives s (exec (.raucfg a b) s) (fun c => { c with
          rau := ⟨BitVec.ofNat 2 kind, BitVec.ofNat 4 log2, BitVec.ofNat 18 base, false, false, false, 0, 0⟩ }.setX a status))) ∧
    (∀ (v w : VReg) flat log2n, let x := s.ctx.ep e; let ws := s.wordsAt flat (2 ^ log2n + 1)
      x.st = .kr → isHart s.cur = false → log2n ≤ 8 → s.wordAt flat = BitVec.ofNat 32 (7 * 2 ^ 24 + log2n) →
      tcmOrScratch s.cur (x.rtab.toNat * 256) 4 = some flat → tcmOrScratch s.cur (x.rtab.toNat * 256) (4 * (2 ^ log2n + 1)) = some flat →
      (∀ n ∈ ws.tail, n.toNat % 4096 = 0) → s.ctx.count ≠ 0 → s.seqBusy s.cur = false → s.released s.cur = true →
      ∃ t, exec (.vksend e v w) s = .next t ∧ t.ctx.t = true ∧ t.ctx.contribsOut = s.ctx.contribsOut + 2 ^ log2n ∧ t.mem = s.mem ∧
        t.mesh = s.mesh ++ (List.range (2 ^ log2n)).map (fun n => Mesh.contribution s.cur e ((ws[n + 1]?).getD 0) (s.tenantOf s.cur)
          (((List.range s.ctx.vl).map (fun i => (s.lane s.cur v i, s.lane s.cur w i))).filter
            (fun p => (p.1 * 0x9E3779B9).toNat / 2 ^ (32 - log2n) = n)) s.ctx.innermost false)) ∧
    (∀ n src dst tenant (key v : Word) dom begun st c k y, let ag := AgentId.core st c k y; let u := (s.ctxOf ag).rau
      let flat := scratchAt st c (u.base.toNat + 4 * (key.toNat % 2 ^ u.log2bins.toNat))
      s.arrives n = some (.contribution src e dst tenant [(key, v)] dom begun) → agentOfName dst = some ag → Memory.wf s.mem = true →
      ((s.ctxOf ag).phase ≠ .live → (s.ctxOf src).eps[e.toNat].st = .kr → ∃ t, exec (.contributionApply n) s = .next t ∧
        t.mem = s.mem ∧ ((t.ctxOf src).ep e).lost = true ∧ t.mesh = s.mesh.eraseIdx n) ∧
      ((s.ctxOf ag).phase = .live → s.tenantOf ag = tenant →
        (u.kind = 1 → ∃ t, exec (.contributionApply n) s = .next t ∧ t.mesh = s.mesh.eraseIdx n ∧
          t.wordAt flat = BitVec.ofInt 32 (max (-2 ^ 31) (min (2 ^ 31 - 1) ((s.wordAt flat).toInt + v.toInt))) ∧
          ∀ q, q < flat ∨ flat + 4 ≤ q → t.byteAt q = s.byteAt q) ∧
        (u.kind = 2 → ∃ t, exec (.contributionApply n) s = .next t ∧ t.wordAt flat = (addF 0 (s.wordAt flat) v).1 ∧
          ∀ q, q < flat ∨ flat + 4 ≤ q → t.byteAt q = s.byteAt q)))

/-- ESTAT writes the status word: register state, CM, cause of a closed end, REASON, the peer's tenant, LOST of a key-routed register, channel state and counter. EPNAME writes the name. EPSET sets CM and CC, makes a NONE register key-routed when bit 1 is set, and EPMOD the peer's module at NONE or CLOSED. CLOSE returns a register to NONE with the next generation, and tells the peer of an OPEN channel not at END. CONNECT at a NONE register with a live handle, room (else reason 1) and a reachable module (else 3) sends a request and waits; when success has arrived it completes with T 1; a reason gives T 0, a duality failure traps. ACCEPT waits likewise; a bad handle gives T 0 with reason 8. At a WAITING register the group that waits there waits on, and any other has reason 2; CLOSE of one withdraws its request. The model's choices: EPSET that makes a register key-routed answers a request held there with reason 2 and keeps an outcome not yet reported (log 33); CONNECT over a port that is down gives reason 3 (log 42). -/
def Obligations.ChannelRegisters : Prop :=
  ∀ (s : State) (a b c : XReg) (e : EReg), let x := s.ctx.ep e; let w := s.ctx.getX b; let xc := s.ctx.getX c
    let out (mod : BitVec 9) (port : Option Nat) (m : Mesh) : Mesh := if mod = s.modnum then m else .away mod port m
    let modes := bit x.cm * 2 ^ 27 + x.reason * 2 ^ 20
    (x.st = .none → Gives s (exec (.estat a e) s) (·.setX a (BitVec.ofNat 32 modes))) ∧
    (x.st = .waiting → Gives s (exec (.estat a e) s) (·.setX a (BitVec.ofNat 32 (1 * 2 ^ 28 + modes)))) ∧
    (x.st = .opened → Gives s (exec (.estat a e) s) (·.setX a (BitVec.ofNat 32
      (2 * 2 ^ 28 + modes + x.peerTen * 2 ^ 14 + x.state * 2 ^ 8 + (if x.auto.hc x.state then (x.ctrs[x.state]?).getD 0 else 0))))) ∧
    (x.st = .closed → Gives s (exec (.estat a e) s) (·.setX a (BitVec.ofNat 32
      (3 * 2 ^ 28 + modes + x.closedAt.1 * 2 ^ 24 + x.peerTen * 2 ^ 14 + x.closedAt.2.1 * 2 ^ 8 + x.closedAt.2.2)))) ∧
    (x.st = .delegated → Gives s (exec (.estat a e) s) (·.setX a (BitVec.ofNat 32 (4 * 2 ^ 28 + modes)))) ∧
    (x.st = .kr → Gives s (exec (.estat a e) s) (·.setX a (BitVec.ofNat 32 (5 * 2 ^ 28 + modes + bit x.lost * 2 ^ 13)))) ∧
    (∀ st k q y, s.cur = .core st k q y → Gives s (exec (.epname a e) s) (·.setX a
      (BitVec.ofNat 32 (st * 2 ^ 28 + k * 2 ^ 17 + q * 2 ^ 14 + y * 2 ^ 12 + e.toNat * 2 ^ 8 + x.gen.toNat)))) ∧
    (let cc := if (w.toNat / 16 % 8) ∈ [0, 2, 6] then w.toNat / 16 % 8 else x.cc;
      (x.st = .none → w.getLsbD 1 = false → Gives s (exec (.epset e b) s) (·.setEp e { x with cm := w.getLsbD 0, cc := cc, lost := false })) ∧
      (x.st = .none ∨ x.st = .kr → w.getLsbD 1 = true → x.held = none → Gives s (exec (.epset e b) s) (·.setEp e { x with
        cm := w.getLsbD 0, cc := cc, lost := false, st := .kr, rtab := w.extractLsb' 8 24 })) ∧
      (∀ r, x.st = .none → w.getLsbD 1 = true → x.held = some r → ∃ t, exec (.epset e b) s = .next t ∧ t.mem = s.mem ∧
        t.mesh = s.mesh ++ [out r.srcMod (s.routePort r.tenant r.srcMod) (.outcome r.src r.dst s.modnum 0 0 (.reason 2))] ∧
        t.ctx = ((s.ctx.advance s.groupBytes).ready).setEp e { x with
          cm := w.getLsbD 0, cc := cc, lost := false, st := .kr, rtab := w.extractLsb' 8 24, held := none }) ∧
      (x.st = .kr → w.getLsbD 1 = false → Gives s (exec (.epset e b) s) (·.setEp e { Ep.reset with
        cm := w.getLsbD 0, cc := cc, pmod := x.pmod, gen := x.gen + 1, reason := x.reason, pend := x.pend })) ∧
      (x.st = .waiting ∨ x.st = .opened ∨ x.st = .closed ∨ x.st = .delegated →
        Gives s (exec (.epset e b) s) (·.setEp e { x with cm := w.getLsbD 0, cc := cc, lost := false }))) ∧
    (x.st = .none ∨ x.st = .closed → Gives s (exec (.epmod e b) s) (·.setEp e { x with pmod := w.extractLsb' 0 9 })) ∧
    (x.st ≠ .none → x.st ≠ .closed → Gives s (exec (.epmod e b) s) id) ∧
    (x.st = .none → Gives s (exec (.close e) s) (·.setEp e { x with pend := none })) ∧
    (x.st = .delegated ∨ x.st = .kr ∨ x.st = .closed → x.held = none → x.inbox = [] → x.direct = [] → x.deferred = [] →
      (∀ n h, x.slot = some n → lookup? s.unit.slots n = some h → h.installed = false) → Gives s (exec (.close e) s) (·.setEp e { Ep.reset with
        cm := x.cm, cc := x.cc, pmod := x.pmod, gen := x.gen + 1, reason := x.reason })) ∧
    (∀ con dst h, x.st = .waiting → x.asking = some (con, dst, h) → x.held = none →
      (∀ n h, x.slot = some n → lookup? s.unit.slots n = some h → h.installed = false) →
      ∃ t, exec (.close e) s = .next t ∧ t.mem = s.mem ∧
        t.ctx = ((s.ctx.advance s.groupBytes).ready).setEp e { Ep.reset with
          cm := x.cm, cc := x.cc, pmod := x.pmod, gen := x.gen + 1, reason := x.reason } ∧
        t.mesh = s.mesh ++ (if con then [out x.pmod x.port (.withdraw (s.nameOf s.cur e) dst)] else [])) ∧
    (x.st = .opened → x.held = none → x.inbox = [] → x.direct = [] → x.deferred = [] → ∃ t, exec (.close e) s = .next t ∧ t.mem = s.mem ∧
      (t.ctx.ep e).st = .none ∧ (t.ctx.ep e).gen = x.gen + 1 ∧ (t.ctx.ep e).cm = x.cm ∧ (∀ q, q ≠ e → t.ctx.ep q = s.ctx.ep q) ∧
      t.mesh = if x.atEnd then s.mesh else s.mesh ++ [out x.peerMod x.port (.close (s.nameOf s.cur e) x.peer (if x.cc = 0 then 6 else x.cc)
        (some x.state) (if x.auto.hc x.state then (x.ctrs[x.state]?).getD 0 else 0) false)]) ∧
    ((clusterField s.cur).isSome = true → ∀ con : Bool, let i := if con then Instr.connect e b c else .accept e b c
      (x.st = .waiting → x.asking = some (con, w, xc) → GivesCtx s (exec i s) { s.ctx with wait := .endpoint }) ∧
      (x.st = .waiting → x.asking ≠ some (con, w, xc) → x.pend = none →
        Gives s (exec i s) (fun k => (k.setEp e { x with reason := 2 }).setT false))) ∧
    (x.st ≠ .waiting → (clusterField s.cur).isSome = true → ∀ i ∈ [Instr.connect e b c, .accept e b c],
      (x.pend = some .success → Gives s (exec i s) (fun k => (k.setEp e { x with pend := none }).setT true)) ∧
      (∀ n, x.pend = some (.reason n) → Gives s (exec i s) (fun k => (k.setEp e { x with pend := none, reason := n }).setT false)) ∧
      (∀ v, x.pend = some (.dual v) → Traps (s.updEp s.cur e (fun y => { y with pend := none })) (exec i s) 0x11 v) ∧
      (x.pend = none → x.st ≠ .none → Gives s (exec i s) (fun k => (k.setEp e { x with reason := 2 }).setT false)) ∧
      (x.pend = none → x.st = .none → s.handle? s.cur xc = none →
        Gives s (exec i s) (fun k => (k.setEp e { x with reason := 8 }).setT false))) ∧
    (∀ slot auto, x.st = .none → x.pend = none → (clusterField s.cur).isSome = true → s.handle? s.cur xc = some (slot, auto) →
      (∀ res, s.reaches s.cur x.pmod = true → s.ctx.allocate auto.resv = some res → x.held = none →
        ∃ t, exec (.connect e b c) s = .next t ∧ t.ctx.wait = .endpoint ∧ t.ctx.pc = s.ctx.pc ∧
          t.ctx.ep e = { x with
            st := .waiting, asking := some (true, w, xc), slot := some slot, auto := auto, res := some res,
            port := s.routePort (s.tenantOf s.cur) x.pmod } ∧
          t.mesh = s.mesh ++ [out x.pmod (s.routePort (s.tenantOf s.cur) x.pmod) (.request ⟨s.nameOf s.cur e, s.modnum, w, s.tenantOf s.cur, auto⟩)]) ∧
      (s.ctx.allocate auto.resv = none → Gives s (exec (.connect e b c) s) (fun k => (k.setEp e { x with reason := 1 }).setT false)) ∧
      (s.ctx.allocate auto.resv ≠ none → s.reaches s.cur x.pmod = false → Gives s (exec (.connect e b c) s) (fun k => (k.setEp e { x with reason := 3 }).setT false)) ∧
      (x.held = none → ∃ t, exec (.accept e b c) s = .next t ∧ t.ctx.wait = .endpoint ∧ t.mesh = s.mesh ∧
        t.ctx.ep e = { x with st := .waiting, asking := some (false, w, xc), slot := some slot, auto := auto }))

/-- With a fitting enabled edge, credit left and the earlier accesses of the context done, a send puts a message with its tag or label, shape, payload (bytes of memory, of vector elements, of x[b]) and freed slots in the mesh, takes the edge, counts the slot and sets T; without credit it waits. A receive of the oldest message takes the edge, frees the slot, writes the payload and sets T; without a message it waits. OFFER takes the edge of the label that came. DSEND leaves a stub and a DELEGATED register and sends the end's image; DRECV installs it in a free register and tells the peer and the stub. A register that is not OPEN raises EP_STALE or EP_DELEGATED, a closed channel ends as CM selects, no fitting edge raises PROTO_MISMATCH. The model's choices: the credit of freed slots goes before DSEND's message, an end keeps its peer's former names, and a register that DRECV fills keeps an outcome not yet reported (log 33); a payload longer than a word may be read or written word by word, by a free draw, and the group then completes with the words read before and the rest (log 4, of 17 R464). -/
def Obligations.ChannelOperations : Prop :=
  ∀ (s : State) (a b : XReg) (imm : Imm) (v : VReg) (e g : EReg) (l : BitVec 6), s.eccBad = [] → s.eccOne = [] → let x := s.ctx.ep e
    let ea := s.ctx.getX b + imm
    let out (mod : BitVec 9) (port : Option Nat) (m : Mesh) : Mesh := if mod = s.modnum then m else .away mod port m
    let moved (x : Ep) (j : Nat) : Ep := let d := x.auto.edge j
      let c := if d.cond = 2 then x.ctrs.set x.state (x.auto.init x.state) else x.ctrs
      { x with state := d.next, ctrs := if x.auto.hc d.next then c.set d.next (c.getD d.next 0 - 1) else c }
    let sent (x : Ep) (j : Nat) : Ep := { moved x j with sent := x.sent + 1, freed := 0 }
    let got (x : Ep) (j : Nat) : Ep := { moved x j with inbox := x.inbox.tail, freed := x.freed + 1 }
    let canSend := s.released s.cur = true ∧ x.sent < x.peerLook ∧ x.deferred = []
    let sends (i : Instr) (j : Nat) (m : Msg) : Prop :=
      (canSend → ∃ t, exec i s = .next t ∧ t.mem = s.mem ∧
        t.ctx = (((s.ctx.advance s.groupBytes).ready).setEp e (sent x j)).setT true ∧
        t.mesh = s.mesh ++ [out x.peerMod x.port (.msg (s.nameOf s.cur e) x.peer s.modnum (s.tenantOf s.cur) x.freed false m)]) ∧
      (s.released s.cur = true → x.peerLook ≤ x.sent → GivesCtx s (exec i s) { s.ctx with wait := .endpoint })
    let atOnce (n : Nat) : Prop := n ≤ 4 ∨ Config.choice s.draws % 2 = 0
    let begins (i : Instr) (flat n : Nat) (put : Option (List Byte)) : Prop :=
      GivesCtx s (exec i s) { s.ctx with pend := .payload flat n put [], wait := .load }
    let core := isHart s.cur = false ∧ s.ctx.count ≠ 0 ∧ s.seqBusy s.cur = false ∧ s.ctx.vl ≤ s.ctx.count
    (x.st = .opened →
      (∀ j, x.fit (fun d => d.kind = Kind.send) = some j → let d := x.auto.edge j; let n := shapeBytes d.shape
        (∀ flat, s.payloadAt ea n true = .ok flat →
          (s.openPayload = none → atOnce n ∨ ¬ canSend → sends (.send e b imm) j ⟨0, d.tag, d.shape, s.bytesAt flat n, none⟩) ∧
          (s.openPayload = none → ¬ atOnce n → canSend → begins (.send e b imm) flat n none) ∧
          (∀ f0 n0 put done, s.ctx.pend = .payload f0 n0 put done →
            sends (.send e b imm) j ⟨0, d.tag, d.shape, s.payloadBytes flat n done, none⟩)) ∧
        (core → n ≤ 4 * s.ctx.vl → ∃ p, p.length = n ∧ (∀ i < n, p[i]? = some (((s.ctx.getV v)[i / 4]!).extractLsb' (8 * (i % 4)) 8)) ∧
          sends (.sendv e v) j ⟨0, d.tag, d.shape, p, none⟩)) ∧
      (∀ j, x.fit (fun d => d.kind = Kind.send && shapeBytes d.shape ≤ 4) = some j → let d := x.auto.edge j
        sends (.sendx e b) j ⟨0, d.tag, d.shape, bytesOf (s.ctx.getX b).toNat (shapeBytes d.shape), none⟩) ∧
      (∀ j, x.fit (fun d => d.kind = Kind.select && d.label = l.toNat) = some j → sends (.select e l) j ⟨2, l.toNat, 0, [], none⟩) ∧
      (∀ j, e ≠ g → (s.ctx.ep g).st = .opened → x.fit (fun d => d.kind = Kind.dsend) = some j → canSend →
        s.unit.stubs.length < stubCount s.cur → (s.ctx.ep g).deferred = [] → let y := s.ctx.ep g; let name := s.nameOf s.cur g
        ∃ t, exec (.dsend e g) s = .next t ∧ t.ctx.t = true ∧ t.ctx.ep e = sent x j ∧ t.mem = s.mem ∧
          t.ctx.ep g = { y with st := .delegated, res := none, inbox := [], direct := [], moving := false, readPos := 0, freed := 0 } ∧
          t.unit.stubs = s.unit.stubs ++ [⟨name, s.tenantOf s.cur, y.peer, y.peerMod, y.port, y.state,
            if y.auto.hc y.state then (y.ctrs[y.state]?).getD 0 else 0, none, y.inbox.map (.msg 0), y.direct, y.moving⟩] ∧
          t.mesh = s.mesh ++ (if y.freed = 0 then [] else [out y.peerMod y.port (.credit name y.peer y.freed)]) ++
            [out x.peerMod x.port (.msg (s.nameOf s.cur e) x.peer s.modnum (s.tenantOf s.cur) x.freed false
              ⟨4, (x.auto.edge j).tag, 0, [], some ⟨y.auto, y.state, y.ctrs, y.gen, y.peer, y.peerMod, y.peerTen, y.peerLook, y.port, y.former,
                none, y.cm, y.cc, y.sent, y.readPos, name, s.modnum⟩⟩)]) ∧
      (∀ m rest, x.inbox = m :: rest → x.readPos = 0 →
        (∀ j flat, x.fit (fun d => d.kind = Kind.recv) = some j → let n := shapeBytes (x.auto.edge j).shape
          m.payload.length = n →
          (s.openPayload = none → s.payloadAt ea n false = .ok flat → ¬ atOnce n → begins (.recv e b imm) flat n (some m.payload)) ∧
          (∀ done, (s.openPayload = none ∧ s.payloadAt ea n false = .ok flat ∧ atOnce n ∧ done = []) ∨
              (∃ n0 put, s.ctx.pend = .payload flat n0 put done) → Memory.wf s.mem = true → ∃ t, exec (.recv e b imm) s = .next t ∧
            t.ctx = (((s.ctx.advance s.groupBytes).ready).setEp e (got x j)).setT true ∧
            ∀ q, t.byteAt q = if (flat ≤ q ∧ q < flat + n) ∧ lookup? done ((q - flat) / 4) = none then (m.payload[q - flat]?).getD 0
              else s.byteAt q) ∧
          (core → n ≤ 4 * s.ctx.vl → ∃ t, exec (.recvv e v) s = .next t ∧ t.ctx.t = true ∧ t.ctx.ep e = got x j ∧ t.ctx.x = s.ctx.x ∧
            t.mem = s.mem ∧ (∀ q, q ≠ v → t.ctx.getV q = s.ctx.getV q) ∧ ∀ i : Fin 64,
              (4 * i.val + 4 ≤ n → (t.ctx.getV v)[i] = wordOfBytes ((m.payload.drop (4 * i.val)).take 4)) ∧
              (n ≤ 4 * i.val → (t.ctx.getV v)[i] = (s.ctx.getV v)[i]))) ∧
        (∀ j, x.fit (fun d => d.kind = Kind.recv && shapeBytes d.shape ≤ 4) = some j →
          Gives s (exec (.recvx e b) s) (fun k => ((k.setEp e (got x j)).setX b (wordOfBytes m.payload)).setT true)) ∧
        (∀ j, (x.fit (fun d => d.kind = Kind.offer)).isSome = true → x.fit (fun d => d.kind = Kind.offer && d.label = m.tag) = some j →
          Gives s (exec (.offer a e) s) (fun k => ((k.setEp e (got x j)).setX a (BitVec.ofNat 32 m.tag)).setT true)) ∧
        (∀ j y, x.fit (fun d => d.kind = Kind.drecv) = some j → m.ep = some y →
          ((s.ctx.ep g).st ≠ .none → Gives s (exec (.drecv e g) s) (fun k => (k.setEp e { x with reason := 2 }).setT false)) ∧
          ((s.ctx.ep g).st = .none → s.freeSlot s.cur = none →
            Gives s (exec (.drecv e g) s) (fun k => (k.setEp e { x with reason := 7 }).setT false)) ∧
          ((s.ctx.ep g).st = .none → s.freeSlot s.cur ≠ none → s.ctx.allocate y.auto.resv = none →
            Gives s (exec (.drecv e g) s) (fun k => (k.setEp e { x with reason := 1 }).setT false)) ∧
          (∀ slot res, (s.ctx.ep g).st = .none → (s.ctx.ep g).held = none → s.freeSlot s.cur = some slot →
            s.ctx.allocate y.auto.resv = some res →
            let name := (epNameOf s.cur g y.gen).getD 0
            ∃ t, exec (.drecv e g) s = .next t ∧ t.ctx.t = true ∧ t.ctx.ep e = got x j ∧ t.mem = s.mem ∧
              (let z := t.ctx.ep g; z.st = (if y.closed = none then EpSt.opened else .closed) ∧ z.closedAt = y.closed.getD (0, 0, 0) ∧
                z.gen = y.gen ∧ z.state = y.state ∧ z.ctrs = y.ctrs ∧ z.peer = y.peer ∧ z.port = y.port ∧ z.auto = y.auto ∧
                z.res = some res ∧ z.slot = some slot ∧ z.pend = (s.ctx.ep g).pend ∧ z.moving = true) ∧
              t.mesh = s.mesh ++ (if y.closed = none then [out y.peerMod y.port (.moved name y.peer name s.modnum false)] else []) ++
                [out y.stubMod (s.routePort (s.tenantOf s.cur) y.stubMod) (.movedStub y.stub name s.modnum)]))) ∧
      (x.inbox = [] → x.readPos = 0 → (x.fit (fun d => d.kind = Kind.recv && shapeBytes d.shape ≤ 4)).isSome = true →
        GivesCtx s (exec (.recvx e b) s) { s.ctx with wait := .endpoint }) ∧
      (x.fit (fun d => d.kind = Kind.select && d.label = l.toNat) = none →
        Traps s (exec (.select e l) s) 0x10 (BitVec.ofNat 32 (x.state * 2 ^ 8 + e.toNat)))) ∧
    (∀ i ∈ [Instr.sendx e b, .recvx e b, .select e l, .offer a e],
      (x.st = .none ∨ x.st = .waiting ∨ x.st = .kr → Traps s (exec i s) 0x14 (e.setWidth 32)) ∧
      (x.st = .delegated → Traps s (exec i s) 0x13 (e.setWidth 32)) ∧
      (x.st = .closed → x.inbox = [] → x.cm = true → Gives s (exec i s) (fun k => (k.setEp e { x with reason := 6 }).setT false)) ∧
      (x.st = .closed → x.inbox = [] → x.cm = false →
        Traps s (exec i s) 0x12 (BitVec.ofNat 32 (x.closedAt.1 * 2 ^ 16 + x.closedAt.2.1 * 2 ^ 8 + e.toNat)))) ∧
    (ea.toNat % 4 ≠ 0 → Traps s (exec (.send e b imm) s) 0x03 ea ∧ (s.openPayload = none → Traps s (exec (.recv e b imm) s) 0x03 ea))

/-- A request that may reach its agent is held at a NONE register, meets a waiting ACCEPT with a dual automaton (which opens and answers success), or is refused with DENIED (4). A success opens the register that asked. A message joins the inbox and returns the freed slots it carries; its sender holds one for a switched-out peer; credit returns slots; CREDIT_FLIT sends freed slots back. A close notice closes the register at its cause, with the state and counter it carries, or the end's own where it carries none (a message of that end was dropped). MOVED changes the peer's name and sends RELEASE behind earlier messages; MOVED_AT_STUB gives a stub its target; the forwarded RELEASE settles a moved end. TEAM_RESIDENT sends every message that any register holds for an end of the resident team, in order and ahead of what the register has sent since, and nothing else; the registers keep what they hold for others. The model's readings (log 33): the deferred MOVED, the names that a peer had before it moved, and the order of resent messages. -/
def Obligations.ChannelTraffic : Prop :=
  ∀ (s : State) (n : Nat) (ag : AgentId) (e : EReg), let x := (s.ctxOf ag).ep e; let rest := s.mesh.eraseIdx n
    let out (mod : BitVec 9) (port : Option Nat) (m : Mesh) : Mesh := if mod = s.modnum then m else .away mod port m
    let here (dst : Word) : Prop := agentOfName dst = some ag ∧ dst.extractLsb' 8 4 = e ∧ x.gen = dst.extractLsb' 0 8
    (∀ r, s.arrives n = some (.request r) → agentOfName r.dst = some ag →
      (s.mayReach r.tenant ag = false → exec (.connectRequest n) s = .next { s with
        mesh := rest ++ [out r.srcMod (s.routePort r.tenant r.srcMod) (.outcome r.src r.dst s.modnum 0 0 (.reason 4))] }) ∧
      (here r.dst → s.mayReach r.tenant ag = true → (s.ctxOf ag).phase = .live → x.held = none →
        (x.st = .none → ∃ t, exec (.connectRequest n) s = .next t ∧ t.mesh = rest ∧ (t.ctxOf ag).ep e = { x with held := some r }) ∧
        (∀ filter h res, x.st = .waiting → x.asking = some (false, filter, h) → filter = 0xFFFFFFFF ∨ filter = r.src →
          dualFault x.auto r.auto = none → (s.ctxOf ag).allocate x.auto.resv = some res →
          ∃ t, exec (.connectRequest n) s = .next t ∧
            t.mesh = rest ++ [out r.srcMod (s.routePort r.tenant r.srcMod)
              (.outcome r.src r.dst s.modnum (s.tenantOf ag) x.auto.inLook .success)] ∧
            (let z := (t.ctxOf ag).ep e; z.st = .opened ∧ z.peer = r.src ∧ z.port = s.routePort (s.tenantOf ag) r.srcMod ∧ z.peerMod = r.srcMod ∧ z.peerTen = r.tenant ∧
              z.peerLook = r.auto.inLook ∧ z.state = 0 ∧ z.ctrs = x.auto.startCtrs ∧ z.pend = some .success ∧ z.res = some res)))) ∧
    (∀ dst peer mod ten look h d, s.arrives n = some (.outcome dst peer mod ten look .success) → here dst → x.st = .waiting →
      x.asking = some (true, d, h) → ∃ t, exec (.connectOutcome n) s = .next t ∧ t.mesh = rest ∧
        (let z := (t.ctxOf ag).ep e; z.st = .opened ∧ z.peer = peer ∧ z.peerMod = mod ∧ z.peerTen = ten ∧ z.peerLook = look ∧
          z.port = x.port ∧ z.state = 0 ∧ z.pend = some .success)) ∧
    (∀ src dst mod ten freed fwd m, s.arrives n = some (.msg src dst mod ten freed fwd m) → s.stubOf dst = none →
      (s.messageStays src dst fwd = true → exec (.messageArrival n) s = .next s) ∧
      (s.messageStays src dst fwd = if s.switchedOut src dst then fwd || !s.senderHolds src else !fwd && s.senderDefers src dst) ∧
      (s.messageStays src dst fwd = false → s.switchedOut src dst = false → s.holder? src dst = some (ag, e) →
        ∃ t, exec (.messageArrival n) s = .next t ∧ t.mesh = rest ∧
        (t.ctxOf ag).ep e = if x.moving = true ∧ fwd = false then { x with direct := x.direct ++ [.msg freed m] }
          else { x with inbox := x.inbox ++ [m], sent := x.sent - freed }) ∧
      (s.messageStays src dst fwd = false → s.switchedOut src dst = false → s.holder? src dst = none → m.ep = none → ∃ t, exec (.messageArrival n) s = .next t ∧
        t.ctxs = s.ctxs ∧ t.mesh = rest ++ [out mod (s.routePort ten mod) (.close dst src 4 none 0 false)]) ∧
      (s.switchedOut src dst = true → agentOfName src = some ag → src.extractLsb' 8 4 = e → x.gen = src.extractLsb' 0 8 →
        x.st = .opened ∨ x.st = .closed → fwd = false → ∃ t, exec (.messageArrival n) s = .next t ∧ t.mesh = rest ∧
          (t.ctxOf ag).ep e = { x with deferred := x.deferred ++ [(dst, freed, m)] })) ∧
    (x.st = .opened → x.freed ≠ 0 → ∃ t, exec (.creditFlit ag e) s = .next t ∧ (t.ctxOf ag).ep e = { x with freed := 0 } ∧
      t.mesh = s.mesh ++ [out x.peerMod x.port (.credit (s.nameOf ag e) x.peer x.freed)]) ∧
    (∀ src dst k, s.arrives n = some (.credit src dst k) → s.stubOf dst = none → s.holder? src dst = some (ag, e) →
      ∃ t, exec (.creditArrival n) s = .next t ∧ t.mesh = rest ∧ (t.ctxOf ag).ep e = { x with sent := x.sent - k }) ∧
    (∀ src dst cause st ctr fwd, s.arrives n = some (.close src dst cause st ctr fwd) → s.stubOf dst = none →
      s.holder? src dst = some (ag, e) → x.moving = false ∨ fwd = true → ∃ t, exec (.closeNotice n) s = .next t ∧ t.mesh = rest ∧
        (t.ctxOf ag).ep e = { x with st := .closed, closedAt := match st with
          | some k => (cause, k, ctr)
          | none => (cause, x.state, if x.auto.hc x.state then (x.ctrs[x.state]?).getD 0 else 0) }) ∧
    (∀ src dst name mod fwd, s.arrives n = some (.moved src dst name mod fwd) → s.stubOf dst = none → here dst → x.st = .opened →
      (x.moving = true → fwd = false → ∃ t, exec (.moved n) s = .next t ∧ t.mesh = rest ∧
        (t.ctxOf ag).ep e = { x with direct := x.direct ++ [.moved name mod] }) ∧
      (x.moving = false ∨ fwd = true → x.deferred = [] → ∃ t, exec (.moved n) s = .next t ∧
        (t.ctxOf ag).ep e = { x with
          peer := name, peerMod := mod, former := x.peer :: x.former,
          port := if mod = x.peerMod then x.port else s.routePort (s.tenantOf ag) mod } ∧
        t.mesh = rest ++ [out x.peerMod x.port (.release dst x.peer false)])) ∧
    (∀ dst name mod (t0 : Stub), s.arrives n = some (.movedStub dst name mod) → s.stubOf dst = some (ag, t0) → t0.items = [] →
      t0.name = dst → ∃ t, exec (.movedAtStub n) s = .next t ∧ t.mesh = rest ∧ t.ctxs = s.ctxs ∧
        (t.unitOf ag).stubs = (s.unitOf ag).stubs.map (fun y => if y.name = dst then { t0 with
          target := some (name, mod, s.routePort t0.tenant mod) } else y)) ∧
    (∀ src dst, s.arrives n = some (.release src dst true) → s.stubOf dst = none → here dst → x.moving = true →
      (x.direct = [] → ∃ t, exec (.releaseNotice n) s = .next t ∧ t.mesh = rest ∧ (t.ctxOf ag).ep e = { x with moving := false }) ∧
      (∀ freed m, x.direct = [.msg freed m] → ∃ t, exec (.releaseNotice n) s = .next t ∧ (t.ctxOf ag).ep e = { x with
        moving := false, direct := [], inbox := x.inbox ++ [m], sent := x.sent - freed })) ∧
    ((s.ctxOf ag).phase ≠ .live → exec (.teamResident ag) s = .next s) ∧
    (let back (b : AgentId) (q : EReg) (d : Word × Nat × Msg) : Bool := agentOfName d.1 = some ag && !s.switchedOut (s.nameOf b q) d.1
     (s.ctxOf ag).phase = .live → ∃ t, exec (.teamResident ag) s = .next t ∧ t.mem = s.mem ∧
        (∀ b q, let y := (s.ctxOf b).ep q
          (t.ctxOf b).ep q = { y with deferred := y.deferred.filter (fun d => !back b q d) }) ∧
        t.mesh = ((s.ctxs.map (·.1)).eraseDups.flatMap (fun b => (List.range 16).map (fun q => (b, BitVec.ofNat 4 q)))).reverse.flatMap
          (fun r => let y := (s.ctxOf r.1).ep r.2
            (y.deferred.filter (back r.1 r.2)).map (fun d =>
              out y.peerMod y.port (.msg (s.nameOf r.1 r.2) d.1 s.modnum (s.tenantOf r.1) d.2.1 false d.2.2))) ++ s.mesh)

/-- The words 0xF380, 0x0800 + sig decode to NOEMIT sig, and the same word with a not 0 is ILLEGAL. In a domain, NOEMIT and an EMIT that finds its live bit set wait alike, as an interlock, for a release at the domain scope: while an entry of the context stands in the vector sequencer, or a store of it is not acknowledged at that scope. Otherwise NOEMIT completes, LIVE[sig] is 0 and nothing else changes of the context, whether the bit was set or clear. Whether a store still on its way is acknowledged at the scope is a free draw of the model (log 47, of 17 R470). In no domain it raises DOMAIN with TVAL 0xFFFF_FFFF. -/
def Obligations.NoemitWithdrawsAnEmission : Prop :=
  (∀ sig : BitVec 6, decode [0xF380, 0x0800 + sig.setWidth 16] = .ok (.noemit sig) 2 7 (0x0800 + sig.setWidth 16)) ∧
  (∀ (sig : BitVec 6) (a : BitVec 4), a ≠ 0 →
    decode [0xF380, 0x0800 + (a.setWidth 16 <<< 7) + sig.setWidth 16] = .illegal 9 1 (0x0800 + (a.setWidth 16 <<< 7) + sig.setWidth 16) 7) ∧
  ∀ (s : State) (sig : BitVec 6) (a : XReg),
    let out := s.core.journal.any (fun p => p.2.ctx = s.cur && p.2.unacked)
    let seq := s.core.seq.any (fun q => q.ctx = s.cur)
    let past := Config.choice s.draws % 2 = 1 ∧ s.core.journal.all (fun p => p.2.ctx ≠ s.cur || s.mayPass p.2) = true
    (s.ctx.innermost = none → Traps s (exec (.noemit sig) s) 0x1A 0xFFFFFFFF) ∧
    (∀ d : BitVec 10, s.ctx.innermost = some d →
      (seq = true ∨ out = true ∧ ¬ past → GivesCtx s (exec (.noemit sig) s) { s.ctx with wait := .interlock } ∧
        (s.ctx.live.getLsbD sig.toNat = true → GivesCtx s (exec (.emit a sig) s) { s.ctx with wait := .interlock })) ∧
      (∀ u, seq = false → (out = false ∧ u = s) ∨ (out = true ∧ past ∧ u = s.acknowledgeAt s.cur (s.domainScope d.toNat).toNat) →
        Gives u (exec (.noemit sig) s) (fun c => { c with live := c.live &&& ~~~((1 : BitVec 64) <<< sig.toNat) }) ∧
        (s.ctx.live.getLsbD sig.toNat = false → Gives u (exec (.noemit sig) s) id)))

/-- EMIT with its live bit set and its release done makes the signal present with the combined value (OR, AND, ADD, MAX, MIN); with the bit clear it raises EMIT_WITHDRAWN. PRES and ABSB branch on a decided status and wait on an unknown one. SVAL gives the value with T 1, or 0 with T 0, once settled, and waits before. PAUSE and PAUSE.UP clear LIVE, begin the flush and pause. DLYW writes NXT and DLYR reads CUR. DOMNEW makes a domain at the lowest free ID or gives the reason 1, 2 or 3; DOMFREE frees one that nothing uses. The signal and delay instructions raise DOMAIN in no domain. -/
def Obligations.SignalsAndDelayRegisters : Prop :=
  ∀ (s : State) (a b : XReg) (sig : BitVec 6) (imm : Imm) (dr : DReg), s.eccBad = [] → s.eccOne = [] →
    (∀ y z : Word, combineSignal 1 y z = y ||| z ∧ combineSignal 2 y z = y &&& z ∧ combineSignal 3 y z = y + z ∧
      combineSignal 4 y z = (if y.toInt < z.toInt then z else y) ∧ combineSignal 5 y z = (if z.toInt < y.toInt then z else y)) ∧
    (s.ctx.innermost = none → s.ctx.lact = false →
      ∀ i ∈ [Instr.emit a sig, .pres sig imm, .absb sig imm, .sval a sig, .pause, .pauseUp, .dlyw dr b, .dlyr a dr],
        Traps s (exec i s) 0x1A 0xFFFFFFFF) ∧
    (∀ (id : BitVec 10) (k : Domain), let d := id.toNat
      s.ctx.innermost = some id → s.domain? d = some k →
      let live := (s.memberCtxs d).any (fun c => c.live.getLsbD sig.toNat)
      let st := k.status[sig.toNat]
      let near := s.ctx.pc.extractLsb' 0 32 + imm * 2
      (s.ctx.live.getLsbD sig.toNat = false →
        Traps s (exec (.emit a sig) s) 0x19 (BitVec.ofNat 32 (d * 2 ^ 16 + sig.toNat))) ∧
      (s.ctx.live.getLsbD sig.toNat = true → s.released s.cur = true → ∃ t k', exec (.emit a sig) s = .next t ∧
        t.domain? d = some k' ∧ k'.status[sig.toNat] = .present ∧
        k'.value[sig.toNat] = (if st = .present then combineSignal k.ops[sig.toNat] k.value[sig.toNat] (s.ctx.getX a) else s.ctx.getX a) ∧
        (∀ q : BitVec 6, q ≠ sig → k'.status[q.toNat] = k.status[q.toNat] ∧ k'.value[q.toNat] = k.value[q.toNat]) ∧
        t.ctx = (s.ctx.advance s.groupBytes).ready ∧ t.mem = s.mem ∧ ∀ n, n ≠ d → t.domain? n = s.domain? n) ∧
      (s.ctx.lact = false →
        (st = .present → Jumps s (exec (.pres sig imm) s) near (fun c => c) ∧ Gives s (exec (.absb sig imm) s) (fun c => c)) ∧
        (st = .absent ∨ st = .unknown ∧ live = false →
          Gives s (exec (.pres sig imm) s) (fun c => c) ∧ Jumps s (exec (.absb sig imm) s) near (fun c => c)) ∧
        (st = .unknown → live = true → ∀ i ∈ [Instr.pres sig imm, .absb sig imm],
          GivesCtx s (exec i s) { s.ctx with wait := .signal sig false })) ∧
      (st = .present → live = false → Gives s (exec (.sval a sig) s) (fun c => (c.setX a k.value[sig.toNat]).setT true)) ∧
      (st = .absent ∨ st = .unknown ∧ live = false → Gives s (exec (.sval a sig) s) (fun c => (c.setX a 0).setT false)) ∧
      (st ≠ .absent → live = true → GivesCtx s (exec (.sval a sig) s) { s.ctx with wait := .signal sig true }) ∧
      Gives s (exec (.dlyw dr b) s) (fun c => { c with dnxt := c.dnxt.set dr.toNat (s.ctx.getX b) }) ∧
      Gives s (exec (.dlyr a dr) s) (·.setX a s.ctx.dcur[dr.toNat]) ∧
      (∀ p ∈ [(Instr.pause, Pause.paused), (.pauseUp, .pausedUp)],
        let busy := s.seqBusy s.cur || s.ctx.vloop.isSome || s.matrixBusy s.cur || s.unacked s.cur
        (busy = true → GivesCtx s (exec p.1 s) { s.ctx with wait := .interlock }) ∧
        (busy = false → (∃ t, exec p.1 s = .next t ∧ t.ctx.pause = p.2 ∧ t.ctx.live = 0 ∧ t.ctx.x = s.ctx.x) ∧
          ((∀ n < 64, s.tileEntry s.cur n = none) →
            Gives s (exec p.1 s) (fun c => { c with flushing := true, live := 0, pause := p.2, pauseFlags := c.mergeFlags }))))) ∧
    (∀ flat, let d := s.ctx.getX b; let ws := s.wordsAt flat 12; let w0 := (ws[0]?).getD 0
      (d.toNat % 4 ≠ 0 → Traps s (exec (.domnew a b) s) 0x03 d) ∧
      (d.toNat % 4 = 0 → tcmOrScratch s.cur d.toNat 48 = some flat →
        (descOk ws = false → Gives s (exec (.domnew a b) s) (fun c => (c.setX a 1).setT false)) ∧
        (descOk ws = true → s.parentOk (s.tenantOf s.cur) w0.toNat = false →
          Gives s (exec (.domnew a b) s) (fun c => (c.setX a 2).setT false)) ∧
        (descOk ws = true → s.parentOk (s.tenantOf s.cur) w0.toNat = true →
          (s.freeDomain (s.tenantOf s.cur) = none → Gives s (exec (.domnew a b) s) (fun c => (c.setX a 3).setT false)) ∧
          (∀ n, s.freeDomain (s.tenantOf s.cur) = some n → ∃ t k, exec (.domnew a b) s = .next t ∧
            t.domains = s.domains ++ [(n, k)] ∧ t.mem = s.mem ∧
            t.ctx = (((s.ctx.advance s.groupBytes).ready).setX a (BitVec.ofNat 32 n)).setT true ∧
            k.tenant = s.tenantOf s.cur ∧ k.instant = 0 ∧ k.flags = 0 ∧ (∀ q : BitVec 6, k.status[q.toNat] = .unknown) ∧
            k.wdog = ((ws[1]?).getD 0).extractLsb' 0 16 ∧
            k.parent = (if w0.getLsbD 23 then some (w0.toNat % 1024) else none) ∧ (w0.getLsbD 23 = false → k.level = 0) ∧
            ∀ q : BitVec 6, k.ops[q.toNat] = ((ws[4 + q.toNat / 8]?).getD 0).extractLsb' (4 * (q.toNat % 8)) 4)))) ∧
    (let n := (s.ctx.getX b).toNat % 1024;
      (s.domain? n = none → Gives s (exec (.domfree b) s) (·.setT false)) ∧
      (∀ k, s.domain? n = some k →
        (k.tenant ≠ s.tenantOf s.cur ∨ s.memberCtxs n ≠ [] ∨ s.children n ≠ [] → Gives s (exec (.domfree b) s) (·.setT false)) ∧
        ((∃ l ∈ s.launches, ((l.recWords[13]?).getD 0).getLsbD 31 = true ∧ ((l.recWords[13]?).getD 0).toNat % 1024 = n) →
          Gives s (exec (.domfree b) s) (·.setT false)) ∧
        (k.tenant = s.tenantOf s.cur → s.memberCtxs n = [] → s.children n = [] →
          (∀ l ∈ s.launches, ((l.recWords[13]?).getD 0).getLsbD 31 = true → ((l.recWords[13]?).getD 0).toNat % 1024 ≠ n) →
          ∃ t, exec (.domfree b) s = .next t ∧ t.domains = erase s.domains n ∧ t.mem = s.mem ∧
            t.ctx = ((s.ctx.advance s.groupBytes).ready).setT true)))

/-- SIGNAL_DECIDED settles an unknown signal that no member can emit as absent. CAUSALITY_CYCLE with no member running marks each member that waits on a signal with the domain and the signal. INSTANT_END of a domain whose members are all paused and settled increments the counter, makes every signal unknown, merges the flags with which members paused and those of the children, and each member takes CUR := NXT. A child domain whose members are all paused up is then paused in its parent; else each member takes LIVE := DECL AND the used signals, and runs, with the members of the children paused in it. WATCHDOG_EXPIRY marks every running member and restarts the count. DOM_WRITE of DOM0 to DOM3 with valid registers that form a chain makes the context a member of the new innermost domain, not paused, with LIVE 0, and merges its flags into the old one; it waits while the domain's instant is at its end or its members have not resumed; one that breaks the chain raises DOMAIN with the register number, and one at program privilege PRIV. -/
def Obligations.InstantsAndTheirEvents : Prop :=
  ∀ (s : State) (id : BitVec 10) (sig : BitVec 6) (k : Domain) (ag : AgentId), let d := id.toNat
    s.domain? d = some k →
    (k.status[sig.toNat] = .unknown → (∀ c ∈ s.memberCtxs d, c.live.getLsbD sig.toNat = false) →
      ∃ t k', exec (.signalDecided id sig) s = .next t ∧ t.domain? d = some k' ∧ k'.status[sig.toNat] = .absent ∧ t.ctxs = s.ctxs ∧
        (∀ q : BitVec 6, q ≠ sig → k'.status[q.toNat] = k.status[q.toNat])) ∧
    ((∃ c ∈ s.memberCtxs d, s.running d c = true) → exec (.causalityCycle id) s = .next s) ∧
    ((∀ c ∈ s.memberCtxs d, s.running d c = false) → (s.ctxOf ag).memberOf d = true → s.waitsOnSignal d (s.ctxOf ag) = some sig →
      ∃ t, exec (.causalityCycle id) s = .next t ∧ t.mem = s.mem ∧
        t.ctxOf ag = { s.ctxOf ag with causality := some (BitVec.ofNat 32 (d * 2 ^ 16 + sig.toNat)) }) ∧
    (s.instantDone d = false → exec (.instantEnd id) s = .next s) ∧
    (let up := k.level ≠ 0 ∧ ∀ c ∈ s.memberCtxs d, c.pause = .pausedUp
     let c := s.ctxOf ag
     s.instantDone d = true → ∃ t k', exec (.instantEnd id) s = .next t ∧ t.domain? d = some k' ∧ k'.instant = k.instant + 1 ∧
        k'.status = Vector.replicate 64 .unknown ∧ k'.value = Vector.replicate 64 0 ∧
        (∀ j, k'.flags.getLsbD j = (k.flags.getLsbD j || (s.memberCtxs d).any (fun c => c.pauseFlags.getLsbD j) ||
          (s.children d).any (fun n => (s.domain? n).any (fun x => x.flags.getLsbD j)))) ∧
        (up → k'.pausedInParent = true ∧ (c.memberOf d = true → t.ctxOf ag = { c with dcur := c.dnxt })) ∧
        (¬ up → k'.pausedInParent = false ∧ k'.wdCount = 0 ∧
          (c.memberOf d = true → (t.ctxOf ag).dcur = c.dnxt ∧ (t.ctxOf ag).dnxt = c.dnxt ∧ (t.ctxOf ag).live = c.decl &&& k.used ∧
            (t.ctxOf ag).pause = .no) ∧
          (∀ n x, n ∈ s.children d → s.domain? n = some x → x.pausedInParent = true →
            (t.domain? n).map Domain.pausedInParent = some false ∧
            (c.memberOf n = true → (t.ctxOf ag).dcur = c.dcur ∧ (t.ctxOf ag).live = c.decl &&& x.used ∧ (t.ctxOf ag).pause = .no)))) ∧
    (k.wdog ≠ 0 → k.wdog.toNat * 1024 ≤ k.wdCount → (s.ctxOf ag).memberOf d = true → (s.ctxOf ag).pause = .no →
      (s.ctxOf ag).intrap = false → (s.ctxOf ag).phase = .live →
      ∃ t, exec (.watchdogExpiry id) s = .next t ∧ t.ctxOf ag = { s.ctxOf ag with watchdog := some (BitVec.ofNat 32 d) } ∧
        (t.domain? d).map Domain.wdCount = some 0) ∧
    (∀ (q : BitVec 2) (v : Word), let dom := setDom s.ctx.dom q ⟨v.getLsbD 31, v.setWidth 10⟩
      let inner := { s.ctx with dom := dom }.innermost
      let chain : Prop := ∀ r : Fin 4, (dom[r]).v = true → ∃ y, s.domain? (dom[r]).id.toNat = some y ∧ y.tenant = s.tenantOf s.cur ∧
        y.level = r.val ∧ ∀ u : Fin 4, u.val + 1 = r.val → (dom[u]).v = true ∧ y.parent = some (dom[u]).id.toNat
      let decided (n : BitVec 10) : Prop := s.instantDone n.toNat = true ∨
        ((s.domain? n.toNat).any Domain.pausedInParent = true ∧ s.memberCtxs n.toNat ≠ [])
      (s.ctx.prv = false → Traps s (exec (.domWrite q v) s) 0x02 (BitVec.ofNat 32 ((0x028 + q.toNat) * 2 ^ 16 + s.group.base.toNat))) ∧
      (s.ctx.prv = true → ¬ chain → Traps s (exec (.domWrite q v) s) 0x1A (q.setWidth 32)) ∧
      (s.ctx.prv = true → chain → inner = s.ctx.innermost → ∃ t, exec (.domWrite q v) s = .next t ∧ t.ctx = { s.ctx with dom := dom } ∧
        t.domains = s.domains ∧ t.mem = s.mem) ∧
      (s.ctx.prv = true → chain → inner ≠ s.ctx.innermost →
        (∀ n, inner = some n → decided n → GivesCtx s (exec (.domWrite q v) s) { s.ctx with wait := .interlock }) ∧
        ((∀ n, inner = some n → ¬ decided n) → ∃ t, exec (.domWrite q v) s = .next t ∧ t.ctx.dom = dom ∧ t.ctx.live = 0 ∧ t.ctx.pause = .no ∧ t.mem = s.mem ∧
          ((∀ n, inner = some n → (s.domain? n.toNat).any Domain.pausedInParent = false) → t.ctx.x = s.ctx.x) ∧
          ∀ o y, s.ctx.innermost = some o → s.domain? o.toNat = some y →
            (t.domain? o.toNat).map Domain.flags = some (y.flags ||| s.ctx.mergeFlags))))

/-- WAITEQ and WAITNE complete when the scratchpad word does or does not equal x[c], and wait otherwise; MONITOR_WAKE lets the group test again. BELL sends a ring after its release; its arrival adds one to the bell, saturating, also to one that is saved with a switched-out partition, and another tenant's is dropped. A BELLWAIT load takes one ring, or waits at the tail. BELLCNT and BARCFG stores write their fields. The last BARARR load of a generation starts the next and returns the old word; an earlier one counts itself and waits until BARRIER_RELEASE. A BARARR load looks at COUNT when it is issued (0 raises LOAD_WINDOW), and no more while it waits (log 29); it returns once a write has changed GEN. A MUTEX load acquires (1, as does one whose wait ended in the hand-over), finds it owned (2) or queues; a MUTEX store hands it to the head of the queue. -/
def Obligations.EventUnitOperations : Prop :=
  ∀ (s : State) (a b c : XReg) (imm : Imm) (st k q y : Nat), s.eccBad = [] → s.eccOne = [] → s.cur = .core st k q y →
    let ea := s.ctx.getX b; let v := s.ctx.getX c
    (ea.toNat % 4 ≠ 0 → Traps s (exec (.waiteq b c) s) 0x03 ea ∧ Traps s (exec (.waitne b c) s) 0x03 ea) ∧
    (ea.toNat % 4 = 0 → (∀ flat, place s.cur ea.toNat ≠ .scratch flat) →
      Traps s (exec (.waiteq b c) s) 0x04 ea ∧ Traps s (exec (.waitne b c) s) 0x04 ea) ∧
    (∀ flat, ea.toNat % 4 = 0 → place s.cur ea.toNat = .scratch flat →
      (s.wordAt flat = v → Gives s (exec (.waiteq b c) s) id ∧ GivesCtx s (exec (.waitne b c) s) { s.ctx with wait := .monitor }) ∧
      (s.wordAt flat ≠ v → Gives s (exec (.waitne b c) s) id ∧ GivesCtx s (exec (.waiteq b c) s) { s.ctx with wait := .monitor })) ∧
    (∀ ag, (s.ctxOf ag).wait = .monitor → ∃ t, exec (.monitorWake ag) s = .next t ∧ t.ctxOf ag = { s.ctxOf ag with wait := .none } ∧
      t.mem = s.mem) ∧
    (∀ dst, ea.extractLsb' 5 12 = 0 → agentOfName ea = some dst →
      (s.released s.cur = true → ∃ t, exec (.bell b) s = .next t ∧ t.ctx = (s.ctx.advance s.groupBytes).ready ∧ t.mem = s.mem ∧
        t.mesh = s.mesh ++ [.ring s.cur dst (ea.extractLsb' 0 5) (s.tenantOf s.cur)]) ∧
      (let scope := ((spanOf s.cur).join (spanOf dst)).scope.toNat
       (s.passRelease scope s.cur = none → s.released s.cur = false ∧ GivesCtx s (exec (.bell b) s) { s.ctx with wait := .interlock }) ∧
       (∀ u, s.passRelease scope s.cur = some u → (u = s ∨ u = s.acknowledgeAt s.cur scope) ∧ ∃ t, exec (.bell b) s = .next t ∧
          t.ctx = (s.ctx.advance s.groupBytes).ready ∧ t.mem = s.mem ∧ t.mesh = s.mesh ++ [.ring s.cur dst (ea.extractLsb' 0 5) (s.tenantOf s.cur)]))) ∧
    (ea.extractLsb' 5 12 ≠ 0 ∨ agentOfName ea = none → Traps s (exec (.bell b) s) 0x05 ea) ∧
    (∀ n src dst bell tenant, s.mesh[n]? = some (.ring src dst bell tenant) → ringFirst (s.mesh.take n) src dst bell = true →
      ∃ t, exec (.bellRingArrival n) s = .next t ∧ t.mesh = s.mesh.eraseIdx n ∧
        (s.bellTenant dst ≠ some tenant → t.units = s.units ∧ t.switches = s.switches) ∧
        (s.bellTenant dst = some tenant →
          let rung (x : Bell) : Bell := ⟨min (x.count + 1) 0xFFFF, x.waiters⟩
          let out (w : Switch) : Prop := w.team = none ∧ w.phase = .saved ∧ lookup? w.units (unitKey dst) ≠ none
          ((∀ w ∈ s.switches, ¬ out w.2) → bellOf (t.unitOf dst) bell.toNat = rung (bellOf (s.unitOf dst) bell.toNat)) ∧
          (∀ id w rest u, s.switches = (id, w) :: rest → out w → lookup? w.units (unitKey dst) = some u → t.units = s.units ∧
            ∃ w' u', lookup? t.switches id = some w' ∧ lookup? w'.units (unitKey dst) = some u' ∧
              bellOf u' bell.toNat = rung (bellOf u bell.toNat)))) ∧
    (∀ n : BitVec 5, let w := bellOf s.unit n.toNat
      (w.count ≠ 0 → w.waiters = [] →
        (∃ t, exec (.bellwaitLoad a n) s = .next t ∧ t.ctx = (s.ctx.ready).setX a (BitVec.ofNat 32 w.count) ∧
          bellOf t.unit n.toNat = ⟨w.count - 1, []⟩ ∧ t.mem = s.mem) ∧
        (s.ctx.getX b + imm * 4 = BitVec.ofNat 32 (0x80000000 + 4 * n.toNat) → ∃ t, exec (.ldw a b imm) s = .next t ∧
          t.ctx = ((s.ctx.advance s.groupBytes).ready).setX a (BitVec.ofNat 32 w.count) ∧ bellOf t.unit n.toNat = ⟨w.count - 1, []⟩)) ∧
      (w.count = 0 → w.waiters = [] → ∃ t, exec (.bellwaitLoad a n) s = .next t ∧ t.ctx = { s.ctx with wait := .event } ∧
        bellOf t.unit n.toNat = ⟨0, [s.cur]⟩) ∧
      (∃ t, exec (.bellcntStore n v) s = .next t ∧ bellOf t.unit n.toNat = ⟨v.toNat % 65536, w.waiters⟩ ∧ t.ctx = s.ctx ∧
        t.mem = s.mem)) ∧
    (∀ n : BitVec 4, let g := barOf s.unit n.toNat; let flat := scratchAt st k (4 * g.word.toNat)
      let w := (s.wordAt flat).toNat
      (∃ t, exec (.barcfgStore n v) s = .next t ∧ t.ctx = s.ctx ∧ t.mem = s.mem ∧
        barOf t.unit n.toNat = ⟨v.extractLsb' 16 16, if v.toNat % 64 ≤ 32 then v.toNat % 64 else g.count⟩) ∧
      (g.count = 0 → s.ctx.arrival = none → Traps s (exec (.bararrLoad a n) s) 0x04 (BitVec.ofNat 32 (0x80000140 + 4 * n.toNat))) ∧
      (g.count ≠ 0 → s.ctx.arrival.map (·.1) ≠ some n.toNat → s.released s.cur = true → Memory.wf s.mem = true →
        (g.count ≤ w % 65536 + 1 → ∃ t, exec (.bararrLoad a n) s = .next t ∧
          t.ctx = (({ s.ctx with arrival := none, barrierFree := false } : Ctx).ready).setX a (s.wordAt flat) ∧
          t.wordAt flat = BitVec.ofNat 32 ((w / 65536 + 1) % 65536 * 65536)) ∧
        (w % 65536 + 1 < g.count → ∃ t, exec (.bararrLoad a n) s = .next t ∧ t.wordAt flat = s.wordAt flat + 1 ∧
          t.ctx = { s.ctx with wait := .event, barrierFree := false, arrival := some (n.toNat, w / 65536, w % 65536) })) ∧
      (∀ r i, s.ctx.arrival = some (n.toNat, r, i) → g.count ≠ 0 ∨ s.ctx.wait = .event ∨ s.ctx.inIssue ≠ [] ∨ s.ctx.barrierFree = true →
        if r = w / 65536 ∧ s.ctx.barrierFree = false then GivesCtx s (exec (.bararrLoad a n) s) { s.ctx with wait := .event }
        else GivesCtx s (exec (.bararrLoad a n) s)
          ((({ s.ctx with arrival := none, barrierFree := false } : Ctx).ready).setX a (BitVec.ofNat 32 (r * 65536 + i)))) ∧
      (∀ ag r i, unitKey ag = unitKey s.cur → (s.ctxOf ag).arrival = some (n.toNat, r, i) →
        r ≠ w / 65536 ∨ (s.ctxOf ag).barrierFree = true → (s.ctxOf ag).wait = .event →
        ∃ t, exec (.barrierRelease s.cur n) s = .next t ∧ t.ctxOf ag = { s.ctxOf ag with wait := .none, barrierFree := true } ∧
          t.mem = s.mem)) ∧
    (∀ n : BitVec 4, let m := mutexOf s.unit n.toNat
      (m.owner = none → ∃ t, exec (.mutexLoad a n) s = .next t ∧ t.ctx = (s.ctx.ready).setX a 1 ∧
        mutexOf t.unit n.toNat = ⟨some s.cur, m.queue, false⟩) ∧
      (m.owner = some s.cur → ∃ t, exec (.mutexLoad a n) s = .next t ∧ t.ctx = (s.ctx.ready).setX a (if m.handed then 1 else 2) ∧
        mutexOf t.unit n.toNat = { m with handed := false }) ∧
      (∀ h, m.owner = some h → h ≠ s.cur → s.cur ∉ m.queue → ∃ t, exec (.mutexLoad a n) s = .next t ∧
        t.ctx = { s.ctx with wait := .event } ∧ mutexOf t.unit n.toNat = ⟨some h, m.queue ++ [s.cur], m.handed⟩) ∧
      (m.owner ≠ some s.cur → Traps s (exec (.mutexStore n) s) 0x05 (BitVec.ofNat 32 (0x80000180 + 4 * n.toNat))) ∧
      (m.owner = some s.cur → s.released s.cur = true →
        (m.queue = [] → ∃ t, exec (.mutexStore n) s = .next t ∧ mutexOf t.unit n.toNat = ⟨none, [], false⟩ ∧ t.ctx = s.ctx) ∧
        (∀ h rest, m.queue = h :: rest → ∃ t, exec (.mutexStore n) s = .next t ∧ mutexOf t.unit n.toNat = ⟨some h, rest, true⟩)))

/-- TRACEM records x[b] when its kind is traced; TRIG triggers once. At kernel privilege ICINV drops the line of its address in the context's text segment (of the context's tenant), ICINVA every line of the cluster's cache: no line is left; a line being filled is marked to be discarded, and no fetch buffer of the cluster holds bytes of such a line; on a hart both have no effect. WINSET writes a well-formed window when the accumulates are settled (T 1), waits before, and clears T for a malformed one; HALT gates the context; SCRUB makes uncorrectable words of the block zero and sets T when one was found; at program privilege each raises PRIV. WINGET reads a window's word. TAP_RESET, BYPASS, IDCODE, SAMPLE and EXTEST select their registers, EXTEST drives the pins from the boundary register, and every other value but DBGCMD's acts as BYPASS. A scan of IDCODE or BYPASS captures first. A debug command acts on its target, which for a switched-out context is its saved record: a read or write of a halted one's x register is done; a denied target gives STS 2, one that runs STS 3, a register that is not there STS 4; HALTREQ, RESUME and STATUS act as R542 says. The model's choices: TRST selects IDCODE and the order of shifted bits (log 13), STS 4 and 3 where R542 names none (log 20), entries of triggers and marks (log 27). -/
def Obligations.DebugInstructionsAndPort : Prop :=
  (∀ (s : State) (b : XReg), isHart s.cur = true → s.ctx.prv = true → Gives s (exec (.icinv b) s) id ∧ Gives s (exec .icinva s) id) ∧
  ∀ (s : State) (a b : XReg) (st c k x : Nat), s.cur = .core st c k x → st < 16 → c < 1280 → k < 8 → x < 4 →
    let ea := s.ctx.getX b
    (s.ctx.kinds.getLsbD 3 = false ∨ s.core.frozen = true → Gives s (exec (.tracem b) s) id) ∧
    (s.ctx.kinds.getLsbD 3 = true → s.core.frozen = false → ∃ t, exec (.tracem b) s = .next t ∧
      t.ctx = (s.ctx.advance s.groupBytes).ready ∧ t.mem = s.mem ∧ t.core.head = (s.core.head + 1) % 1024 ∧
      lookup? t.core.trace s.core.head = some ⟨(s.coreClock s.cur).extractLsb' 0 32, BitVec.ofNat 32 (4 * 2 ^ 28 + ctxIndex s.cur * 2 ^ 26),
        s.ctx.pc.extractLsb' 0 32, ea⟩) ∧
    (s.ctx.trigon.getLsbD 0 = false ∨ s.core.trigd = true ∨ s.core.frozen = true → Gives s (exec .trig s) id) ∧
    (s.ctx.trigon.getLsbD 0 = true → s.core.trigd = false → s.core.frozen = false → ∃ t, exec .trig s = .next t ∧
      t.ctx = (s.ctx.advance s.groupBytes).ready ∧ t.core.trigd = true ∧ t.core.left = s.ctx.post.toNat ∧
      t.core.frozen = decide (s.ctx.post = 0) ∧ (lookup? t.core.trace s.core.head).map TraceEntry.w1 =
        some (BitVec.ofNat 32 (7 * 2 ^ 28 + ctxIndex s.cur * 2 ^ 26))) ∧
    (s.ctx.prv = false → ∀ i ∈ [Instr.icinv b, .icinva, .winset a b, .halt, .scrub b],
      Traps s (exec i s) 0x02 (s.group.base.setWidth 32)) ∧
    (let n := ea.toNat % 8; let w := s.ctx.windows[n];
      Gives s (exec (.winget a b) s) (·.setX a (match ea.toNat / 8 % 4 with
        | 0 => w.w0 | 1 => w.w1 | 2 => w.w2 | _ => w.w3))) ∧
    (s.ctx.prv = true →
      (∀ p ∈ [(Instr.icinv b, fun tenant line => decide (tenant = s.ctx.tenant ∧ line = (s.ctx.pc.extractLsb' 32 16 ++ ea).toNat / 64)),
          (.icinva, fun _ _ => true)],
        ∃ t, exec p.1 s = .next t ∧ t.mem = s.mem ∧ t.ctx.x = s.ctx.x ∧ t.ctx.pc = (s.ctx.advance s.groupBytes).pc ∧
          t.unit.lines = s.unit.lines.filter (fun l => !p.2 l.tenant l.addr) ∧
          t.unit.fills = s.unit.fills.map (fun f => if p.2 f.tenant f.addr then { f with discard := true } else f) ∧
          (∀ g, unitKey g ≠ unitKey s.cur → t.unitOf g = s.unitOf g) ∧
          (∀ k' x', let g := AgentId.core st c k' x'; let q := s.ctxOf g
            (t.ctxOf g).fetchBuf = q.fetchBuf.filter (fun z => !p.2 q.tenant (z.1.toNat / 64)))) ∧
      (∀ t, exec .icinva s = .next t → t.unit.lines = [] ∧ (∀ f ∈ t.unit.fills, f.discard = true) ∧
        ∀ k' x', (t.ctxOf (.core st c k' x')).fetchBuf = []) ∧
      GivesCtx s (exec .halt s) { s.ctx with halted := true, haltGroup := s.group.words, wait := .halt } ∧
      ((s.ctx.getX a).toNat % 4 ≠ 0 → Traps s (exec (.winset a b) s) 0x03 (s.ctx.getX a)) ∧
      (∀ flat, s.eccBad = [] → s.eccOne = [] → (s.ctx.getX a).toNat % 4 = 0 → tcmOrScratch s.cur (s.ctx.getX a).toNat 16 = some flat →
        let w : Window := ⟨s.wordAt flat, s.wordAt (flat + 4), s.wordAt (flat + 8), s.wordAt (flat + 12)⟩
        let good := w.w3.toNat < 16 ∧ w.w0.toNat % 4096 = 0 ∧ w.w1.toNat % 4096 = 0 ∧ (w.w3.getLsbD 3 = true →
          0x40000000 ≤ w.w0.toNat ∧ w.w0.toNat ≤ w.w1.toNat ∧ w.w1.toNat ≤ 0x7FFFF000)
        (¬good → Gives s (exec (.winset a b) s) (·.setT false)) ∧
        (good → (∀ n < 64, s.tileEntry s.cur n = none) →
          (s.ctx.out = 0 → Gives s (exec (.winset a b) s) (fun q => { q with
            windows := q.windows.set (ea.toNat % 8) w, flushing := false, t := true })) ∧
          (s.ctx.out ≠ 0 → GivesCtx s (exec (.winset a b) s) { s.ctx with flushing := true, wait := .interlock }))) ∧
      (∀ flat, Memory.wf s.mem = true →
        (∃ o, place s.cur (ea.toNat / 64 * 64) = .ownTcm o ∧ flat = ownTcmAt s.cur o) ∨ place s.cur (ea.toNat / 64 * 64) = .scratch flat ∨
          place s.cur (ea.toNat / 64 * 64) = .matrix flat ∨
          (∃ st' c' k' o, place s.cur (ea.toNat / 64 * 64) = .peer st' c' k' o ∧ s.present s.cur st' c' k' = true ∧ flat = tcmAt st' c' k' o) →
        ∃ t, exec (.scrub b) s = .next t ∧ t.ctx.t = (List.range 16).any (fun i => s.hasBad (flat + 4 * i) 4) ∧ t.ctx.x = s.ctx.x ∧
          ∀ i < 16, t.hasBad (flat + 4 * i) 4 = false ∧
            t.wordAt (flat + 4 * i) = if s.hasBad (flat + 4 * i) 4 then 0 else s.wordAt (flat + 4 * i)) ∧
      (∀ st' c' k' o, place s.cur (ea.toNat / 64 * 64) = .peer st' c' k' o → s.present s.cur st' c' k' = false →
        Traps s (exec (.scrub b) s) Cause.peerAbsent ea) ∧
      (match place s.cur (ea.toNat / 64 * 64) with
        | .shared | .unmapped | .event _ | .aperture _ | .port _ => Traps s (exec (.scrub b) s) 0x05 ea
        | .ownTcm _ | .scratch _ | .matrix _ | .peer _ _ _ _ => True)) ∧
    exec .tapReset s = .next { s with tap := { s.tap with ir := 0x01, bypass := false } } ∧
    exec .bypass s = .next { s with tap := { s.tap with ir := 0xFF, bypass := false } } ∧
    (∃ t, exec .extest s = .next t ∧ t.tap.ir = 0x03 ∧ t.tap.driven = s.tap.boundary ∧ t.tap.boundary.length = Config.boundaryLength ∧
      t.ctxs = s.ctxs ∧ t.mem = s.mem) ∧
    (∀ code : BitVec 8, code ∉ ([0x01, 0x02, 0x03, 0x10] : List (BitVec 8)) →
      s.tapInstruction code = { s with tap := { s.tap with ir := code, bypass := false } }) ∧
    (∃ t, exec .idcode s = .next t ∧ t.tap.ir = 0x01 ∧ t.tap.idcode.extractLsb' 12 16 = 0x0A51 ∧ t.tap.idcode.getLsbD 0 = true ∧
      t.ctxs = s.ctxs ∧ t.mem = s.mem) ∧
    (∀ tdi, (s.tap.ir = 0x01 → (s.tapScan tdi).tap.tdo = (bitList idWord.toNat 32 ++ tdi).take tdi.length) ∧
      (s.tap.ir ∉ ([0x01, 0x02, 0x03, 0x10] : List (BitVec 8)) → (s.tapScan tdi).tap.tdo = (false :: tdi).take tdi.length)) ∧
    (∃ t, exec .sample s = .next t ∧ t.tap.ir = 0x02 ∧ t.tap.boundary.length = Config.boundaryLength ∧ t.ctxs = s.ctxs ∧ t.mem = s.mem) ∧
    (∀ (n : Nat) (sp : BitVec 2) (num : BitVec 12) (v : Word) (ag : AgentId),
      (s.debugTarget n = none → ∀ i ∈ [Instr.dbgRead n sp num, .dbgWrite n sp num v, .haltreq n, .dbgResume n, .dbgStatus n],
        ∃ t, exec i s = .next t ∧ t.tap.dbgcmd.extractLsb' 32 4 = 2 ∧ t.ctxs = s.ctxs ∧ t.mem = s.mem) ∧
      (s.debugTarget n = some ag → let see (u : State) : Ctx := match u.savedAt ag with
          | some (_, y) => y
          | none => u.ctxOf ag
        let q := see s
        let only (t : State) : Prop := t.mem = s.mem ∧ (t.savedAt ag).map (·.1) = (s.savedAt ag).map (·.1) ∧
          ∀ b, b ≠ ag ∨ s.savedAt ag ≠ none → t.ctxOf b = s.ctxOf b
        let answers (i : Instr) (sts : BitVec 4) (q' : Ctx) (data : Word → Prop) : Prop := ∃ t, exec i s = .next t ∧ only t ∧ see t = q' ∧
          t.tap.dbgcmd.extractLsb' 32 4 = sts ∧ data (t.tap.dbgcmd.extractLsb' 0 32)
        (q.debugHalted = false → answers (.dbgRead n sp num) 3 q (fun _ => True) ∧ answers (.dbgWrite n sp num v) 3 q (fun _ => True)) ∧
        (q.debugHalted = true →
          (sp = 3 ∨ (sp ≠ 0 ∧ 32 ≤ num.toNat) →
            answers (.dbgRead n sp num) 4 q (fun _ => True) ∧ answers (.dbgWrite n sp num v) 4 q (fun _ => True)) ∧
          (num.toNat < 32 →
            answers (.dbgRead n 1 num) 0 q (· = q.getX (num.extractLsb' 0 5)) ∧ answers (.dbgRead n 2 num) 0 q (· = q.getF (num.extractLsb' 0 5)) ∧
            answers (.dbgWrite n 1 num v) 0 (q.setX (num.extractLsb' 0 5) v) (fun _ => True) ∧
            answers (.dbgWrite n 2 num v) 0 (q.setF (num.extractLsb' 0 5) v) (fun _ => True))) ∧
        answers (.haltreq n) 0 (if q.phase = .live then { q with haltReq := true } else q) (fun _ => True) ∧
        answers (.dbgResume n) 0 (if q.halted then
            { q.advance (BitVec.ofNat 32 (2 * q.haltGroup.length)) with halted := false, wait := .none, haltReq := false, inIssue := [] }
          else { q with haltReq := false }) (fun _ => True) ∧
        answers (.dbgStatus n) 0 q (· = BitVec.ofNat 32 (bit q.debugHalted + 2 * bit q.intrap + 4 * bit (q.phase ≠ .live)))))

/-- A queue of the partition with an open service core is created empty. A tail doorbell at most 64 ahead is taken, one further ahead is refused with reason 1. An AM bell makes its slot PENDING. The earliest message at a service core for an idle context of its tenant starts it in the start state with status 2; a malformed one gets 6. LAUNCH refuses a bad entry with reason 2, and accepts a record of an unused launch ID, malformed ones failing with reason 1; the launch remembers which earlier launches its dependences name, and whether one had failed; TEMPLATE does so with its device queue. LOADER is taken and starts a loader program (LSTATE 2) or fails (4), stopping an earlier one of its queue first (1) and going on when that has ended; LOADER_STOP stops it. The model's readings: the order of refusal and failure reasons, and that dependences go by acceptance order (log 22); that the LOADER entry is taken first and then waits (log 25); status 4 for an idle context of a partition that stops for a switch (log 46). -/
def Obligations.QueuesAndTheirCommands : Prop :=
  ∀ (s : State) (q svc : Nat) (h : HostQueue),
    (∀ p, q < 1024 → svc < 64 → lookup? s.queues q = none → lookup? s.partitions (q / 16) = some p → q ∈ p.queues →
      s.queues.countP (fun x => x.2.svc = svc && x.2.life ≠ .torn) < 16 →
      ∃ t g, exec (.hostQueueCreate q svc) s = .next t ∧ lookup? t.queues q = some g ∧ g.svc = svc ∧ g.life = .inUse ∧ g.sqHead = 0 ∧
        g.sqTail = 0 ∧ g.doorbells = [] ∧ t.mem = s.mem ∧ ∀ r, r ≠ q → lookup? t.queues r = lookup? s.queues r) ∧
    (lookup? s.queues q = some h → h.life = .inUse → exec (.hostQueueCreate q svc) s = .next s) ∧
    (lookup? s.queues q = some h → h.life = .inUse → s.bootStage = 6 →
      (∀ tail : BitVec 16,
        ((tail - h.sqHead).toNat ≤ 64 → exec (.sqTailDoorbell q tail) s = .next { s with
          queues := assign s.queues q { h with sqTail := tail, doorbells := h.doorbells ++ [.sq tail s.order] }, order := s.order + 1 }) ∧
        (64 < (tail - h.sqHead).toNat → exec (.sqTailDoorbell q tail) s = .next { s with
          queues := assign s.queues q { h with
            refCount := min (h.refCount + 1) 0xFFFF, refEntry := tail.extractLsb' 0 8, refReason := 1 }, order := s.order + 1 })) ∧
      (∀ slot : BitVec 3,
        (h.amStatus[slot.toNat] = 1 → exec (.amBell q slot) s = .next s) ∧
        (h.amStatus[slot.toNat] ≠ 1 → ∃ t g, exec (.amBell q slot) s = .next t ∧ lookup? t.queues q = some g ∧
          g.amStatus = h.amStatus.set slot.toNat 1 ∧ t.order = s.order + 1 ∧ g.doorbells = h.doorbells ++ [.am slot.toNat
            ((List.range 4).map (fun n => lookupD 0 h.slotWords (4 * slot.toNat + n))) s.order])) ∧
      (∀ (n slot : Nat) (w0 w1 w2 w3 : Word) rest, h.svc = svc → s.firstBell svc = some n →
        h.pending = .am slot [w0, w1, w2, w3] n :: rest → slot < 8 →
        (∀ p ∈ s.queues, ∀ sl ws r, p.2.pending = .am sl ws n :: r → p = (q, h)) →
        (w1.getLsbD 0 = true ∨ w0.toNat % 4096 ≠ 0 → ∃ t g, exec (.activeMessage svc) s = .next t ∧ t.ctxs = s.ctxs ∧
          lookup? t.queues q = some g ∧ g.amStatus = h.amStatus.set! slot 6 ∧ g.doorbells = rest) ∧
        (w1.getLsbD 0 = false → w0.toNat % 4096 = 0 →
          let st := w0.toNat / 2 ^ 28; let c := w0.toNat / 2 ^ 17 % 2048; let x := w0.toNat / 2 ^ 12 % 4
          let a := AgentId.core st c (w0.toNat / 2 ^ 14 % 8) x
          (1280 ≤ c ∨ st * 4 + quadrant c ≠ svc ∨ s.clusterTenant st c ≠ some (q / 16) → ∃ t g, exec (.activeMessage svc) s = .next t ∧
            t.ctxs = s.ctxs ∧ lookup? t.queues q = some g ∧ g.amStatus = h.amStatus.set! slot 5) ∧
          (c < 1280 → st * 4 + quadrant c = svc → s.clusterTenant st c = some (q / 16) → s.heldAlone st c = false → s.holdsSaved a = true →
            (s.ctxOf a).phase ≠ .live → ∃ t g, exec (.activeMessage svc) s = .next t ∧ t.ctxs = s.ctxs ∧
              lookup? t.queues q = some g ∧ g.amStatus = h.amStatus.set! slot 4) ∧
          (c < 1280 → st * 4 + quadrant c = svc → s.clusterTenant st c = some (q / 16) → s.heldAlone st c = false → s.holdsSaved a = false →
            ((s.ctxOf a).phase = .live → ∃ t g, exec (.activeMessage svc) s = .next t ∧ t.ctxs = s.ctxs ∧
              lookup? t.queues q = some g ∧ g.amStatus = h.amStatus.set! slot 3) ∧
            ((s.ctxOf a).phase = .idle → ∃ t g, exec (.activeMessage svc) s = .next t ∧ lookup? t.queues q = some g ∧
              g.amStatus = h.amStatus.set! slot 2 ∧ g.doorbells = rest ∧ t.mem = s.mem ∧
              (let k := t.ctxOf a
               k.phase = .live ∧ k.tenant = q / 16 ∧ k.origin = .message q ∧ k.pc = h.text + w1.setWidth 48 ∧ k.getX 10 = w2 ∧
                k.getX 11 = w3 ∧ k.getX 12 = BitVec.ofNat 32 slot ∧ k.getX 13 = BitVec.ofNat 32 q ∧
                k.getX 3 = BitVec.ofNat 32 (x * 0x8000) ∧ k.prv = false ∧
                ∀ e : EReg, (k.ep e).st = .none ∧ (k.ep e).gen = ((s.ctxOf a).ep e).gen)))))) ∧
    (∀ e, s.nextEntry q = some e → lookup? s.queues q = some h →
      let w (n : Nat) : Nat := ((e[n]?).getD 0).toNat
      let cmd := w 0 / 2 ^ 24
      let addr := w 2 % 2 ^ 16 * 2 ^ 32 + w 1
      let refused (i : Instr) (n : Nat) : Prop := ∃ t g, exec i s = .next t ∧ t.launches = s.launches ∧ lookup? t.queues q = some g ∧
        g.sqHead = h.sqHead + 1 ∧ g.refCount = min (h.refCount + 1) 0xFFFF ∧ g.refEntry = h.sqHead.extractLsb' 0 8 ∧
        g.refReason = BitVec.ofNat 4 n
      (badEntry e = true → (cmd ≠ 2 → cmd ≠ 3 → refused (.launch q) 2) ∧ (cmd = 2 → refused (.template q) 2) ∧
        (cmd = 3 → (w 3).testBit 21 = false → refused (.loader q) 2) ∧ (cmd = 3 → (w 3).testBit 21 = true → refused (.loaderStop q) 2)) ∧
      (∀ u ws, badEntry e = false → cmd = 1 ∨ cmd = 2 → s.readWordsVa (q / 16) addr 16 = (u, some ws) → (cmd = 2 → s.badDevice q e = false) →
        ((ws[7]?).getD 0).toNat % 32 = 0 → u.launch? q ((ws[2]?).getD 0) = none →
        let i := if cmd = 1 then Instr.launch q else .template q
        let early (d : Word) : Prop := ∃ k, u.launch? q d = some k
        let dq : Option DeviceQueue := if cmd = 1 then none else some ⟨w 3 / 2 ^ 28, w 3 / 2 ^ 22 % 64, w 3 % 2 ^ 21, w 4 % 2 ^ 13,
          BitVec.ofNat 32 (w 5), (u.launch? q (BitVec.ofNat 32 (w 5))).map Launch.order,
          (u.launch? q (BitVec.ofNat 32 (w 5))).isNone && u.recentStatus q (BitVec.ofNat 32 (w 5)) ≠ some 1, 0, none, none⟩
        ∃ t l g, exec i s = .next t ∧ t.launches = u.launches ++ [l] ∧ l.q = q ∧ l.recWords = ws ∧ l.order = u.order ∧ l.dq = dq ∧
          l.teams = [] ∧ lookup? t.queues q = some g ∧ g.sqHead = h.sqHead + 1 ∧
          (recordMalformed (fun n => ((ws[n]?).getD 0).toNat) = true → l.status = some ⟨2, 1⟩) ∧
          (recordMalformed (fun n => ((ws[n]?).getD 0).toNat) = false → cmd = 1 →
            ((∃ d ∈ l.deps, ¬early d ∧ u.recentStatus q d = none) → l.status = some ⟨2, 3⟩) ∧
            ((∀ d ∈ l.deps, early d ∨ u.recentStatus q d ≠ none) → l.status = none ∧
              (∀ n, n ∈ l.needs ↔ ∃ d ∈ l.deps, (u.launch? q d).map Launch.order = some n) ∧
              (l.depFailed = true ↔ ∃ d ∈ l.deps, ¬early d ∧ u.recentStatus q d ≠ some 1)))) ∧
      (let a := AgentId.memoryCore (w 3 / 2 ^ 28) (w 3 / 2 ^ 22 % 64)
       cmd = 3 → badEntry e = false →
        ((w 3).testBit 21 = false → s.badAgent q a = true → refused (.loader q) 7) ∧
        ((w 3).testBit 21 = false → s.badAgent q a = false → (s.loaderOf a).isSome = true → ∃ t g, exec (.loader q) s = .next t ∧
          lookup? t.queues q = some g ∧ g.lstate = 1 ∧ g.sqHead = h.sqHead + 1 ∧ g.starting = some (a, e) ∧
          ((s.ctxOf a).vloop = none → (s.ctxOf a).pend = .none → (s.ctxOf a).retiring = none →
            (t.ctxOf a).retiring = some .stopped)) ∧
        ((w 3).testBit 21 = false → s.badAgent q a = false → s.loaderOf a = none → ∃ t g, exec (.loader q) s = .next t ∧
          lookup? t.queues q = some g ∧ g.sqHead = h.sqHead + 1 ∧ g.starting = none ∧
          (((t.ctxOf a).phase = .live ∧ (t.ctxOf a).origin = .loader q ∧ (t.ctxOf a).getX 10 = BitVec.ofNat 32 (w 5) ∧ g.lstate = 2) ∨
            ((t.ctxOf a).phase = .idle ∧ g.lstate = 4 ∧ g.lcause = 0xFF))) ∧
        ((w 3).testBit 21 = true → s.loaderOf a = some q → (s.ctxOf a).vloop = none → (s.ctxOf a).pend = .none →
          (s.ctxOf a).retiring = none → ∃ t g, exec (.loaderStop q) s = .next t ∧ (t.ctxOf a).retiring = some .stopped ∧
            (t.ctxOf a).stopped = true ∧ lookup? t.queues q = some g ∧ g.sqHead = h.sqHead + 1) ∧
        ((w 3).testBit 21 = true → s.loaderOf a ≠ some q → ∃ t g, exec (.loaderStop q) s = .next t ∧ t.ctxs = s.ctxs ∧
          lookup? t.queues q = some g ∧ g.sqHead = h.sqHead + 1 ∧ g.lstate = h.lstate))) ∧
    (∀ a e, lookup? s.queues q = some h → h.life = .inUse → s.bootStage = 6 → h.starting = some (a, e) → s.loaderOf a = none →
      let r := ((s.parkEnds a 6).updQueue q (fun k => { k with starting := none })).loadLoader q a e
      ∃ t g, exec (.loader q) s = .next t ∧ lookup? t.queues q = some g ∧ g.sqHead = h.sqHead ∧ g.starting = none ∧
        (r.2 = true → (t.ctxOf a).phase = .live ∧ (t.ctxOf a).origin = .loader q ∧ g.lstate = 2) ∧
        (r.2 = false → (t.ctxOf a).phase = .idle ∧ g.lstate = 4 ∧ g.lcause = 0xFF))

/-- A launch whose dependences are done becomes eligible, or fails with reason 5 when too large; a failed one gives status 5. An advertisement takes the free contexts; a batch sends as many teams as fit, at most 64. A placed team's members are reserved in their start state and then loaded: they go live at the entry point, or the launch fails with reason 2. The completion record is written (of words 1 to 7 those that are not yet in memory), the launch forgotten, and each launch that names it learns how it ended. MSIX_UNMASK sends a pending vector. A template launch consumes a record at HEAD, or goes on with one that it has read and cleared, discards a malformed one, and learns its producer's end. SWAP_START keeps the resident sites; a quantum boundary counts and schedules the swap of a team. The model's readings: TOO_LARGE is decided at eligibility (log 22); batches that would overfill a queue wait (log 23); swap sites, the discard of a malformed record and what happens between boundaries (logs 23, 24). -/
def Obligations.DispatchPlacementAndCompletion : Prop :=
  ∀ (s : State) (q : Nat) (lid : Word) (l : Launch), s.launch? q lid = some l →
    (l.status = none → l.eligible = false → l.depFailed = false → l.needs ≠ [] → exec (.launchEligible q lid) s = .next s) ∧
    (l.status = none → l.eligible = false → l.depFailed = false → l.needs = [] →
      (s.tooLarge l = false → ∃ t, exec (.launchEligible q lid) s = .next t ∧ t.launch? q lid = some { l with eligible := true }) ∧
      (s.tooLarge l = true → ∃ t, exec (.launchEligible q lid) s = .next t ∧ t.launch? q lid = some { l with status := some ⟨2, 5⟩ })) ∧
    (l.status = none → l.eligible = false → l.depFailed = true →
      ∃ t, exec (.launchEligible q lid) s = .next t ∧ t.launch? q lid = some { l with status := some ⟨5, 0⟩ }) ∧
    (∀ st ten, s.clustersOf ten st ≠ [] → lookup? s.ads (st, ten) = none → let f := s.freeOn ten st
      ∃ t, exec (.advertisement st ten) s = .next t ∧ lookup? t.ads (st, ten) = some ⟨f.1, f.2, s.time.toNat, f, false⟩ ∧ t.mem = s.mem) ∧
    (∀ st ten, s.clustersOf ten st = [] → lookup? s.ads (st, ten) = none → exec (.advertisement st ten) s = .next s) ∧
    (∀ st ten ad, lookup? s.ads (st, ten) = some ad → let f := s.freeOn ten st
      ((f = ad.seen ∧ ad.changed = false) ∨ s.time.toNat < ad.sentAt + 64 → exec (.advertisement st ten) s = .next s) ∧
      (f ≠ ad.seen ∨ ad.changed = true → ad.sentAt + 64 ≤ s.time.toNat → ∃ t, exec (.advertisement st ten) s = .next t ∧
        lookup? t.ads (st, ten) = some ⟨f.1, f.2, s.time.toNat, f, false⟩ ∧ t.mem = s.mem)) ∧
    (∀ st n, s.lastBatch = none → (∀ k ∈ s.launches, k.waiting = true → k.reserved = []) → s.pickLaunch = some l → l.dv = false →
      s.bestStack l = some st → n = min 64 (min (l.total - l.nextTeam) ((s.advert st l.tenant).1 / l.size)) →
      (s.stackQueue st).length + n ≤ 256 → ∃ t, exec .batch s = .next t ∧ t.launch? q lid = some { l with nextTeam := l.nextTeam + n } ∧
        t.stackQueue st = s.stackQueue st ++ (List.range n).map (fun i =>
          ⟨q, lid, l.nextTeam + i, l.prio, s.order + i, lookup? l.records (l.nextTeam + i)⟩) ∧ t.lastBatch = some s.time.toNat) ∧
    (∀ n, s.lastBatch = some n → s.time.toNat < n + 32 → exec .batch s = .next s) ∧
    (∀ st (w : Queued) (x : Site), let live (w : Queued) : Bool := match s.launch? w.q w.lid with
        | some k => k.status.isNone
        | none => false
      let queue := sortQueued ((s.stackQueue st).filter live)
      { s with stackQueues := assign s.stackQueues st queue }.placeable st queue = some (w, l, x) → l.dv = false →
      x.seats.Pairwise (fun p r => p.ctx ≠ r.ctx) → ∃ t, exec (.teamPlacement st) s = .next t ∧
        t.stackQueue st = queue.filter (· ≠ w) ∧ t.mem = s.mem ∧
        (∃ l', t.launch? q lid = some l' ∧ l'.teams = l.teams ++ [⟨w.team, x, w.record, .loading, [], false, false⟩]) ∧
        ∀ i (h : i < x.seats.length), let k := t.ctxOf x.seats[i].ctx
          k.phase = .reserved ∧ k.tenant = l.tenant ∧ k.origin = .member q lid w.team i ∧ k.getX 12 = BitVec.ofNat 32 w.team ∧
            k.getX 13 = BitVec.ofNat 32 i ∧ k.getX 14 = BitVec.ofNat 32 l.size ∧
            (w.record = none → k.getX 10 = l.arg 0 ∧ k.getX 11 = l.arg 1)) ∧
    (∀ n (w : Team), l.team? n = some w → w.phase = .loading →
      (∀ u pc tcm scr, s.readTeam l = (u, some (pc, tcm, scr)) → ∃ t l', exec (.teamLoadComplete q lid n) s = .next t ∧
        t.launch? q lid = some l' ∧ l'.team? n = some { w with phase := .running } ∧
        ∀ p ∈ w.site.seats, (t.ctxOf p.ctx).phase = .live ∧ (t.ctxOf p.ctx).pc = BitVec.ofNat 48 pc) ∧
      (∀ u, s.readTeam l = (u, none) → l.status = none → ∃ t l', exec (.teamLoadComplete q lid n) s = .next t ∧
        t.launch? q lid = some l' ∧ l'.status = some ⟨2, 2⟩ ∧ l'.team? n = none)) ∧
    (s.finalStatus l = none → exec (.completionRecord q lid) s = .next s) ∧
    (∀ c u flat ws done, s.finalStatus l = some c → l.writing = some (ws, done) → ws.length = 8 → l.dq = none →
      s.vaFlat l.tenant l.record .write = (u, some flat) → Memory.wf s.mem = true →
      ∃ t, exec (.completionRecord q lid) s = .next t ∧ t.launch? q lid = none ∧ t.recentStatus q lid = some c.status ∧
        ∀ n < 8, t.wordAt (flat + 4 * n) = if n ∈ done then s.wordAt (flat + 4 * n) else ws.getD n 0) ∧
    (∀ c u flat, s.finalStatus l = some c → l.writing = none → l.dq = none → s.vaFlat l.tenant l.record .write = (u, some flat) →
      Memory.wf s.mem = true → ∃ t, exec (.completionRecord q lid) s = .next t ∧ t.launch? q lid = none ∧ t.recentStatus q lid = some c.status ∧
        t.wordAt flat = BitVec.ofNat 32 (3 * 2 ^ 24 + c.reason * 2 ^ 8 + c.status) ∧ t.wordAt (flat + 4) = lid ∧
        t.wordAt (flat + 8) = BitVec.ofNat 32 l.tdone ∧ t.wordAt (flat + 12) = BitVec.ofNat 32 l.tfail ∧
        t.wordAt (flat + 16) = s.globalClock.extractLsb' 0 32 ∧ t.wordAt (flat + 20) = s.globalClock.extractLsb' 32 32 ∧
        t.wordAt (flat + 24) = l.fctx ∧ ∀ q' lid' k, (q' ≠ q ∨ lid' ≠ lid) → s.launch? q' lid' = some k → ∃ k', t.launch? q' lid' = some k' ∧
          k'.needs = k.needs.filter (· ≠ l.order) ∧ (k'.depFailed = true ↔ k.depFailed = true ∨ c.status ≠ 1 ∧ l.order ∈ k.needs) ∧
          ∀ d, k.dq = some d → d.producer = some l.order → k'.dq = some { d with producer := none, lost := c.status ≠ 1 }) ∧
    (∀ fn v, fn < 64 → v < 32 → let f := s.funcOf fn; let m := (1 : BitVec 32) <<< v
      ∃ t, exec (.msixUnmask fn v) s = .next t ∧ t.mem = s.mem ∧ t.ctxs = s.ctxs ∧
        t.funcOf fn = if f.msixEnable && !f.msixMask && f.vecPend.getLsbD v then
          { f with vecMask := f.vecMask &&& ~~~m, vecPend := f.vecPend &&& ~~~m, sent := (v, f.vecAddr.toList.getD v 0, f.vecData.toList.getD v 0) :: f.sent }
        else { f with vecMask := f.vecMask &&& ~~~m }) ∧
    (∀ d, l.dq = some d → l.status = none → d.final = none →
      (∀ (head : Word) ws, let base := sliceAt d.stack d.slice d.off; let slot := base + 64 + head.toNat % d.cap * 32
        let v := s.orderFor .secureCore
        l.eligible = true → v.wordAt (base + 4) = head → v.eccBad = [] → Memory.wf v.mem = true →
        (d.got = none → d.lost = false → ws = wordsOf 8 (v.bytesAt slot 32) →
          (v.wordAt slot = 0 → ∃ t, exec (.recordConsume q lid) s = .next t ∧ t.mem = v.mem ∧ t.launches = s.launches) ∧
          (v.wordAt slot ≠ 0 → raggedMalformed ws = false → d.started < l.count → ∃ t l', exec (.recordConsume q lid) s = .next t ∧
            t.wordAt slot = 0 ∧ t.wordAt (base + 4) = head + 1 ∧ t.launch? q lid = some l' ∧
            l'.records = l.records ++ [(d.started, ws)] ∧ l'.dq = some { d with started := d.started + 1 }) ∧
          (v.wordAt slot ≠ 0 → raggedMalformed ws = true → ∃ t, exec (.recordConsume q lid) s = .next t ∧ t.wordAt slot = 0 ∧
            t.wordAt (base + 4) = head + 1 ∧ t.wordAt (base + 8) = v.wordAt (base + 8) + 1 ∧ t.launch? q lid = some l)) ∧
        (d.got = some (true, ws) → ∃ t l', exec (.recordConsume q lid) s = .next t ∧ t.wordAt (base + 4) = head + 1 ∧
          t.wordAt slot = v.wordAt slot ∧ t.launch? q lid = some l' ∧
          (raggedMalformed ws = false → d.started < l.count →
            l'.records = l.records ++ [(d.started, ws)] ∧ l'.dq = some { d with started := d.started + 1, got := none }) ∧
          (raggedMalformed ws = true → t.wordAt (base + 8) = v.wordAt (base + 8) + 1 ∧ l' = { l with dq := some { d with got := none } }))) ∧
      (d.got ≠ none → exec (.producerComplete q lid) s = .next s) ∧
      (d.producer ≠ none → exec (.producerComplete q lid) s = .next s) ∧
      (d.producer = none → d.got = none →
        (d.lost = false → ∃ t, exec (.producerComplete q lid) s = .next t ∧
          t.launch? q lid = some { l with dq := some { d with final := some (s.wordAt (sliceAt d.stack d.slice d.off)) } }) ∧
        (d.lost = true → ∃ t, exec (.producerComplete q lid) s = .next t ∧
          t.launch? q lid = some { l with status := some ⟨5, 0⟩ }))) ∧
    (∀ n, l.firstPlaced = some n → l.dv = false → l.swapAsked = false → l.status = none → n + l.quantum ≤ s.globalClock.toNat →
      l.teams.length < l.total → s.bestStack l = none → (∃ w ∈ l.teams, w.phase ≠ .retired) →
      ∃ t l', exec (.swapStart q lid) s = .next t ∧ t.launch? q lid = some l' ∧ l'.swapAsked = true ∧ l'.swapStart = s.globalClock.toNat ∧
        l'.swapN = 0 ∧ ∀ x, x ∈ l'.sites ↔ ∃ w ∈ l.teams, w.phase ≠ .retired ∧ w.site = x) ∧
    (l.sites = [] ∨ s.globalClock.toNat < l.swapStart + (l.swapN + 1) * l.quantum → exec (.quantumBoundary q lid) s = .next s) ∧
    (∀ x w p, l.sites = [x] → s.frozen l.tenant = false → l.swapStart + (l.swapN + 1) * l.quantum ≤ s.globalClock.toNat →
      l.residentAt x = some w → w.phase = .running → 1 < (l.siteTeams 0).length → lookup? s.partitions l.tenant = some p →
      s.poolUsed l.tenant + s.teamArea l w ≤ p.poolSize → (∀ a ∈ s.teamCtxs q lid w.index, (s.ctxOf a).innermost = none) →
      (∀ y ∈ s.switches, y.2.team ≠ some (q, lid, w.index)) → ∃ t y, exec (.quantumBoundary q lid) s = .next t ∧
        t.switches = s.switches ++ [(64 + s.order, y)] ∧ y.team = some (q, lid, w.index) ∧ y.phase = .scheduled ∧
        y.stop = s.globalClock.toNat ∧ (∀ a ∈ s.teamCtxs q lid w.index, (t.ctxOf a).switchat = s.globalClock) ∧
        t.launch? q lid = some { l with swapN := l.swapN + 1 })

/-- SWITCH_SCHEDULE sets the stop time of every context of the partition but those of a team being swapped, whose own it is; all ones cancels. SWITCH_STOP stops each member that may stop once its core's TIME is at the stop time, and settles a set whose members have stopped. SAVE records the contexts of a settled set in its save areas and vacates them; RESTORE puts them back, stopped, or, where an area has changed, leaves every member to retire as by a fatal trap with ECC_UNCORRECTABLE, which its next turn does once its work has ended; SWITCH_RESUME lets each go on once its core's TIME is at the resume time, with the stop time of a partition switch that is scheduled. QUEUE_TEARDOWN discards entries and gives every launch of the queue a status; TEARDOWN_STOP ends it once nothing is left. FLR clears the page and the statuses. PARTITION_CHANGE zeroes what is gained, keeps every other byte, and refuses an overlap, and to take a memory core from a loader program that it runs; a channel keeps no port that its tenant loses. The model's readings: copies of TIME (log 1); places, numbers and interiors of save areas (15); changes of a scheduled switch and what a failed restore drops (39); MSI-X state over FLR (40); zeroing and refusals of a change (41). -/
def Obligations.SwitchesTeardownsAndPartitions : Prop :=
  ∀ (s : State) (set : Nat) (w : Switch),
    (∀ (ten : Nat) (stop res : BitVec 64) p, ten < 64 → lookup? s.partitions ten = some p → lookup? s.switches ten = none →
      (stop ≠ BitVec.allOnes 64 → ∃ t y, exec (.switchSchedule ten stop res) s = .next t ∧ lookup? t.switches ten = some y ∧
        y.stop = stop.toNat ∧ y.resume = res.toNat ∧ y.phase = .scheduled ∧ y.team = none ∧ y.tenant = ten ∧ t.mem = s.mem ∧
        ∀ st c k x, (s.ctxOf (.core st c k x)).phase ≠ .idle → s.clusterTenant st c = some ten →
          s.swapping (.core st c k x) (s.ctxOf (.core st c k x)).origin = false → (t.ctxOf (.core st c k x)).switchat = stop) ∧
      (stop = BitVec.allOnes 64 → ∃ t, exec (.switchSchedule ten stop res) s = .next t ∧ lookup? t.switches ten = none)) ∧
    (lookup? s.switches set = some w →
      (w.phase = .scheduled → let u := s.stopSet w
        (s.time.toNat < w.stop → (∀ a ∈ s.setCtxs w, (s.coreClock a).toNat < w.stop) → exec (.switchStop set) s = .next s) ∧
        (w.stop ≤ s.time.toNat → u.setSettled w = true → ∃ t, exec (.switchStop set) s = .next t ∧
          (lookup? t.switches set).map Switch.phase = some .settled ∧ t.mem = u.mem) ∧
        (s.time.toNat < w.stop ∨ u.setSettled w = false → exec (.switchStop set) s = .next u) ∧
        (∀ a ∈ s.setCtxs w, let c := s.ctxOf a
          (u.ctxOf a).stopped = (c.stopped || (decide (w.stop ≤ (s.coreClock a).toNat) && c.retiring.isNone && c.stoppable)))) ∧
      (∀ p areas, w.phase = .settled → w.team = none → lookup? s.partitions w.tenant = some p →
        (∀ a ∈ s.setCtxs w, s.memberSettled w a = true) → let cs := s.setClusters w; let l := s.records w
        let spills := w.spillers s.draws
        placeAreas p.poolBase p.poolSize (s.areasOf w.tenant) ((cs.zipIdx).flatMap (fun c =>
          (inLots (s.clusterSections l (s.domShare w.tenant cs.length c.2) (shareOf spills cs.length c.2) c.1.1 c.1.2)).map
            (saveArea w s.order))) = areas →
        (areas = none → exec (.save set) s = .next s) ∧
        (∀ xs, areas = some xs → ∃ t y, exec (.save set) s = .next t ∧ lookup? t.switches set = some y ∧ y.phase = .saved ∧ y.ctxs = l ∧
          y.areas = xs ∧ t.order = s.order + 1 ∧ ∀ a ∈ s.setCtxs w, ⟨a, s.recorded a⟩ ∈ y.ctxs ∧ (s.eccBad = [] → s.recorded a = s.ctxOf a) ∧
            (t.ctxOf a).phase = .saved)) ∧
      (let ready := s.vacantFor w = true ∧ s.hasRoom w = true ∧ (w.team = none ∨ s.frozen w.tenant = false)
       w.phase = .saved → w.due = true → (¬ready → exec (.restore set) s = .next s) ∧ (ready →
        (s.areasIntact w = false → w.ctxs.Pairwise (fun x y => x.ag ≠ y.ag) → ∃ t, exec (.restore set) s = .next t ∧
          lookup? t.switches set = none ∧ t.mem = s.mem ∧ t.mesh = s.mesh ∧ t.accs = w.accs ++ s.accs ∧
          ∀ x ∈ w.ctxs, t.ctxOf x.ag = { x.ctx with
            phase := .live, stopped := false, flushing := true, retiring := some (.fatal Cause.ecc), contribsOut := 0, wait := .none, inIssue := []
            pend := .none, owed := 0, count := 0, fetchBuf := [], eps := x.ctx.eps.map (fun e => { e with slot := none }) }) ∧
        (s.areasIntact w = true → w.ctxs.Pairwise (fun x y => x.ag ≠ y.ag) → ∃ t, exec (.restore set) s = .next t ∧
          (lookup? t.switches set).map Switch.phase = some .restored ∧ t.mesh = w.mesh ++ s.mesh ∧ t.accs = w.accs ++ s.accs ∧
          ∀ x ∈ w.ctxs, (t.ctxOf x.ag).stopped = true ∧ (t.ctxOf x.ag).f = x.ctx.f ∧ (t.ctxOf x.ag).tvec = x.ctx.tvec ∧
            (t.ctxOf x.ag).prv = x.ctx.prv ∧ (t.ctxOf x.ag).eps = x.ctx.eps))) ∧
      (let go (a : AgentId) : Ctx := { s.ctxOf a with stopped := false, switchat := s.stopTime w.tenant }
       let early := (∃ a ∈ s.setCtxs w, s.notYet w a = true) ∨ (s.setCtxs w = [] ∧ s.time.toNat < w.resume)
       w.phase = .restored →
        (early → ∃ t, exec (.switchResume set) s = .next t ∧ t.switches = s.switches ∧ t.mem = s.mem ∧ ∀ a ∈ s.setCtxs w,
          t.ctxOf a = if (s.ctxOf a).stopped = true ∧ w.resume ≤ (s.coreClock a).toNat then go a else s.ctxOf a) ∧
        (¬early → ∃ t, exec (.switchResume set) s = .next t ∧ lookup? t.switches set = none ∧ t.mem = s.mem ∧
          ∀ a ∈ s.setCtxs w, t.ctxOf a = go a))) ∧
    (∀ ag code, (s.ctxOf ag).retiring = some (.fatal code) → let u := (({ s with cur := ag } : State).cancelMatrix ag).startFlush ag
      (u.quiet ag = false → exec (.trapDelivery ag) s = .next u) ∧
      (u.quiet ag = true → ∃ t, exec (.trapDelivery ag) s = .next t ∧ (t.ctxOf ag).phase ≠ .live ∧ (t.ctxOf ag).retiring = none ∧
        ∀ e : EReg, ((t.ctxOf ag).ep e).st = .none ∧ ((t.ctxOf ag).ep e).gen = ((s.ctxOf ag).ep e).gen + 1)) ∧
    (∀ q h, q < 1024 → lookup? s.queues q = some h →
      (s.tearBusy = true → exec (.queueTeardown q) s = .next s) ∧
      (s.tearBusy = false → h.life = .inUse → ∃ t g, exec (.queueTeardown q) s = .next t ∧ lookup? t.queues q = some g ∧
        g.life = .tearing s.time.toNat ∧ g.doorbells = [] ∧ g.sqHead = h.sqTail ∧ ∀ l ∈ t.launches, l.q = q → l.status.isSome = true) ∧
      (∀ n, h.life = .tearing n →
        (s.time.toNat < n + 4096 → exec (.teardownStop q) s = .next s) ∧
        (n + 4096 ≤ s.time.toNat → s.queueCtxs q = [] → (∀ l ∈ s.launches, l.q ≠ q) → s.switches = [] →
          ∃ t, exec (.teardownStop q) s = .next t ∧ (lookup? t.queues q).map HostQueue.life = some .torn))) ∧
    (∀ fn, fn < 64 → ∃ t, exec (.functionLevelReset fn) s = .next t ∧
      (let f := t.funcOf fn; f.nonce = Vector.replicate 8 0 ∧ f.ready = false ∧ f.req = false ∧ f.report = [] ∧ f.accerr = 0 ∧
        f.vecMask = (s.funcOf fn).vecMask ∧ f.msixEnable = (s.funcOf fn).msixEnable) ∧
      ∀ n h, n < 16 → lookup? s.queues (fn * 16 + n) = some h →
        (lookup? t.queues (fn * 16 + n)).map HostQueue.amStatus = some (Vector.replicate 8 0)) ∧
    (∀ ten (p : Partition), let old := s.partOf ten
      let new : Partition := { p with debug := if (lookup? s.partitions ten).isSome then old.debug else p.debug }
      let clash := s.partitions.any (fun x => x.1 ≠ ten && partMeets x.2 new)
      (clash = true ∨ s.loaderBound ten new = false → exec (.partitionChange ten p) s = .next s) ∧
      (ten < 64 → s.bootStage = 6 → partValid new ten = true → clash = false → s.loaderBound ten new = true →
        (∀ r, (r ∈ new.rows ∧ r ∉ old.rows) ∨ (r ∈ old.rows ∧ r ∉ new.rows) → s.rowBusy r = false) →
        (old.poolBase = new.poolBase ∧ old.poolSize = new.poolSize) ∨ s.areasOf ten = [] → Memory.wf s.mem = true →
        ∃ t, exec (.partitionChange ten p) s = .next t ∧ lookup? t.partitions ten = some new ∧
          (∀ ag e, (s.ctxOf ag).phase = .live → ((t.ctxOf ag).ep e).port = ((s.ctxOf ag).ep e).port.filter (fun n => !(old.ports.contains n && !new.ports.contains n))) ∧
          ∀ a, t.byteAt a = if gains old new a then 0 else s.byteAt a))

/-- A request takes NONCE, and the report sets READY and clears REQ. A BAR 2 or 4 access of a word that the function may reach reads or writes it; others fail and count in ACCERR. A read follows the function's posted writes that have arrived; a write that may be reordered waits, and is then performed as one that may not (BAR number 8 more: the model's way, notes/assumptions 48). A flit with a right CRC in order is taken and acknowledged, one received before acknowledged, a bad one answered with NAK; a replay sends the flits again; a data flit takes the oldest mesh flits of one virtual channel in order and is kept; a lost lock or timeout retrains, after 1 ms the port is down and the ends that cross it close with cause LINK; a port comes back up. POWER_ON_RESET gives the state after reset; BOOT_STAGE goes on or stops with its error; throttling counts; thermal shutdown stops every context that may stop, and holds the module in reset when none is left; reported power is at most 12.0 kW, and PLIMIT. A soft error marks its word. The model's readings: a second single-bit error is uncorrectable (logs 12, 30); POWER_ON_RESET keeps the schedule, the draws and MODNUM, and the ERR values (41); ACK and NAK numbers, the 11,000-cycle timeout and the restart of numbers (42). -/
def Obligations.BoardHostAndLinks : Prop :=
  ∀ (s : State) (fn port : Nat), let f := s.funcOf fn; let x := s.portOf port; let now := s.time.toNat
    (fn < 64 → f.req = false → ∃ t, exec (.attestRequest fn) s = .next t ∧ t.funcOf fn = { f with req := true, asked := f.nonce } ∧
      t.mem = s.mem) ∧
    (f.req = true → ∃ t, exec (.attestReportReady fn) s = .next t ∧ (t.funcOf fn).ready = true ∧ (t.funcOf fn).req = false ∧
      s.reportHead fn <+: (t.funcOf fn).report ∧ (t.funcOf fn).report.length = (s.reportHead fn).length + 384) ∧
    (f.req = false → exec (.attestReportReady fn) s = .next s) ∧
    (∀ bar off size, exec (.hostBarRead fn bar off size) s = exec (.hostBarRead fn bar off size) (s.settleHost fn)) ∧
    (∀ bar off size (v : BitVec 64), fn < 64 → 1 ≤ size → size ≤ 8 → bar < 8 → exec (.hostBarWrite fn (8 + bar) off size v) s =
      .next { s with hostWrites := s.hostWrites ++ [⟨fn, bar, off, size, v⟩] }) ∧
    (∀ n y, s.hostWrites[n]? = some y → y.func < 64 → 1 ≤ y.size → y.size ≤ 8 → y.bar < 8 →
      exec (.hostBarWrite y.func y.bar y.off y.size y.value) { s with hostWrites := s.hostWrites.eraseIdx n } = .next (s.performHost n)) ∧
    ((∀ y ∈ s.hostWrites, y.func ≠ fn) →
    (∀ bar off size, 64 ≤ fn ∨ size = 0 ∨ 8 < size → exec (.hostBarRead fn bar off size) s = .next { s with hostData := some (1, 0) }) ∧
    (∀ off, fn < 64 → off % 4 = 0 → off + 4 ≤ 0x20000 →
      exec (.hostBarRead fn 0 off 4) s = .next { s with hostData := some (0, (s.readBar0 fn off).setWidth 64) }) ∧
    (∀ n, fn < 64 → n < 8 → ∃ t, exec (.hostBarRead fn 0 (0x10000 + 4 * n) 4) s = .next t ∧
      t.hostData = some (0, (f.nonce[n]!).setWidth 64)) ∧
    (∀ n (v : BitVec 64), fn < 64 → n < 8 → ∃ t, exec (.hostBarWrite fn 0 (0x10000 + 4 * n) 4 v) s = .next t ∧
      t.funcOf fn = { f with nonce := f.nonce.set! n (v.extractLsb' 0 32) } ∧ t.mem = s.mem) ∧
    (∀ off st sl o (v : BitVec 64), fn < 64 → off % 4 = 0 → bar2Home off = some (st, sl, o) →
      (s.bootStage ≠ 6 → exec (.hostBarRead fn 2 off 4) s = .next { s with hostData := some (1, 0) } ∧
        exec (.hostBarWrite fn 2 off 4 v) s = .next s) ∧
      (s.bootStage = 6 → s.sliceTenant st sl o ≠ some fn → ∃ t, exec (.hostBarRead fn 2 off 4) s = .next t ∧
        t.hostData = some (1, 0) ∧ (t.funcOf fn).accerr = f.accerr + 1 ∧ t.mem = s.mem) ∧
      (s.bootStage = 6 → s.sliceTenant st sl o = some fn → s.eccBad = [] → let flat := sliceAt st sl o
        (∃ t, exec (.hostBarRead fn 2 off 4) s = .next t ∧ t.hostData = some (0, (s.wordAt flat).setWidth 64) ∧ t.mem = s.mem) ∧
        (Memory.wf s.mem = true → ∃ t, exec (.hostBarWrite fn 2 off 4 v) s = .next t ∧ t.wordAt flat = v.extractLsb' 0 32 ∧
          ∀ n, n < flat ∨ flat + 4 ≤ n → t.byteAt n = s.byteAt n))) ∧
    (∀ off u flat, fn < 64 → off % 4 = 0 → off < 2 ^ 48 → s.bootStage = 6 → s.vaFlat fn off .read = (u, some flat) → u.hasBad flat 4 = false →
      (u.rowTenant flat = some fn →
        ∃ t, exec (.hostBarRead fn 4 off 4) s = .next t ∧ t.hostData = some (0, (u.wordAt flat).setWidth 64) ∧ t.mem = u.mem) ∧
      (u.rowTenant flat ≠ some fn → ∃ t, exec (.hostBarRead fn 4 off 4) s = .next t ∧ t.hostData = some (1, 0) ∧ t.mem = u.mem ∧
        (t.funcOf fn).accerr = (u.funcOf fn).accerr + 1))) ∧
    (port < 64 → x.state = .up →
      (∀ flit, flitOk flit = false → ∃ t y, exec (.linkFlitReceive port flit) s = .next t ∧ t.portOf port = y ∧
        y.outbox = bareFlit 2 x.expect (x.expect - 1) :: x.outbox ∧ y.expect = x.expect ∧ t.mem = s.mem) ∧
      (∀ flit, flitOk flit = true → flitType flit = 0 → flitSeq flit = x.expect → ∃ t, exec (.linkFlitReceive port flit) s = .next t ∧
        (let y := t.portOf port; y.expect = x.expect + 1 ∧ y.inbox = (flitSlots flit).reverse ++ x.inbox ∧ y.lastAck = flitAck flit ∧
          y.ackAt = now ∧ y.outbox = bareFlit 1 x.nextSeq x.expect :: x.outbox)) ∧
      (∀ flit, flitOk flit = true → flitType flit = 0 → flitSeq flit ≠ x.expect → (x.expect - flitSeq flit).toNat < 2048 →
        ∃ t, exec (.linkFlitReceive port flit) s = .next t ∧ (t.portOf port).inbox = x.inbox ∧ (t.portOf port).expect = x.expect ∧
          (t.portOf port).outbox = bareFlit 1 x.nextSeq (x.expect - 1) :: x.outbox) ∧
      (∀ sq fl n, x.replay = [(sq, fl, n)] → n < 3 → ∃ t, exec (.linkReplay port sq) s = .next t ∧
        t.portOf port = { x with replay := [(sq, fl, n + 1)], outbox := fl :: x.outbox, replays := x.replays + 1 }) ∧
      (x.ackAt + 11000 ≤ now → ∃ t, exec (.ackTimeout port) s = .next t ∧
        t.portOf port = { x with state := .retraining, retrains := x.retrains + 1, retrainAt := now }) ∧
      (now < x.ackAt + 11000 → exec (.ackTimeout port) s = .next s) ∧
      (∃ t, exec (.linkRetrain port) s = .next t ∧ t.ctxs = s.ctxs ∧
        t.portOf port = { x with state := .retraining, retrains := x.retrains + 1, retrainAt := now })) ∧
    (let q := ((s.enterFlits port 7).portOf port).queue
     let y := (s.partialAccess (.flit port)).portOf port
     port < 64 → x.state = .up → x.replay.length < 2048 → (∀ z ∈ q, z.1 < 16 ∧ z.2.2.length = 32) → ∀ z rest, q = z :: rest →
      ∃ fl, y.outbox = fl :: x.outbox ∧ y.replay = x.replay ++ [(x.nextSeq, fl, 0)] ∧ y.nextSeq = x.nextSeq + 1 ∧ flitOk fl = true ∧
        flitType fl = 0 ∧ flitSeq fl = x.nextSeq ∧ flitAck fl = x.expect - 1 ∧ flitSlots fl = (q.filter (fun w => w.1 = z.1)).take 7 ∧
        y.queue.filter (fun w => w.1 = z.1) = (q.filter (fun w => w.1 = z.1)).drop 7 ∧
        ∀ c, c ≠ z.1 → y.queue.filter (fun w => w.1 = c) = q.filter (fun w => w.1 = c)) ∧
    (port < 64 → x.state = .retraining →
      (now < x.retrainAt + 1100000 → ∃ t, exec (.retrainComplete port) s = .next t ∧ (t.portOf port).state = .up ∧
        (t.portOf port).outbox = (x.replay.map (·.2.1)).reverse ++ x.outbox) ∧
      (x.retrainAt + 1100000 ≤ now → ∃ t, exec (.linkDown port) s = .next t ∧
        t.portOf port = { x with state := .down, downs := x.downs + 1, replay := [], queue := [], entered := [] } ∧
        ∀ ag e, let z := (s.ctxOf ag).ep e; let y := (t.ctxOf ag).ep e
          (z.st = .opened → z.port = some port → y.st = .closed ∧ y.closedAt = (3, z.state, z.ctr)) ∧
          (z.port ≠ some port → y.st = z.st ∧ y.closedAt = z.closedAt) ∧ y.inbox.length = z.inbox.length ∧
          ∀ m g, m ∈ z.inbox → m.ep = some g → g.port = some port → g.closed = none → ∃ m' g', m' ∈ y.inbox ∧ m'.ep = some g' ∧
            g'.closed = some (3, g.state, if g.auto.hc g.state then (g.ctrs[g.state]?).getD 0 else 0))) ∧
    (port < 64 → x.state = .down → 5 ≤ s.bootStage → ∃ t, exec (.linkUp port) s = .next t ∧
      (let y := t.portOf port; y.state = .up ∧ y.nextSeq = 0 ∧ y.expect = 0 ∧ y.replay = [] ∧ y.queue = [] ∧ y.downs = x.downs)) ∧
    exec .powerOnReset s = .next { State.reset with moves := s.moves, draws := s.draws, modnum := s.modnum } ∧
    (s.bootErr = 0 → s.bootStage < 6 →
      (∃ t, exec (.bootStage 0) s = .next t ∧ t.bootStage = s.bootStage + 1 ∧ t.bootErr = 0 ∧
        (s.bootStage = 2 → t.mem = [] ∧ t.eccBad = [] ∧ t.eccOne = []) ∧ (s.bootStage ≠ 2 → t.mem = s.mem)) ∧
      (s.bootStage = 2 → ∃ t, exec (.bootStage 3) s = .next t ∧ t.bootErr = 3 ∧ t.bootStage = 3) ∧
      (s.bootStage = 4 → ∃ t, exec (.bootStage 4) s = .next t ∧ t.bootErr = 4 ∧ t.bootStage = 5)) ∧
    (∀ n, ∃ t, exec (.powerThrottle n) s = .next t ∧ lookupD 0 t.sensors.throttled 16 = lookupD 0 s.sensors.throttled 16 + n ∧
      t.ctxs = s.ctxs ∧ t.mem = s.mem) ∧
    (∀ st n, st < 16 → ∃ t, exec (.thermalThrottle st n) s = .next t ∧ t.ctxs = s.ctxs ∧ t.mem = s.mem ∧
      lookupD 0 t.sensors.throttled st = lookupD 0 s.sensors.throttled st + n ∧ 951 ≤ lookupD 0 t.sensors.temp st) ∧
    (∀ st, st < 16 → ∃ t, exec (.thermalShutdown st) s = .next t ∧ t.overheated = true ∧
      (∀ a, (s.ctxOf a).phase = .live → (s.ctxOf a).vloop = none → (s.ctxOf a).pend = .none → (t.ctxOf a).retiring.isSome = true) ∧
      ((∀ a, (s.ctxOf a).phase ≠ .live) → s.switches = [] → t.thermalStop = true)) ∧
    (∃ t, exec .telemetryUpdate s = .next t ∧ t.ctxs = s.ctxs ∧ t.mem = s.mem ∧ t.draws = s.draws + 32 ∧
      ((List.range 16).map (fun st => lookupD 0 t.sensors.power st)).sum ≤ min s.plimit 1200 ∧
      ∀ g < 64, (t.funcOf g).telem = s.measureStacks.telemetry g) ∧
    (∃ t st, exec .machineReport s = .next t ∧ st < 16 ∧ t.ctxs = s.ctxs ∧ (let h := s.hartOf (.serviceCore st 0)
      t.hartOf (.serviceCore st 0) = if (h.headM + 128 - h.tailM) % 128 = 64 then { h with lost := min (h.lost + 1) 0xFFFF }
        else { h with headM := (h.headM + 1) % 128 })) ∧
    (∀ a, isByte a = true → let w := eccWord a
      (s.eccBad.contains w = false →
        exec (.softError a true) s = .next { s with eccBad := w :: s.eccBad, eccOne := s.eccOne.filter (· ≠ w) } ∧
        (s.eccOne.contains w = false → exec (.softError a false) s = .next { s with eccOne := w :: s.eccOne }) ∧
        (s.eccOne.contains w = true → exec (.softError a false) s = .next { s with
          eccBad := w :: s.eccBad, eccOne := s.eccOne.filter (· ≠ w) })) ∧
      (s.eccBad.contains w = true → exec (.softError a true) s = .next s))
end

