-- ==== Sys2Proof/Laws/State.lean ====
section
/-!
SUPPORT. Laws/State.lean: what each update of the state or of a context leaves alone, one lemma for each field.
-/
namespace Sys2Proof.Machine

/-! ### setCtxOf -/

@[simp] theorem State.setCtxOf_time (s : State) (a : AgentId) (c : Ctx) : (s.setCtxOf a c).time = s.time := rfl
@[simp] theorem State.setCtxOf_mem (s : State) (a : AgentId) (c : Ctx) : (s.setCtxOf a c).mem = s.mem := rfl
@[simp] theorem State.setCtxOf_eccBad (s : State) (a : AgentId) (c : Ctx) : (s.setCtxOf a c).eccBad = s.eccBad := rfl
@[simp] theorem State.setCtxOf_eccOne (s : State) (a : AgentId) (c : Ctx) : (s.setCtxOf a c).eccOne = s.eccOne := rfl
@[simp] theorem State.setCtxOf_cec (s : State) (a : AgentId) (c : Ctx) : (s.setCtxOf a c).cec = s.cec := rfl
@[simp] theorem State.setCtxOf_cecTen (s : State) (a : AgentId) (c : Ctx) : (s.setCtxOf a c).cecTen = s.cecTen := rfl
@[simp] theorem State.setCtxOf_cores (s : State) (a : AgentId) (c : Ctx) : (s.setCtxOf a c).cores = s.cores := rfl
@[simp] theorem State.setCtxOf_units (s : State) (a : AgentId) (c : Ctx) : (s.setCtxOf a c).units = s.units := rfl
@[simp] theorem State.setCtxOf_harts (s : State) (a : AgentId) (c : Ctx) : (s.setCtxOf a c).harts = s.harts := rfl
@[simp] theorem State.setCtxOf_slices (s : State) (a : AgentId) (c : Ctx) : (s.setCtxOf a c).slices = s.slices := rfl
@[simp] theorem State.setCtxOf_domains (s : State) (a : AgentId) (c : Ctx) : (s.setCtxOf a c).domains = s.domains := rfl
@[simp] theorem State.setCtxOf_partitions (s : State) (a : AgentId) (c : Ctx) : (s.setCtxOf a c).partitions = s.partitions := rfl
@[simp] theorem State.setCtxOf_queues (s : State) (a : AgentId) (c : Ctx) : (s.setCtxOf a c).queues = s.queues := rfl
@[simp] theorem State.setCtxOf_launches (s : State) (a : AgentId) (c : Ctx) : (s.setCtxOf a c).launches = s.launches := rfl
@[simp] theorem State.setCtxOf_recent (s : State) (a : AgentId) (c : Ctx) : (s.setCtxOf a c).recent = s.recent := rfl
@[simp] theorem State.setCtxOf_ads (s : State) (a : AgentId) (c : Ctx) : (s.setCtxOf a c).ads = s.ads := rfl
@[simp] theorem State.setCtxOf_lastServed (s : State) (a : AgentId) (c : Ctx) : (s.setCtxOf a c).lastServed = s.lastServed := rfl
@[simp] theorem State.setCtxOf_lastBatch (s : State) (a : AgentId) (c : Ctx) : (s.setCtxOf a c).lastBatch = s.lastBatch := rfl
@[simp] theorem State.setCtxOf_order (s : State) (a : AgentId) (c : Ctx) : (s.setCtxOf a c).order = s.order := rfl
@[simp] theorem State.setCtxOf_stackQueues (s : State) (a : AgentId) (c : Ctx) : (s.setCtxOf a c).stackQueues = s.stackQueues := rfl
@[simp] theorem State.setCtxOf_mesh (s : State) (a : AgentId) (c : Ctx) : (s.setCtxOf a c).mesh = s.mesh := rfl
@[simp] theorem State.setCtxOf_accs (s : State) (a : AgentId) (c : Ctx) : (s.setCtxOf a c).accs = s.accs := rfl
@[simp] theorem State.setCtxOf_switches (s : State) (a : AgentId) (c : Ctx) : (s.setCtxOf a c).switches = s.switches := rfl
@[simp] theorem State.setCtxOf_ports (s : State) (a : AgentId) (c : Ctx) : (s.setCtxOf a c).ports = s.ports := rfl
@[simp] theorem State.setCtxOf_funcs (s : State) (a : AgentId) (c : Ctx) : (s.setCtxOf a c).funcs = s.funcs := rfl
@[simp] theorem State.setCtxOf_bootStage (s : State) (a : AgentId) (c : Ctx) : (s.setCtxOf a c).bootStage = s.bootStage := rfl
@[simp] theorem State.setCtxOf_bootErr (s : State) (a : AgentId) (c : Ctx) : (s.setCtxOf a c).bootErr = s.bootErr := rfl
@[simp] theorem State.setCtxOf_tdQnum (s : State) (a : AgentId) (c : Ctx) : (s.setCtxOf a c).tdQnum = s.tdQnum := rfl
@[simp] theorem State.setCtxOf_plimit (s : State) (a : AgentId) (c : Ctx) : (s.setCtxOf a c).plimit = s.plimit := rfl
@[simp] theorem State.setCtxOf_monitor (s : State) (a : AgentId) (c : Ctx) : (s.setCtxOf a c).monitor = s.monitor := rfl
@[simp] theorem State.setCtxOf_sensors (s : State) (a : AgentId) (c : Ctx) : (s.setCtxOf a c).sensors = s.sensors := rfl
@[simp] theorem State.setCtxOf_overheated (s : State) (a : AgentId) (c : Ctx) : (s.setCtxOf a c).overheated = s.overheated := rfl
@[simp] theorem State.setCtxOf_thermalStop (s : State) (a : AgentId) (c : Ctx) : (s.setCtxOf a c).thermalStop = s.thermalStop := rfl
@[simp] theorem State.setCtxOf_hostWrites (s : State) (a : AgentId) (c : Ctx) : (s.setCtxOf a c).hostWrites = s.hostWrites := rfl
@[simp] theorem State.setCtxOf_tap (s : State) (a : AgentId) (c : Ctx) : (s.setCtxOf a c).tap = s.tap := rfl
@[simp] theorem State.setCtxOf_modnum (s : State) (a : AgentId) (c : Ctx) : (s.setCtxOf a c).modnum = s.modnum := rfl
@[simp] theorem State.setCtxOf_cur (s : State) (a : AgentId) (c : Ctx) : (s.setCtxOf a c).cur = s.cur := rfl
@[simp] theorem State.setCtxOf_group (s : State) (a : AgentId) (c : Ctx) : (s.setCtxOf a c).group = s.group := rfl
@[simp] theorem State.setCtxOf_moves (s : State) (a : AgentId) (c : Ctx) : (s.setCtxOf a c).moves = s.moves := rfl
@[simp] theorem State.setCtxOf_draws (s : State) (a : AgentId) (c : Ctx) : (s.setCtxOf a c).draws = s.draws := rfl
@[simp] theorem State.setCtxOf_hostData (s : State) (a : AgentId) (c : Ctx) : (s.setCtxOf a c).hostData = s.hostData := rfl

/-! ### updOf -/

@[simp] theorem State.updOf_time (s : State) (a : AgentId) (f : Ctx → Ctx) : (s.updOf a f).time = s.time := rfl
@[simp] theorem State.updOf_mem (s : State) (a : AgentId) (f : Ctx → Ctx) : (s.updOf a f).mem = s.mem := rfl
@[simp] theorem State.updOf_eccBad (s : State) (a : AgentId) (f : Ctx → Ctx) : (s.updOf a f).eccBad = s.eccBad := rfl
@[simp] theorem State.updOf_eccOne (s : State) (a : AgentId) (f : Ctx → Ctx) : (s.updOf a f).eccOne = s.eccOne := rfl
@[simp] theorem State.updOf_cec (s : State) (a : AgentId) (f : Ctx → Ctx) : (s.updOf a f).cec = s.cec := rfl
@[simp] theorem State.updOf_cecTen (s : State) (a : AgentId) (f : Ctx → Ctx) : (s.updOf a f).cecTen = s.cecTen := rfl
@[simp] theorem State.updOf_cores (s : State) (a : AgentId) (f : Ctx → Ctx) : (s.updOf a f).cores = s.cores := rfl
@[simp] theorem State.updOf_units (s : State) (a : AgentId) (f : Ctx → Ctx) : (s.updOf a f).units = s.units := rfl
@[simp] theorem State.updOf_harts (s : State) (a : AgentId) (f : Ctx → Ctx) : (s.updOf a f).harts = s.harts := rfl
@[simp] theorem State.updOf_slices (s : State) (a : AgentId) (f : Ctx → Ctx) : (s.updOf a f).slices = s.slices := rfl
@[simp] theorem State.updOf_domains (s : State) (a : AgentId) (f : Ctx → Ctx) : (s.updOf a f).domains = s.domains := rfl
@[simp] theorem State.updOf_partitions (s : State) (a : AgentId) (f : Ctx → Ctx) : (s.updOf a f).partitions = s.partitions := rfl
@[simp] theorem State.updOf_queues (s : State) (a : AgentId) (f : Ctx → Ctx) : (s.updOf a f).queues = s.queues := rfl
@[simp] theorem State.updOf_launches (s : State) (a : AgentId) (f : Ctx → Ctx) : (s.updOf a f).launches = s.launches := rfl
@[simp] theorem State.updOf_recent (s : State) (a : AgentId) (f : Ctx → Ctx) : (s.updOf a f).recent = s.recent := rfl
@[simp] theorem State.updOf_ads (s : State) (a : AgentId) (f : Ctx → Ctx) : (s.updOf a f).ads = s.ads := rfl
@[simp] theorem State.updOf_lastServed (s : State) (a : AgentId) (f : Ctx → Ctx) : (s.updOf a f).lastServed = s.lastServed := rfl
@[simp] theorem State.updOf_lastBatch (s : State) (a : AgentId) (f : Ctx → Ctx) : (s.updOf a f).lastBatch = s.lastBatch := rfl
@[simp] theorem State.updOf_order (s : State) (a : AgentId) (f : Ctx → Ctx) : (s.updOf a f).order = s.order := rfl
@[simp] theorem State.updOf_stackQueues (s : State) (a : AgentId) (f : Ctx → Ctx) : (s.updOf a f).stackQueues = s.stackQueues := rfl
@[simp] theorem State.updOf_mesh (s : State) (a : AgentId) (f : Ctx → Ctx) : (s.updOf a f).mesh = s.mesh := rfl
@[simp] theorem State.updOf_accs (s : State) (a : AgentId) (f : Ctx → Ctx) : (s.updOf a f).accs = s.accs := rfl
@[simp] theorem State.updOf_switches (s : State) (a : AgentId) (f : Ctx → Ctx) : (s.updOf a f).switches = s.switches := rfl
@[simp] theorem State.updOf_ports (s : State) (a : AgentId) (f : Ctx → Ctx) : (s.updOf a f).ports = s.ports := rfl
@[simp] theorem State.updOf_funcs (s : State) (a : AgentId) (f : Ctx → Ctx) : (s.updOf a f).funcs = s.funcs := rfl
@[simp] theorem State.updOf_bootStage (s : State) (a : AgentId) (f : Ctx → Ctx) : (s.updOf a f).bootStage = s.bootStage := rfl
@[simp] theorem State.updOf_bootErr (s : State) (a : AgentId) (f : Ctx → Ctx) : (s.updOf a f).bootErr = s.bootErr := rfl
@[simp] theorem State.updOf_tdQnum (s : State) (a : AgentId) (f : Ctx → Ctx) : (s.updOf a f).tdQnum = s.tdQnum := rfl
@[simp] theorem State.updOf_plimit (s : State) (a : AgentId) (f : Ctx → Ctx) : (s.updOf a f).plimit = s.plimit := rfl
@[simp] theorem State.updOf_monitor (s : State) (a : AgentId) (f : Ctx → Ctx) : (s.updOf a f).monitor = s.monitor := rfl
@[simp] theorem State.updOf_sensors (s : State) (a : AgentId) (f : Ctx → Ctx) : (s.updOf a f).sensors = s.sensors := rfl
@[simp] theorem State.updOf_overheated (s : State) (a : AgentId) (f : Ctx → Ctx) : (s.updOf a f).overheated = s.overheated := rfl
@[simp] theorem State.updOf_thermalStop (s : State) (a : AgentId) (f : Ctx → Ctx) : (s.updOf a f).thermalStop = s.thermalStop := rfl
@[simp] theorem State.updOf_hostWrites (s : State) (a : AgentId) (f : Ctx → Ctx) : (s.updOf a f).hostWrites = s.hostWrites := rfl
@[simp] theorem State.updOf_tap (s : State) (a : AgentId) (f : Ctx → Ctx) : (s.updOf a f).tap = s.tap := rfl
@[simp] theorem State.updOf_modnum (s : State) (a : AgentId) (f : Ctx → Ctx) : (s.updOf a f).modnum = s.modnum := rfl
@[simp] theorem State.updOf_cur (s : State) (a : AgentId) (f : Ctx → Ctx) : (s.updOf a f).cur = s.cur := rfl
@[simp] theorem State.updOf_group (s : State) (a : AgentId) (f : Ctx → Ctx) : (s.updOf a f).group = s.group := rfl
@[simp] theorem State.updOf_moves (s : State) (a : AgentId) (f : Ctx → Ctx) : (s.updOf a f).moves = s.moves := rfl
@[simp] theorem State.updOf_draws (s : State) (a : AgentId) (f : Ctx → Ctx) : (s.updOf a f).draws = s.draws := rfl
@[simp] theorem State.updOf_hostData (s : State) (a : AgentId) (f : Ctx → Ctx) : (s.updOf a f).hostData = s.hostData := rfl

/-! ### upd -/

@[simp] theorem State.upd_time (s : State) (f : Ctx → Ctx) : (s.upd f).time = s.time := rfl
@[simp] theorem State.upd_mem (s : State) (f : Ctx → Ctx) : (s.upd f).mem = s.mem := rfl
@[simp] theorem State.upd_eccBad (s : State) (f : Ctx → Ctx) : (s.upd f).eccBad = s.eccBad := rfl
@[simp] theorem State.upd_eccOne (s : State) (f : Ctx → Ctx) : (s.upd f).eccOne = s.eccOne := rfl
@[simp] theorem State.upd_cec (s : State) (f : Ctx → Ctx) : (s.upd f).cec = s.cec := rfl
@[simp] theorem State.upd_cecTen (s : State) (f : Ctx → Ctx) : (s.upd f).cecTen = s.cecTen := rfl
@[simp] theorem State.upd_cores (s : State) (f : Ctx → Ctx) : (s.upd f).cores = s.cores := rfl
@[simp] theorem State.upd_units (s : State) (f : Ctx → Ctx) : (s.upd f).units = s.units := rfl
@[simp] theorem State.upd_harts (s : State) (f : Ctx → Ctx) : (s.upd f).harts = s.harts := rfl
@[simp] theorem State.upd_slices (s : State) (f : Ctx → Ctx) : (s.upd f).slices = s.slices := rfl
@[simp] theorem State.upd_domains (s : State) (f : Ctx → Ctx) : (s.upd f).domains = s.domains := rfl
@[simp] theorem State.upd_partitions (s : State) (f : Ctx → Ctx) : (s.upd f).partitions = s.partitions := rfl
@[simp] theorem State.upd_queues (s : State) (f : Ctx → Ctx) : (s.upd f).queues = s.queues := rfl
@[simp] theorem State.upd_launches (s : State) (f : Ctx → Ctx) : (s.upd f).launches = s.launches := rfl
@[simp] theorem State.upd_recent (s : State) (f : Ctx → Ctx) : (s.upd f).recent = s.recent := rfl
@[simp] theorem State.upd_ads (s : State) (f : Ctx → Ctx) : (s.upd f).ads = s.ads := rfl
@[simp] theorem State.upd_lastServed (s : State) (f : Ctx → Ctx) : (s.upd f).lastServed = s.lastServed := rfl
@[simp] theorem State.upd_lastBatch (s : State) (f : Ctx → Ctx) : (s.upd f).lastBatch = s.lastBatch := rfl
@[simp] theorem State.upd_order (s : State) (f : Ctx → Ctx) : (s.upd f).order = s.order := rfl
@[simp] theorem State.upd_stackQueues (s : State) (f : Ctx → Ctx) : (s.upd f).stackQueues = s.stackQueues := rfl
@[simp] theorem State.upd_mesh (s : State) (f : Ctx → Ctx) : (s.upd f).mesh = s.mesh := rfl
@[simp] theorem State.upd_accs (s : State) (f : Ctx → Ctx) : (s.upd f).accs = s.accs := rfl
@[simp] theorem State.upd_switches (s : State) (f : Ctx → Ctx) : (s.upd f).switches = s.switches := rfl
@[simp] theorem State.upd_ports (s : State) (f : Ctx → Ctx) : (s.upd f).ports = s.ports := rfl
@[simp] theorem State.upd_funcs (s : State) (f : Ctx → Ctx) : (s.upd f).funcs = s.funcs := rfl
@[simp] theorem State.upd_bootStage (s : State) (f : Ctx → Ctx) : (s.upd f).bootStage = s.bootStage := rfl
@[simp] theorem State.upd_bootErr (s : State) (f : Ctx → Ctx) : (s.upd f).bootErr = s.bootErr := rfl
@[simp] theorem State.upd_tdQnum (s : State) (f : Ctx → Ctx) : (s.upd f).tdQnum = s.tdQnum := rfl
@[simp] theorem State.upd_plimit (s : State) (f : Ctx → Ctx) : (s.upd f).plimit = s.plimit := rfl
@[simp] theorem State.upd_monitor (s : State) (f : Ctx → Ctx) : (s.upd f).monitor = s.monitor := rfl
@[simp] theorem State.upd_sensors (s : State) (f : Ctx → Ctx) : (s.upd f).sensors = s.sensors := rfl
@[simp] theorem State.upd_overheated (s : State) (f : Ctx → Ctx) : (s.upd f).overheated = s.overheated := rfl
@[simp] theorem State.upd_thermalStop (s : State) (f : Ctx → Ctx) : (s.upd f).thermalStop = s.thermalStop := rfl
@[simp] theorem State.upd_hostWrites (s : State) (f : Ctx → Ctx) : (s.upd f).hostWrites = s.hostWrites := rfl
@[simp] theorem State.upd_tap (s : State) (f : Ctx → Ctx) : (s.upd f).tap = s.tap := rfl
@[simp] theorem State.upd_modnum (s : State) (f : Ctx → Ctx) : (s.upd f).modnum = s.modnum := rfl
@[simp] theorem State.upd_cur (s : State) (f : Ctx → Ctx) : (s.upd f).cur = s.cur := rfl
@[simp] theorem State.upd_group (s : State) (f : Ctx → Ctx) : (s.upd f).group = s.group := rfl
@[simp] theorem State.upd_moves (s : State) (f : Ctx → Ctx) : (s.upd f).moves = s.moves := rfl
@[simp] theorem State.upd_draws (s : State) (f : Ctx → Ctx) : (s.upd f).draws = s.draws := rfl
@[simp] theorem State.upd_hostData (s : State) (f : Ctx → Ctx) : (s.upd f).hostData = s.hostData := rfl

/-! ### setCoreOf -/

@[simp] theorem State.setCoreOf_time (s : State) (a : AgentId) (k : Core) : (s.setCoreOf a k).time = s.time := rfl
@[simp] theorem State.setCoreOf_mem (s : State) (a : AgentId) (k : Core) : (s.setCoreOf a k).mem = s.mem := rfl
@[simp] theorem State.setCoreOf_eccBad (s : State) (a : AgentId) (k : Core) : (s.setCoreOf a k).eccBad = s.eccBad := rfl
@[simp] theorem State.setCoreOf_eccOne (s : State) (a : AgentId) (k : Core) : (s.setCoreOf a k).eccOne = s.eccOne := rfl
@[simp] theorem State.setCoreOf_cec (s : State) (a : AgentId) (k : Core) : (s.setCoreOf a k).cec = s.cec := rfl
@[simp] theorem State.setCoreOf_cecTen (s : State) (a : AgentId) (k : Core) : (s.setCoreOf a k).cecTen = s.cecTen := rfl
@[simp] theorem State.setCoreOf_ctxs (s : State) (a : AgentId) (k : Core) : (s.setCoreOf a k).ctxs = s.ctxs := rfl
@[simp] theorem State.setCoreOf_units (s : State) (a : AgentId) (k : Core) : (s.setCoreOf a k).units = s.units := rfl
@[simp] theorem State.setCoreOf_harts (s : State) (a : AgentId) (k : Core) : (s.setCoreOf a k).harts = s.harts := rfl
@[simp] theorem State.setCoreOf_slices (s : State) (a : AgentId) (k : Core) : (s.setCoreOf a k).slices = s.slices := rfl
@[simp] theorem State.setCoreOf_domains (s : State) (a : AgentId) (k : Core) : (s.setCoreOf a k).domains = s.domains := rfl
@[simp] theorem State.setCoreOf_partitions (s : State) (a : AgentId) (k : Core) : (s.setCoreOf a k).partitions = s.partitions := rfl
@[simp] theorem State.setCoreOf_queues (s : State) (a : AgentId) (k : Core) : (s.setCoreOf a k).queues = s.queues := rfl
@[simp] theorem State.setCoreOf_launches (s : State) (a : AgentId) (k : Core) : (s.setCoreOf a k).launches = s.launches := rfl
@[simp] theorem State.setCoreOf_recent (s : State) (a : AgentId) (k : Core) : (s.setCoreOf a k).recent = s.recent := rfl
@[simp] theorem State.setCoreOf_ads (s : State) (a : AgentId) (k : Core) : (s.setCoreOf a k).ads = s.ads := rfl
@[simp] theorem State.setCoreOf_lastServed (s : State) (a : AgentId) (k : Core) : (s.setCoreOf a k).lastServed = s.lastServed := rfl
@[simp] theorem State.setCoreOf_lastBatch (s : State) (a : AgentId) (k : Core) : (s.setCoreOf a k).lastBatch = s.lastBatch := rfl
@[simp] theorem State.setCoreOf_order (s : State) (a : AgentId) (k : Core) : (s.setCoreOf a k).order = s.order := rfl
@[simp] theorem State.setCoreOf_stackQueues (s : State) (a : AgentId) (k : Core) : (s.setCoreOf a k).stackQueues = s.stackQueues := rfl
@[simp] theorem State.setCoreOf_mesh (s : State) (a : AgentId) (k : Core) : (s.setCoreOf a k).mesh = s.mesh := rfl
@[simp] theorem State.setCoreOf_accs (s : State) (a : AgentId) (k : Core) : (s.setCoreOf a k).accs = s.accs := rfl
@[simp] theorem State.setCoreOf_switches (s : State) (a : AgentId) (k : Core) : (s.setCoreOf a k).switches = s.switches := rfl
@[simp] theorem State.setCoreOf_ports (s : State) (a : AgentId) (k : Core) : (s.setCoreOf a k).ports = s.ports := rfl
@[simp] theorem State.setCoreOf_funcs (s : State) (a : AgentId) (k : Core) : (s.setCoreOf a k).funcs = s.funcs := rfl
@[simp] theorem State.setCoreOf_bootStage (s : State) (a : AgentId) (k : Core) : (s.setCoreOf a k).bootStage = s.bootStage := rfl
@[simp] theorem State.setCoreOf_bootErr (s : State) (a : AgentId) (k : Core) : (s.setCoreOf a k).bootErr = s.bootErr := rfl
@[simp] theorem State.setCoreOf_tdQnum (s : State) (a : AgentId) (k : Core) : (s.setCoreOf a k).tdQnum = s.tdQnum := rfl
@[simp] theorem State.setCoreOf_plimit (s : State) (a : AgentId) (k : Core) : (s.setCoreOf a k).plimit = s.plimit := rfl
@[simp] theorem State.setCoreOf_monitor (s : State) (a : AgentId) (k : Core) : (s.setCoreOf a k).monitor = s.monitor := rfl
@[simp] theorem State.setCoreOf_sensors (s : State) (a : AgentId) (k : Core) : (s.setCoreOf a k).sensors = s.sensors := rfl
@[simp] theorem State.setCoreOf_overheated (s : State) (a : AgentId) (k : Core) : (s.setCoreOf a k).overheated = s.overheated := rfl
@[simp] theorem State.setCoreOf_thermalStop (s : State) (a : AgentId) (k : Core) : (s.setCoreOf a k).thermalStop = s.thermalStop := rfl
@[simp] theorem State.setCoreOf_hostWrites (s : State) (a : AgentId) (k : Core) : (s.setCoreOf a k).hostWrites = s.hostWrites := rfl
@[simp] theorem State.setCoreOf_tap (s : State) (a : AgentId) (k : Core) : (s.setCoreOf a k).tap = s.tap := rfl
@[simp] theorem State.setCoreOf_modnum (s : State) (a : AgentId) (k : Core) : (s.setCoreOf a k).modnum = s.modnum := rfl
@[simp] theorem State.setCoreOf_cur (s : State) (a : AgentId) (k : Core) : (s.setCoreOf a k).cur = s.cur := rfl
@[simp] theorem State.setCoreOf_group (s : State) (a : AgentId) (k : Core) : (s.setCoreOf a k).group = s.group := rfl
@[simp] theorem State.setCoreOf_moves (s : State) (a : AgentId) (k : Core) : (s.setCoreOf a k).moves = s.moves := rfl
@[simp] theorem State.setCoreOf_draws (s : State) (a : AgentId) (k : Core) : (s.setCoreOf a k).draws = s.draws := rfl
@[simp] theorem State.setCoreOf_hostData (s : State) (a : AgentId) (k : Core) : (s.setCoreOf a k).hostData = s.hostData := rfl

/-! ### updCore -/

@[simp] theorem State.updCore_time (s : State) (a : AgentId) (f : Core → Core) : (s.updCore a f).time = s.time := rfl
@[simp] theorem State.updCore_mem (s : State) (a : AgentId) (f : Core → Core) : (s.updCore a f).mem = s.mem := rfl
@[simp] theorem State.updCore_eccBad (s : State) (a : AgentId) (f : Core → Core) : (s.updCore a f).eccBad = s.eccBad := rfl
@[simp] theorem State.updCore_eccOne (s : State) (a : AgentId) (f : Core → Core) : (s.updCore a f).eccOne = s.eccOne := rfl
@[simp] theorem State.updCore_cec (s : State) (a : AgentId) (f : Core → Core) : (s.updCore a f).cec = s.cec := rfl
@[simp] theorem State.updCore_cecTen (s : State) (a : AgentId) (f : Core → Core) : (s.updCore a f).cecTen = s.cecTen := rfl
@[simp] theorem State.updCore_ctxs (s : State) (a : AgentId) (f : Core → Core) : (s.updCore a f).ctxs = s.ctxs := rfl
@[simp] theorem State.updCore_units (s : State) (a : AgentId) (f : Core → Core) : (s.updCore a f).units = s.units := rfl
@[simp] theorem State.updCore_harts (s : State) (a : AgentId) (f : Core → Core) : (s.updCore a f).harts = s.harts := rfl
@[simp] theorem State.updCore_slices (s : State) (a : AgentId) (f : Core → Core) : (s.updCore a f).slices = s.slices := rfl
@[simp] theorem State.updCore_domains (s : State) (a : AgentId) (f : Core → Core) : (s.updCore a f).domains = s.domains := rfl
@[simp] theorem State.updCore_partitions (s : State) (a : AgentId) (f : Core → Core) : (s.updCore a f).partitions = s.partitions := rfl
@[simp] theorem State.updCore_queues (s : State) (a : AgentId) (f : Core → Core) : (s.updCore a f).queues = s.queues := rfl
@[simp] theorem State.updCore_launches (s : State) (a : AgentId) (f : Core → Core) : (s.updCore a f).launches = s.launches := rfl
@[simp] theorem State.updCore_recent (s : State) (a : AgentId) (f : Core → Core) : (s.updCore a f).recent = s.recent := rfl
@[simp] theorem State.updCore_ads (s : State) (a : AgentId) (f : Core → Core) : (s.updCore a f).ads = s.ads := rfl
@[simp] theorem State.updCore_lastServed (s : State) (a : AgentId) (f : Core → Core) : (s.updCore a f).lastServed = s.lastServed := rfl
@[simp] theorem State.updCore_lastBatch (s : State) (a : AgentId) (f : Core → Core) : (s.updCore a f).lastBatch = s.lastBatch := rfl
@[simp] theorem State.updCore_order (s : State) (a : AgentId) (f : Core → Core) : (s.updCore a f).order = s.order := rfl
@[simp] theorem State.updCore_stackQueues (s : State) (a : AgentId) (f : Core → Core) : (s.updCore a f).stackQueues = s.stackQueues := rfl
@[simp] theorem State.updCore_mesh (s : State) (a : AgentId) (f : Core → Core) : (s.updCore a f).mesh = s.mesh := rfl
@[simp] theorem State.updCore_accs (s : State) (a : AgentId) (f : Core → Core) : (s.updCore a f).accs = s.accs := rfl
@[simp] theorem State.updCore_switches (s : State) (a : AgentId) (f : Core → Core) : (s.updCore a f).switches = s.switches := rfl
@[simp] theorem State.updCore_ports (s : State) (a : AgentId) (f : Core → Core) : (s.updCore a f).ports = s.ports := rfl
@[simp] theorem State.updCore_funcs (s : State) (a : AgentId) (f : Core → Core) : (s.updCore a f).funcs = s.funcs := rfl
@[simp] theorem State.updCore_bootStage (s : State) (a : AgentId) (f : Core → Core) : (s.updCore a f).bootStage = s.bootStage := rfl
@[simp] theorem State.updCore_bootErr (s : State) (a : AgentId) (f : Core → Core) : (s.updCore a f).bootErr = s.bootErr := rfl
@[simp] theorem State.updCore_tdQnum (s : State) (a : AgentId) (f : Core → Core) : (s.updCore a f).tdQnum = s.tdQnum := rfl
@[simp] theorem State.updCore_plimit (s : State) (a : AgentId) (f : Core → Core) : (s.updCore a f).plimit = s.plimit := rfl
@[simp] theorem State.updCore_monitor (s : State) (a : AgentId) (f : Core → Core) : (s.updCore a f).monitor = s.monitor := rfl
@[simp] theorem State.updCore_sensors (s : State) (a : AgentId) (f : Core → Core) : (s.updCore a f).sensors = s.sensors := rfl
@[simp] theorem State.updCore_overheated (s : State) (a : AgentId) (f : Core → Core) : (s.updCore a f).overheated = s.overheated := rfl
@[simp] theorem State.updCore_thermalStop (s : State) (a : AgentId) (f : Core → Core) : (s.updCore a f).thermalStop = s.thermalStop := rfl
@[simp] theorem State.updCore_hostWrites (s : State) (a : AgentId) (f : Core → Core) : (s.updCore a f).hostWrites = s.hostWrites := rfl
@[simp] theorem State.updCore_tap (s : State) (a : AgentId) (f : Core → Core) : (s.updCore a f).tap = s.tap := rfl
@[simp] theorem State.updCore_modnum (s : State) (a : AgentId) (f : Core → Core) : (s.updCore a f).modnum = s.modnum := rfl
@[simp] theorem State.updCore_cur (s : State) (a : AgentId) (f : Core → Core) : (s.updCore a f).cur = s.cur := rfl
@[simp] theorem State.updCore_group (s : State) (a : AgentId) (f : Core → Core) : (s.updCore a f).group = s.group := rfl
@[simp] theorem State.updCore_moves (s : State) (a : AgentId) (f : Core → Core) : (s.updCore a f).moves = s.moves := rfl
@[simp] theorem State.updCore_draws (s : State) (a : AgentId) (f : Core → Core) : (s.updCore a f).draws = s.draws := rfl
@[simp] theorem State.updCore_hostData (s : State) (a : AgentId) (f : Core → Core) : (s.updCore a f).hostData = s.hostData := rfl

/-! ### setUnitOf -/

@[simp] theorem State.setUnitOf_time (s : State) (a : AgentId) (u : Cluster) : (s.setUnitOf a u).time = s.time := rfl
@[simp] theorem State.setUnitOf_mem (s : State) (a : AgentId) (u : Cluster) : (s.setUnitOf a u).mem = s.mem := rfl
@[simp] theorem State.setUnitOf_eccBad (s : State) (a : AgentId) (u : Cluster) : (s.setUnitOf a u).eccBad = s.eccBad := rfl
@[simp] theorem State.setUnitOf_eccOne (s : State) (a : AgentId) (u : Cluster) : (s.setUnitOf a u).eccOne = s.eccOne := rfl
@[simp] theorem State.setUnitOf_cec (s : State) (a : AgentId) (u : Cluster) : (s.setUnitOf a u).cec = s.cec := rfl
@[simp] theorem State.setUnitOf_cecTen (s : State) (a : AgentId) (u : Cluster) : (s.setUnitOf a u).cecTen = s.cecTen := rfl
@[simp] theorem State.setUnitOf_ctxs (s : State) (a : AgentId) (u : Cluster) : (s.setUnitOf a u).ctxs = s.ctxs := rfl
@[simp] theorem State.setUnitOf_cores (s : State) (a : AgentId) (u : Cluster) : (s.setUnitOf a u).cores = s.cores := rfl
@[simp] theorem State.setUnitOf_harts (s : State) (a : AgentId) (u : Cluster) : (s.setUnitOf a u).harts = s.harts := rfl
@[simp] theorem State.setUnitOf_slices (s : State) (a : AgentId) (u : Cluster) : (s.setUnitOf a u).slices = s.slices := rfl
@[simp] theorem State.setUnitOf_domains (s : State) (a : AgentId) (u : Cluster) : (s.setUnitOf a u).domains = s.domains := rfl
@[simp] theorem State.setUnitOf_partitions (s : State) (a : AgentId) (u : Cluster) : (s.setUnitOf a u).partitions = s.partitions := rfl
@[simp] theorem State.setUnitOf_queues (s : State) (a : AgentId) (u : Cluster) : (s.setUnitOf a u).queues = s.queues := rfl
@[simp] theorem State.setUnitOf_launches (s : State) (a : AgentId) (u : Cluster) : (s.setUnitOf a u).launches = s.launches := rfl
@[simp] theorem State.setUnitOf_recent (s : State) (a : AgentId) (u : Cluster) : (s.setUnitOf a u).recent = s.recent := rfl
@[simp] theorem State.setUnitOf_ads (s : State) (a : AgentId) (u : Cluster) : (s.setUnitOf a u).ads = s.ads := rfl
@[simp] theorem State.setUnitOf_lastServed (s : State) (a : AgentId) (u : Cluster) : (s.setUnitOf a u).lastServed = s.lastServed := rfl
@[simp] theorem State.setUnitOf_lastBatch (s : State) (a : AgentId) (u : Cluster) : (s.setUnitOf a u).lastBatch = s.lastBatch := rfl
@[simp] theorem State.setUnitOf_order (s : State) (a : AgentId) (u : Cluster) : (s.setUnitOf a u).order = s.order := rfl
@[simp] theorem State.setUnitOf_stackQueues (s : State) (a : AgentId) (u : Cluster) : (s.setUnitOf a u).stackQueues = s.stackQueues := rfl
@[simp] theorem State.setUnitOf_mesh (s : State) (a : AgentId) (u : Cluster) : (s.setUnitOf a u).mesh = s.mesh := rfl
@[simp] theorem State.setUnitOf_accs (s : State) (a : AgentId) (u : Cluster) : (s.setUnitOf a u).accs = s.accs := rfl
@[simp] theorem State.setUnitOf_switches (s : State) (a : AgentId) (u : Cluster) : (s.setUnitOf a u).switches = s.switches := rfl
@[simp] theorem State.setUnitOf_ports (s : State) (a : AgentId) (u : Cluster) : (s.setUnitOf a u).ports = s.ports := rfl
@[simp] theorem State.setUnitOf_funcs (s : State) (a : AgentId) (u : Cluster) : (s.setUnitOf a u).funcs = s.funcs := rfl
@[simp] theorem State.setUnitOf_bootStage (s : State) (a : AgentId) (u : Cluster) : (s.setUnitOf a u).bootStage = s.bootStage := rfl
@[simp] theorem State.setUnitOf_bootErr (s : State) (a : AgentId) (u : Cluster) : (s.setUnitOf a u).bootErr = s.bootErr := rfl
@[simp] theorem State.setUnitOf_tdQnum (s : State) (a : AgentId) (u : Cluster) : (s.setUnitOf a u).tdQnum = s.tdQnum := rfl
@[simp] theorem State.setUnitOf_plimit (s : State) (a : AgentId) (u : Cluster) : (s.setUnitOf a u).plimit = s.plimit := rfl
@[simp] theorem State.setUnitOf_monitor (s : State) (a : AgentId) (u : Cluster) : (s.setUnitOf a u).monitor = s.monitor := rfl
@[simp] theorem State.setUnitOf_sensors (s : State) (a : AgentId) (u : Cluster) : (s.setUnitOf a u).sensors = s.sensors := rfl
@[simp] theorem State.setUnitOf_overheated (s : State) (a : AgentId) (u : Cluster) : (s.setUnitOf a u).overheated = s.overheated := rfl
@[simp] theorem State.setUnitOf_thermalStop (s : State) (a : AgentId) (u : Cluster) : (s.setUnitOf a u).thermalStop = s.thermalStop := rfl
@[simp] theorem State.setUnitOf_hostWrites (s : State) (a : AgentId) (u : Cluster) : (s.setUnitOf a u).hostWrites = s.hostWrites := rfl
@[simp] theorem State.setUnitOf_tap (s : State) (a : AgentId) (u : Cluster) : (s.setUnitOf a u).tap = s.tap := rfl
@[simp] theorem State.setUnitOf_modnum (s : State) (a : AgentId) (u : Cluster) : (s.setUnitOf a u).modnum = s.modnum := rfl
@[simp] theorem State.setUnitOf_cur (s : State) (a : AgentId) (u : Cluster) : (s.setUnitOf a u).cur = s.cur := rfl
@[simp] theorem State.setUnitOf_group (s : State) (a : AgentId) (u : Cluster) : (s.setUnitOf a u).group = s.group := rfl
@[simp] theorem State.setUnitOf_moves (s : State) (a : AgentId) (u : Cluster) : (s.setUnitOf a u).moves = s.moves := rfl
@[simp] theorem State.setUnitOf_draws (s : State) (a : AgentId) (u : Cluster) : (s.setUnitOf a u).draws = s.draws := rfl
@[simp] theorem State.setUnitOf_hostData (s : State) (a : AgentId) (u : Cluster) : (s.setUnitOf a u).hostData = s.hostData := rfl

/-! ### updUnit -/

@[simp] theorem State.updUnit_time (s : State) (a : AgentId) (f : Cluster → Cluster) : (s.updUnit a f).time = s.time := rfl
@[simp] theorem State.updUnit_mem (s : State) (a : AgentId) (f : Cluster → Cluster) : (s.updUnit a f).mem = s.mem := rfl
@[simp] theorem State.updUnit_eccBad (s : State) (a : AgentId) (f : Cluster → Cluster) : (s.updUnit a f).eccBad = s.eccBad := rfl
@[simp] theorem State.updUnit_eccOne (s : State) (a : AgentId) (f : Cluster → Cluster) : (s.updUnit a f).eccOne = s.eccOne := rfl
@[simp] theorem State.updUnit_cec (s : State) (a : AgentId) (f : Cluster → Cluster) : (s.updUnit a f).cec = s.cec := rfl
@[simp] theorem State.updUnit_cecTen (s : State) (a : AgentId) (f : Cluster → Cluster) : (s.updUnit a f).cecTen = s.cecTen := rfl
@[simp] theorem State.updUnit_ctxs (s : State) (a : AgentId) (f : Cluster → Cluster) : (s.updUnit a f).ctxs = s.ctxs := rfl
@[simp] theorem State.updUnit_cores (s : State) (a : AgentId) (f : Cluster → Cluster) : (s.updUnit a f).cores = s.cores := rfl
@[simp] theorem State.updUnit_harts (s : State) (a : AgentId) (f : Cluster → Cluster) : (s.updUnit a f).harts = s.harts := rfl
@[simp] theorem State.updUnit_slices (s : State) (a : AgentId) (f : Cluster → Cluster) : (s.updUnit a f).slices = s.slices := rfl
@[simp] theorem State.updUnit_domains (s : State) (a : AgentId) (f : Cluster → Cluster) : (s.updUnit a f).domains = s.domains := rfl
@[simp] theorem State.updUnit_partitions (s : State) (a : AgentId) (f : Cluster → Cluster) : (s.updUnit a f).partitions = s.partitions := rfl
@[simp] theorem State.updUnit_queues (s : State) (a : AgentId) (f : Cluster → Cluster) : (s.updUnit a f).queues = s.queues := rfl
@[simp] theorem State.updUnit_launches (s : State) (a : AgentId) (f : Cluster → Cluster) : (s.updUnit a f).launches = s.launches := rfl
@[simp] theorem State.updUnit_recent (s : State) (a : AgentId) (f : Cluster → Cluster) : (s.updUnit a f).recent = s.recent := rfl
@[simp] theorem State.updUnit_ads (s : State) (a : AgentId) (f : Cluster → Cluster) : (s.updUnit a f).ads = s.ads := rfl
@[simp] theorem State.updUnit_lastServed (s : State) (a : AgentId) (f : Cluster → Cluster) : (s.updUnit a f).lastServed = s.lastServed := rfl
@[simp] theorem State.updUnit_lastBatch (s : State) (a : AgentId) (f : Cluster → Cluster) : (s.updUnit a f).lastBatch = s.lastBatch := rfl
@[simp] theorem State.updUnit_order (s : State) (a : AgentId) (f : Cluster → Cluster) : (s.updUnit a f).order = s.order := rfl
@[simp] theorem State.updUnit_stackQueues (s : State) (a : AgentId) (f : Cluster → Cluster) : (s.updUnit a f).stackQueues = s.stackQueues := rfl
@[simp] theorem State.updUnit_mesh (s : State) (a : AgentId) (f : Cluster → Cluster) : (s.updUnit a f).mesh = s.mesh := rfl
@[simp] theorem State.updUnit_accs (s : State) (a : AgentId) (f : Cluster → Cluster) : (s.updUnit a f).accs = s.accs := rfl
@[simp] theorem State.updUnit_switches (s : State) (a : AgentId) (f : Cluster → Cluster) : (s.updUnit a f).switches = s.switches := rfl
@[simp] theorem State.updUnit_ports (s : State) (a : AgentId) (f : Cluster → Cluster) : (s.updUnit a f).ports = s.ports := rfl
@[simp] theorem State.updUnit_funcs (s : State) (a : AgentId) (f : Cluster → Cluster) : (s.updUnit a f).funcs = s.funcs := rfl
@[simp] theorem State.updUnit_bootStage (s : State) (a : AgentId) (f : Cluster → Cluster) : (s.updUnit a f).bootStage = s.bootStage := rfl
@[simp] theorem State.updUnit_bootErr (s : State) (a : AgentId) (f : Cluster → Cluster) : (s.updUnit a f).bootErr = s.bootErr := rfl
@[simp] theorem State.updUnit_tdQnum (s : State) (a : AgentId) (f : Cluster → Cluster) : (s.updUnit a f).tdQnum = s.tdQnum := rfl
@[simp] theorem State.updUnit_plimit (s : State) (a : AgentId) (f : Cluster → Cluster) : (s.updUnit a f).plimit = s.plimit := rfl
@[simp] theorem State.updUnit_monitor (s : State) (a : AgentId) (f : Cluster → Cluster) : (s.updUnit a f).monitor = s.monitor := rfl
@[simp] theorem State.updUnit_sensors (s : State) (a : AgentId) (f : Cluster → Cluster) : (s.updUnit a f).sensors = s.sensors := rfl
@[simp] theorem State.updUnit_overheated (s : State) (a : AgentId) (f : Cluster → Cluster) : (s.updUnit a f).overheated = s.overheated := rfl
@[simp] theorem State.updUnit_thermalStop (s : State) (a : AgentId) (f : Cluster → Cluster) : (s.updUnit a f).thermalStop = s.thermalStop := rfl
@[simp] theorem State.updUnit_hostWrites (s : State) (a : AgentId) (f : Cluster → Cluster) : (s.updUnit a f).hostWrites = s.hostWrites := rfl
@[simp] theorem State.updUnit_tap (s : State) (a : AgentId) (f : Cluster → Cluster) : (s.updUnit a f).tap = s.tap := rfl
@[simp] theorem State.updUnit_modnum (s : State) (a : AgentId) (f : Cluster → Cluster) : (s.updUnit a f).modnum = s.modnum := rfl
@[simp] theorem State.updUnit_cur (s : State) (a : AgentId) (f : Cluster → Cluster) : (s.updUnit a f).cur = s.cur := rfl
@[simp] theorem State.updUnit_group (s : State) (a : AgentId) (f : Cluster → Cluster) : (s.updUnit a f).group = s.group := rfl
@[simp] theorem State.updUnit_moves (s : State) (a : AgentId) (f : Cluster → Cluster) : (s.updUnit a f).moves = s.moves := rfl
@[simp] theorem State.updUnit_draws (s : State) (a : AgentId) (f : Cluster → Cluster) : (s.updUnit a f).draws = s.draws := rfl
@[simp] theorem State.updUnit_hostData (s : State) (a : AgentId) (f : Cluster → Cluster) : (s.updUnit a f).hostData = s.hostData := rfl

/-! ### updHart -/

@[simp] theorem State.updHart_time (s : State) (a : AgentId) (f : HartRegs → HartRegs) : (s.updHart a f).time = s.time := rfl
@[simp] theorem State.updHart_mem (s : State) (a : AgentId) (f : HartRegs → HartRegs) : (s.updHart a f).mem = s.mem := rfl
@[simp] theorem State.updHart_eccBad (s : State) (a : AgentId) (f : HartRegs → HartRegs) : (s.updHart a f).eccBad = s.eccBad := rfl
@[simp] theorem State.updHart_eccOne (s : State) (a : AgentId) (f : HartRegs → HartRegs) : (s.updHart a f).eccOne = s.eccOne := rfl
@[simp] theorem State.updHart_cec (s : State) (a : AgentId) (f : HartRegs → HartRegs) : (s.updHart a f).cec = s.cec := rfl
@[simp] theorem State.updHart_cecTen (s : State) (a : AgentId) (f : HartRegs → HartRegs) : (s.updHart a f).cecTen = s.cecTen := rfl
@[simp] theorem State.updHart_ctxs (s : State) (a : AgentId) (f : HartRegs → HartRegs) : (s.updHart a f).ctxs = s.ctxs := rfl
@[simp] theorem State.updHart_cores (s : State) (a : AgentId) (f : HartRegs → HartRegs) : (s.updHart a f).cores = s.cores := rfl
@[simp] theorem State.updHart_units (s : State) (a : AgentId) (f : HartRegs → HartRegs) : (s.updHart a f).units = s.units := rfl
@[simp] theorem State.updHart_slices (s : State) (a : AgentId) (f : HartRegs → HartRegs) : (s.updHart a f).slices = s.slices := rfl
@[simp] theorem State.updHart_domains (s : State) (a : AgentId) (f : HartRegs → HartRegs) : (s.updHart a f).domains = s.domains := rfl
@[simp] theorem State.updHart_partitions (s : State) (a : AgentId) (f : HartRegs → HartRegs) : (s.updHart a f).partitions = s.partitions := rfl
@[simp] theorem State.updHart_queues (s : State) (a : AgentId) (f : HartRegs → HartRegs) : (s.updHart a f).queues = s.queues := rfl
@[simp] theorem State.updHart_launches (s : State) (a : AgentId) (f : HartRegs → HartRegs) : (s.updHart a f).launches = s.launches := rfl
@[simp] theorem State.updHart_recent (s : State) (a : AgentId) (f : HartRegs → HartRegs) : (s.updHart a f).recent = s.recent := rfl
@[simp] theorem State.updHart_ads (s : State) (a : AgentId) (f : HartRegs → HartRegs) : (s.updHart a f).ads = s.ads := rfl
@[simp] theorem State.updHart_lastServed (s : State) (a : AgentId) (f : HartRegs → HartRegs) : (s.updHart a f).lastServed = s.lastServed := rfl
@[simp] theorem State.updHart_lastBatch (s : State) (a : AgentId) (f : HartRegs → HartRegs) : (s.updHart a f).lastBatch = s.lastBatch := rfl
@[simp] theorem State.updHart_order (s : State) (a : AgentId) (f : HartRegs → HartRegs) : (s.updHart a f).order = s.order := rfl
@[simp] theorem State.updHart_stackQueues (s : State) (a : AgentId) (f : HartRegs → HartRegs) : (s.updHart a f).stackQueues = s.stackQueues := rfl
@[simp] theorem State.updHart_mesh (s : State) (a : AgentId) (f : HartRegs → HartRegs) : (s.updHart a f).mesh = s.mesh := rfl
@[simp] theorem State.updHart_accs (s : State) (a : AgentId) (f : HartRegs → HartRegs) : (s.updHart a f).accs = s.accs := rfl
@[simp] theorem State.updHart_switches (s : State) (a : AgentId) (f : HartRegs → HartRegs) : (s.updHart a f).switches = s.switches := rfl
@[simp] theorem State.updHart_ports (s : State) (a : AgentId) (f : HartRegs → HartRegs) : (s.updHart a f).ports = s.ports := rfl
@[simp] theorem State.updHart_funcs (s : State) (a : AgentId) (f : HartRegs → HartRegs) : (s.updHart a f).funcs = s.funcs := rfl
@[simp] theorem State.updHart_bootStage (s : State) (a : AgentId) (f : HartRegs → HartRegs) : (s.updHart a f).bootStage = s.bootStage := rfl
@[simp] theorem State.updHart_bootErr (s : State) (a : AgentId) (f : HartRegs → HartRegs) : (s.updHart a f).bootErr = s.bootErr := rfl
@[simp] theorem State.updHart_tdQnum (s : State) (a : AgentId) (f : HartRegs → HartRegs) : (s.updHart a f).tdQnum = s.tdQnum := rfl
@[simp] theorem State.updHart_plimit (s : State) (a : AgentId) (f : HartRegs → HartRegs) : (s.updHart a f).plimit = s.plimit := rfl
@[simp] theorem State.updHart_monitor (s : State) (a : AgentId) (f : HartRegs → HartRegs) : (s.updHart a f).monitor = s.monitor := rfl
@[simp] theorem State.updHart_sensors (s : State) (a : AgentId) (f : HartRegs → HartRegs) : (s.updHart a f).sensors = s.sensors := rfl
@[simp] theorem State.updHart_overheated (s : State) (a : AgentId) (f : HartRegs → HartRegs) : (s.updHart a f).overheated = s.overheated := rfl
@[simp] theorem State.updHart_thermalStop (s : State) (a : AgentId) (f : HartRegs → HartRegs) : (s.updHart a f).thermalStop = s.thermalStop := rfl
@[simp] theorem State.updHart_hostWrites (s : State) (a : AgentId) (f : HartRegs → HartRegs) : (s.updHart a f).hostWrites = s.hostWrites := rfl
@[simp] theorem State.updHart_tap (s : State) (a : AgentId) (f : HartRegs → HartRegs) : (s.updHart a f).tap = s.tap := rfl
@[simp] theorem State.updHart_modnum (s : State) (a : AgentId) (f : HartRegs → HartRegs) : (s.updHart a f).modnum = s.modnum := rfl
@[simp] theorem State.updHart_cur (s : State) (a : AgentId) (f : HartRegs → HartRegs) : (s.updHart a f).cur = s.cur := rfl
@[simp] theorem State.updHart_group (s : State) (a : AgentId) (f : HartRegs → HartRegs) : (s.updHart a f).group = s.group := rfl
@[simp] theorem State.updHart_moves (s : State) (a : AgentId) (f : HartRegs → HartRegs) : (s.updHart a f).moves = s.moves := rfl
@[simp] theorem State.updHart_draws (s : State) (a : AgentId) (f : HartRegs → HartRegs) : (s.updHart a f).draws = s.draws := rfl
@[simp] theorem State.updHart_hostData (s : State) (a : AgentId) (f : HartRegs → HartRegs) : (s.updHart a f).hostData = s.hostData := rfl

/-! ### updSlice -/

@[simp] theorem State.updSlice_time (s : State) (p q : Nat) (f : Slice → Slice) : (s.updSlice p q f).time = s.time := rfl
@[simp] theorem State.updSlice_mem (s : State) (p q : Nat) (f : Slice → Slice) : (s.updSlice p q f).mem = s.mem := rfl
@[simp] theorem State.updSlice_eccBad (s : State) (p q : Nat) (f : Slice → Slice) : (s.updSlice p q f).eccBad = s.eccBad := rfl
@[simp] theorem State.updSlice_eccOne (s : State) (p q : Nat) (f : Slice → Slice) : (s.updSlice p q f).eccOne = s.eccOne := rfl
@[simp] theorem State.updSlice_cec (s : State) (p q : Nat) (f : Slice → Slice) : (s.updSlice p q f).cec = s.cec := rfl
@[simp] theorem State.updSlice_cecTen (s : State) (p q : Nat) (f : Slice → Slice) : (s.updSlice p q f).cecTen = s.cecTen := rfl
@[simp] theorem State.updSlice_ctxs (s : State) (p q : Nat) (f : Slice → Slice) : (s.updSlice p q f).ctxs = s.ctxs := rfl
@[simp] theorem State.updSlice_cores (s : State) (p q : Nat) (f : Slice → Slice) : (s.updSlice p q f).cores = s.cores := rfl
@[simp] theorem State.updSlice_units (s : State) (p q : Nat) (f : Slice → Slice) : (s.updSlice p q f).units = s.units := rfl
@[simp] theorem State.updSlice_harts (s : State) (p q : Nat) (f : Slice → Slice) : (s.updSlice p q f).harts = s.harts := rfl
@[simp] theorem State.updSlice_domains (s : State) (p q : Nat) (f : Slice → Slice) : (s.updSlice p q f).domains = s.domains := rfl
@[simp] theorem State.updSlice_partitions (s : State) (p q : Nat) (f : Slice → Slice) : (s.updSlice p q f).partitions = s.partitions := rfl
@[simp] theorem State.updSlice_queues (s : State) (p q : Nat) (f : Slice → Slice) : (s.updSlice p q f).queues = s.queues := rfl
@[simp] theorem State.updSlice_launches (s : State) (p q : Nat) (f : Slice → Slice) : (s.updSlice p q f).launches = s.launches := rfl
@[simp] theorem State.updSlice_recent (s : State) (p q : Nat) (f : Slice → Slice) : (s.updSlice p q f).recent = s.recent := rfl
@[simp] theorem State.updSlice_ads (s : State) (p q : Nat) (f : Slice → Slice) : (s.updSlice p q f).ads = s.ads := rfl
@[simp] theorem State.updSlice_lastServed (s : State) (p q : Nat) (f : Slice → Slice) : (s.updSlice p q f).lastServed = s.lastServed := rfl
@[simp] theorem State.updSlice_lastBatch (s : State) (p q : Nat) (f : Slice → Slice) : (s.updSlice p q f).lastBatch = s.lastBatch := rfl
@[simp] theorem State.updSlice_order (s : State) (p q : Nat) (f : Slice → Slice) : (s.updSlice p q f).order = s.order := rfl
@[simp] theorem State.updSlice_stackQueues (s : State) (p q : Nat) (f : Slice → Slice) : (s.updSlice p q f).stackQueues = s.stackQueues := rfl
@[simp] theorem State.updSlice_mesh (s : State) (p q : Nat) (f : Slice → Slice) : (s.updSlice p q f).mesh = s.mesh := rfl
@[simp] theorem State.updSlice_accs (s : State) (p q : Nat) (f : Slice → Slice) : (s.updSlice p q f).accs = s.accs := rfl
@[simp] theorem State.updSlice_switches (s : State) (p q : Nat) (f : Slice → Slice) : (s.updSlice p q f).switches = s.switches := rfl
@[simp] theorem State.updSlice_ports (s : State) (p q : Nat) (f : Slice → Slice) : (s.updSlice p q f).ports = s.ports := rfl
@[simp] theorem State.updSlice_funcs (s : State) (p q : Nat) (f : Slice → Slice) : (s.updSlice p q f).funcs = s.funcs := rfl
@[simp] theorem State.updSlice_bootStage (s : State) (p q : Nat) (f : Slice → Slice) : (s.updSlice p q f).bootStage = s.bootStage := rfl
@[simp] theorem State.updSlice_bootErr (s : State) (p q : Nat) (f : Slice → Slice) : (s.updSlice p q f).bootErr = s.bootErr := rfl
@[simp] theorem State.updSlice_tdQnum (s : State) (p q : Nat) (f : Slice → Slice) : (s.updSlice p q f).tdQnum = s.tdQnum := rfl
@[simp] theorem State.updSlice_plimit (s : State) (p q : Nat) (f : Slice → Slice) : (s.updSlice p q f).plimit = s.plimit := rfl
@[simp] theorem State.updSlice_monitor (s : State) (p q : Nat) (f : Slice → Slice) : (s.updSlice p q f).monitor = s.monitor := rfl
@[simp] theorem State.updSlice_sensors (s : State) (p q : Nat) (f : Slice → Slice) : (s.updSlice p q f).sensors = s.sensors := rfl
@[simp] theorem State.updSlice_overheated (s : State) (p q : Nat) (f : Slice → Slice) : (s.updSlice p q f).overheated = s.overheated := rfl
@[simp] theorem State.updSlice_thermalStop (s : State) (p q : Nat) (f : Slice → Slice) : (s.updSlice p q f).thermalStop = s.thermalStop := rfl
@[simp] theorem State.updSlice_hostWrites (s : State) (p q : Nat) (f : Slice → Slice) : (s.updSlice p q f).hostWrites = s.hostWrites := rfl
@[simp] theorem State.updSlice_tap (s : State) (p q : Nat) (f : Slice → Slice) : (s.updSlice p q f).tap = s.tap := rfl
@[simp] theorem State.updSlice_modnum (s : State) (p q : Nat) (f : Slice → Slice) : (s.updSlice p q f).modnum = s.modnum := rfl
@[simp] theorem State.updSlice_cur (s : State) (p q : Nat) (f : Slice → Slice) : (s.updSlice p q f).cur = s.cur := rfl
@[simp] theorem State.updSlice_group (s : State) (p q : Nat) (f : Slice → Slice) : (s.updSlice p q f).group = s.group := rfl
@[simp] theorem State.updSlice_moves (s : State) (p q : Nat) (f : Slice → Slice) : (s.updSlice p q f).moves = s.moves := rfl
@[simp] theorem State.updSlice_draws (s : State) (p q : Nat) (f : Slice → Slice) : (s.updSlice p q f).draws = s.draws := rfl
@[simp] theorem State.updSlice_hostData (s : State) (p q : Nat) (f : Slice → Slice) : (s.updSlice p q f).hostData = s.hostData := rfl

/-! ### storeBytes -/

@[simp] theorem State.storeBytes_time (s : State) (p : Nat) (bs : List Byte) : (s.storeBytes p bs).time = s.time := rfl
@[simp] theorem State.storeBytes_cec (s : State) (p : Nat) (bs : List Byte) : (s.storeBytes p bs).cec = s.cec := rfl
@[simp] theorem State.storeBytes_cecTen (s : State) (p : Nat) (bs : List Byte) : (s.storeBytes p bs).cecTen = s.cecTen := rfl
@[simp] theorem State.storeBytes_ctxs (s : State) (p : Nat) (bs : List Byte) : (s.storeBytes p bs).ctxs = s.ctxs := rfl
@[simp] theorem State.storeBytes_cores (s : State) (p : Nat) (bs : List Byte) : (s.storeBytes p bs).cores = s.cores := rfl
@[simp] theorem State.storeBytes_units (s : State) (p : Nat) (bs : List Byte) : (s.storeBytes p bs).units = s.units := rfl
@[simp] theorem State.storeBytes_harts (s : State) (p : Nat) (bs : List Byte) : (s.storeBytes p bs).harts = s.harts := rfl
@[simp] theorem State.storeBytes_slices (s : State) (p : Nat) (bs : List Byte) : (s.storeBytes p bs).slices = s.slices := rfl
@[simp] theorem State.storeBytes_domains (s : State) (p : Nat) (bs : List Byte) : (s.storeBytes p bs).domains = s.domains := rfl
@[simp] theorem State.storeBytes_partitions (s : State) (p : Nat) (bs : List Byte) : (s.storeBytes p bs).partitions = s.partitions := rfl
@[simp] theorem State.storeBytes_queues (s : State) (p : Nat) (bs : List Byte) : (s.storeBytes p bs).queues = s.queues := rfl
@[simp] theorem State.storeBytes_launches (s : State) (p : Nat) (bs : List Byte) : (s.storeBytes p bs).launches = s.launches := rfl
@[simp] theorem State.storeBytes_recent (s : State) (p : Nat) (bs : List Byte) : (s.storeBytes p bs).recent = s.recent := rfl
@[simp] theorem State.storeBytes_ads (s : State) (p : Nat) (bs : List Byte) : (s.storeBytes p bs).ads = s.ads := rfl
@[simp] theorem State.storeBytes_lastServed (s : State) (p : Nat) (bs : List Byte) : (s.storeBytes p bs).lastServed = s.lastServed := rfl
@[simp] theorem State.storeBytes_lastBatch (s : State) (p : Nat) (bs : List Byte) : (s.storeBytes p bs).lastBatch = s.lastBatch := rfl
@[simp] theorem State.storeBytes_order (s : State) (p : Nat) (bs : List Byte) : (s.storeBytes p bs).order = s.order := rfl
@[simp] theorem State.storeBytes_stackQueues (s : State) (p : Nat) (bs : List Byte) : (s.storeBytes p bs).stackQueues = s.stackQueues := rfl
@[simp] theorem State.storeBytes_mesh (s : State) (p : Nat) (bs : List Byte) : (s.storeBytes p bs).mesh = s.mesh := rfl
@[simp] theorem State.storeBytes_accs (s : State) (p : Nat) (bs : List Byte) : (s.storeBytes p bs).accs = s.accs := rfl
@[simp] theorem State.storeBytes_switches (s : State) (p : Nat) (bs : List Byte) : (s.storeBytes p bs).switches = s.switches := rfl
@[simp] theorem State.storeBytes_ports (s : State) (p : Nat) (bs : List Byte) : (s.storeBytes p bs).ports = s.ports := rfl
@[simp] theorem State.storeBytes_funcs (s : State) (p : Nat) (bs : List Byte) : (s.storeBytes p bs).funcs = s.funcs := rfl
@[simp] theorem State.storeBytes_bootStage (s : State) (p : Nat) (bs : List Byte) : (s.storeBytes p bs).bootStage = s.bootStage := rfl
@[simp] theorem State.storeBytes_bootErr (s : State) (p : Nat) (bs : List Byte) : (s.storeBytes p bs).bootErr = s.bootErr := rfl
@[simp] theorem State.storeBytes_tdQnum (s : State) (p : Nat) (bs : List Byte) : (s.storeBytes p bs).tdQnum = s.tdQnum := rfl
@[simp] theorem State.storeBytes_plimit (s : State) (p : Nat) (bs : List Byte) : (s.storeBytes p bs).plimit = s.plimit := rfl
@[simp] theorem State.storeBytes_monitor (s : State) (p : Nat) (bs : List Byte) : (s.storeBytes p bs).monitor = s.monitor := rfl
@[simp] theorem State.storeBytes_sensors (s : State) (p : Nat) (bs : List Byte) : (s.storeBytes p bs).sensors = s.sensors := rfl
@[simp] theorem State.storeBytes_overheated (s : State) (p : Nat) (bs : List Byte) : (s.storeBytes p bs).overheated = s.overheated := rfl
@[simp] theorem State.storeBytes_thermalStop (s : State) (p : Nat) (bs : List Byte) : (s.storeBytes p bs).thermalStop = s.thermalStop := rfl
@[simp] theorem State.storeBytes_hostWrites (s : State) (p : Nat) (bs : List Byte) : (s.storeBytes p bs).hostWrites = s.hostWrites := rfl
@[simp] theorem State.storeBytes_tap (s : State) (p : Nat) (bs : List Byte) : (s.storeBytes p bs).tap = s.tap := rfl
@[simp] theorem State.storeBytes_modnum (s : State) (p : Nat) (bs : List Byte) : (s.storeBytes p bs).modnum = s.modnum := rfl
@[simp] theorem State.storeBytes_cur (s : State) (p : Nat) (bs : List Byte) : (s.storeBytes p bs).cur = s.cur := rfl
@[simp] theorem State.storeBytes_group (s : State) (p : Nat) (bs : List Byte) : (s.storeBytes p bs).group = s.group := rfl
@[simp] theorem State.storeBytes_moves (s : State) (p : Nat) (bs : List Byte) : (s.storeBytes p bs).moves = s.moves := rfl
@[simp] theorem State.storeBytes_draws (s : State) (p : Nat) (bs : List Byte) : (s.storeBytes p bs).draws = s.draws := rfl
@[simp] theorem State.storeBytes_hostData (s : State) (p : Nat) (bs : List Byte) : (s.storeBytes p bs).hostData = s.hostData := rfl

/-! ### Context updates -/

@[simp] theorem Ctx.setF_phase (c : Ctx) (r : FReg) (w : Word) : (c.setF r w).phase = c.phase := rfl
@[simp] theorem Ctx.setF_tenant (c : Ctx) (r : FReg) (w : Word) : (c.setF r w).tenant = c.tenant := rfl
@[simp] theorem Ctx.setF_origin (c : Ctx) (r : FReg) (w : Word) : (c.setF r w).origin = c.origin := rfl
@[simp] theorem Ctx.setF_child (c : Ctx) (r : FReg) (w : Word) : (c.setF r w).child = c.child := rfl
@[simp] theorem Ctx.setF_retiring (c : Ctx) (r : FReg) (w : Word) : (c.setF r w).retiring = c.retiring := rfl
@[simp] theorem Ctx.setF_pc (c : Ctx) (r : FReg) (w : Word) : (c.setF r w).pc = c.pc := rfl
@[simp] theorem Ctx.setF_x (c : Ctx) (r : FReg) (w : Word) : (c.setF r w).x = c.x := rfl
@[simp] theorem Ctx.setF_v (c : Ctx) (r : FReg) (w : Word) : (c.setF r w).v = c.v := rfl
@[simp] theorem Ctx.setF_prv (c : Ctx) (r : FReg) (w : Word) : (c.setF r w).prv = c.prv := rfl
@[simp] theorem Ctx.setF_rm (c : Ctx) (r : FReg) (w : Word) : (c.setF r w).rm = c.rm := rfl
@[simp] theorem Ctx.setF_ie (c : Ctx) (r : FReg) (w : Word) : (c.setF r w).ie = c.ie := rfl
@[simp] theorem Ctx.setF_lact (c : Ctx) (r : FReg) (w : Word) : (c.setF r w).lact = c.lact := rfl
@[simp] theorem Ctx.setF_t (c : Ctx) (r : FReg) (w : Word) : (c.setF r w).t = c.t := rfl
@[simp] theorem Ctx.setF_pprv (c : Ctx) (r : FReg) (w : Word) : (c.setF r w).pprv = c.pprv := rfl
@[simp] theorem Ctx.setF_pie (c : Ctx) (r : FReg) (w : Word) : (c.setF r w).pie = c.pie := rfl
@[simp] theorem Ctx.setF_plact (c : Ctx) (r : FReg) (w : Word) : (c.setF r w).plact = c.plact := rfl
@[simp] theorem Ctx.setF_intrap (c : Ctx) (r : FReg) (w : Word) : (c.setF r w).intrap = c.intrap := rfl
@[simp] theorem Ctx.setF_epc (c : Ctx) (r : FReg) (w : Word) : (c.setF r w).epc = c.epc := rfl
@[simp] theorem Ctx.setF_cause (c : Ctx) (r : FReg) (w : Word) : (c.setF r w).cause = c.cause := rfl
@[simp] theorem Ctx.setF_tval (c : Ctx) (r : FReg) (w : Word) : (c.setF r w).tval = c.tval := rfl
@[simp] theorem Ctx.setF_tvec (c : Ctx) (r : FReg) (w : Word) : (c.setF r w).tvec = c.tvec := rfl
@[simp] theorem Ctx.setF_kscr0 (c : Ctx) (r : FReg) (w : Word) : (c.setF r w).kscr0 = c.kscr0 := rfl
@[simp] theorem Ctx.setF_kscr1 (c : Ctx) (r : FReg) (w : Word) : (c.setF r w).kscr1 = c.kscr1 := rfl
@[simp] theorem Ctx.setF_lcnt (c : Ctx) (r : FReg) (w : Word) : (c.setF r w).lcnt = c.lcnt := rfl
@[simp] theorem Ctx.setF_lstart (c : Ctx) (r : FReg) (w : Word) : (c.setF r w).lstart = c.lstart := rfl
@[simp] theorem Ctx.setF_lend (c : Ctx) (r : FReg) (w : Word) : (c.setF r w).lend = c.lend := rfl
@[simp] theorem Ctx.setF_lrem (c : Ctx) (r : FReg) (w : Word) : (c.setF r w).lrem = c.lrem := rfl
@[simp] theorem Ctx.setF_ptimeh (c : Ctx) (r : FReg) (w : Word) : (c.setF r w).ptimeh = c.ptimeh := rfl
@[simp] theorem Ctx.setF_pinsth (c : Ctx) (r : FReg) (w : Word) : (c.setF r w).pinsth = c.pinsth := rfl
@[simp] theorem Ctx.setF_pswh (c : Ctx) (r : FReg) (w : Word) : (c.setF r w).pswh = c.pswh := rfl
@[simp] theorem Ctx.setF_timeh (c : Ctx) (r : FReg) (w : Word) : (c.setF r w).timeh = c.timeh := rfl
@[simp] theorem Ctx.setF_insth (c : Ctx) (r : FReg) (w : Word) : (c.setF r w).insth = c.insth := rfl
@[simp] theorem Ctx.setF_swh (c : Ctx) (r : FReg) (w : Word) : (c.setF r w).swh = c.swh := rfl
@[simp] theorem Ctx.setF_fpcsr (c : Ctx) (r : FReg) (w : Word) : (c.setF r w).fpcsr = c.fpcsr := rfl
@[simp] theorem Ctx.setF_rcsr (c : Ctx) (r : FReg) (w : Word) : (c.setF r w).rcsr = c.rcsr := rfl
@[simp] theorem Ctx.setF_flight (c : Ctx) (r : FReg) (w : Word) : (c.setF r w).flight = c.flight := rfl
@[simp] theorem Ctx.setF_dom (c : Ctx) (r : FReg) (w : Word) : (c.setF r w).dom = c.dom := rfl
@[simp] theorem Ctx.setF_decl (c : Ctx) (r : FReg) (w : Word) : (c.setF r w).decl = c.decl := rfl
@[simp] theorem Ctx.setF_live (c : Ctx) (r : FReg) (w : Word) : (c.setF r w).live = c.live := rfl
@[simp] theorem Ctx.setF_dcur (c : Ctx) (r : FReg) (w : Word) : (c.setF r w).dcur = c.dcur := rfl
@[simp] theorem Ctx.setF_dnxt (c : Ctx) (r : FReg) (w : Word) : (c.setF r w).dnxt = c.dnxt := rfl
@[simp] theorem Ctx.setF_pause (c : Ctx) (r : FReg) (w : Word) : (c.setF r w).pause = c.pause := rfl
@[simp] theorem Ctx.setF_pauseFlags (c : Ctx) (r : FReg) (w : Word) : (c.setF r w).pauseFlags = c.pauseFlags := rfl
@[simp] theorem Ctx.setF_causality (c : Ctx) (r : FReg) (w : Word) : (c.setF r w).causality = c.causality := rfl
@[simp] theorem Ctx.setF_watchdog (c : Ctx) (r : FReg) (w : Word) : (c.setF r w).watchdog = c.watchdog := rfl
@[simp] theorem Ctx.setF_arrival (c : Ctx) (r : FReg) (w : Word) : (c.setF r w).arrival = c.arrival := rfl
@[simp] theorem Ctx.setF_barrierFree (c : Ctx) (r : FReg) (w : Word) : (c.setF r w).barrierFree = c.barrierFree := rfl
@[simp] theorem Ctx.setF_want (c : Ctx) (r : FReg) (w : Word) : (c.setF r w).want = c.want := rfl
@[simp] theorem Ctx.setF_vmin (c : Ctx) (r : FReg) (w : Word) : (c.setF r w).vmin = c.vmin := rfl
@[simp] theorem Ctx.setF_count (c : Ctx) (r : FReg) (w : Word) : (c.setF r w).count = c.count := rfl
@[simp] theorem Ctx.setF_vl (c : Ctx) (r : FReg) (w : Word) : (c.setF r w).vl = c.vl := rfl
@[simp] theorem Ctx.setF_owed (c : Ctx) (r : FReg) (w : Word) : (c.setF r w).owed = c.owed := rfl
@[simp] theorem Ctx.setF_vloop (c : Ctx) (r : FReg) (w : Word) : (c.setF r w).vloop = c.vloop := rfl
@[simp] theorem Ctx.setF_mfmt (c : Ctx) (r : FReg) (w : Word) : (c.setF r w).mfmt = c.mfmt := rfl
@[simp] theorem Ctx.setF_mrowmask (c : Ctx) (r : FReg) (w : Word) : (c.setF r w).mrowmask = c.mrowmask := rfl
@[simp] theorem Ctx.setF_mchain (c : Ctx) (r : FReg) (w : Word) : (c.setF r w).mchain = c.mchain := rfl
@[simp] theorem Ctx.setF_mopaddr (c : Ctx) (r : FReg) (w : Word) : (c.setF r w).mopaddr = c.mopaddr := rfl
@[simp] theorem Ctx.setF_msatc (c : Ctx) (r : FReg) (w : Word) : (c.setF r w).msatc = c.msatc := rfl
@[simp] theorem Ctx.setF_nanRecord (c : Ctx) (r : FReg) (w : Word) : (c.setF r w).nanRecord = c.nanRecord := rfl
@[simp] theorem Ctx.setF_operandTrap (c : Ctx) (r : FReg) (w : Word) : (c.setF r w).operandTrap = c.operandTrap := rfl
@[simp] theorem Ctx.setF_resumable (c : Ctx) (r : FReg) (w : Word) : (c.setF r w).resumable = c.resumable := rfl
@[simp] theorem Ctx.setF_sizek (c : Ctx) (r : FReg) (w : Word) : (c.setF r w).sizek = c.sizek := rfl
@[simp] theorem Ctx.setF_basek (c : Ctx) (r : FReg) (w : Word) : (c.setF r w).basek = c.basek := rfl
@[simp] theorem Ctx.setF_jpart (c : Ctx) (r : FReg) (w : Word) : (c.setF r w).jpart = c.jpart := rfl
@[simp] theorem Ctx.setF_jentry (c : Ctx) (r : FReg) (w : Word) : (c.setF r w).jentry = c.jentry := rfl
@[simp] theorem Ctx.setF_windows (c : Ctx) (r : FReg) (w : Word) : (c.setF r w).windows = c.windows := rfl
@[simp] theorem Ctx.setF_jobFaults (c : Ctx) (r : FReg) (w : Word) : (c.setF r w).jobFaults = c.jobFaults := rfl
@[simp] theorem Ctx.setF_clearedRefusals (c : Ctx) (r : FReg) (w : Word) : (c.setF r w).clearedRefusals = c.clearedRefusals := rfl
@[simp] theorem Ctx.setF_streams (c : Ctx) (r : FReg) (w : Word) : (c.setF r w).streams = c.streams := rfl
@[simp] theorem Ctx.setF_eps (c : Ctx) (r : FReg) (w : Word) : (c.setF r w).eps = c.eps := rfl
@[simp] theorem Ctx.setF_rau (c : Ctx) (r : FReg) (w : Word) : (c.setF r w).rau = c.rau := rfl
@[simp] theorem Ctx.setF_contribsOut (c : Ctx) (r : FReg) (w : Word) : (c.setF r w).contribsOut = c.contribsOut := rfl
@[simp] theorem Ctx.setF_refused (c : Ctx) (r : FReg) (w : Word) : (c.setF r w).refused = c.refused := rfl
@[simp] theorem Ctx.setF_drop (c : Ctx) (r : FReg) (w : Word) : (c.setF r w).drop = c.drop := rfl
@[simp] theorem Ctx.setF_out (c : Ctx) (r : FReg) (w : Word) : (c.setF r w).out = c.out := rfl
@[simp] theorem Ctx.setF_mustOut (c : Ctx) (r : FReg) (w : Word) : (c.setF r w).mustOut = c.mustOut := rfl
@[simp] theorem Ctx.setF_flushing (c : Ctx) (r : FReg) (w : Word) : (c.setF r w).flushing = c.flushing := rfl
@[simp] theorem Ctx.setF_evictWaits (c : Ctx) (r : FReg) (w : Word) : (c.setF r w).evictWaits = c.evictWaits := rfl
@[simp] theorem Ctx.setF_post (c : Ctx) (r : FReg) (w : Word) : (c.setF r w).post = c.post := rfl
@[simp] theorem Ctx.setF_trigon (c : Ctx) (r : FReg) (w : Word) : (c.setF r w).trigon = c.trigon := rfl
@[simp] theorem Ctx.setF_kinds (c : Ctx) (r : FReg) (w : Word) : (c.setF r w).kinds = c.kinds := rfl
@[simp] theorem Ctx.setF_slips (c : Ctx) (r : FReg) (w : Word) : (c.setF r w).slips = c.slips := rfl
@[simp] theorem Ctx.setF_icmiss (c : Ctx) (r : FReg) (w : Word) : (c.setF r w).icmiss = c.icmiss := rfl
@[simp] theorem Ctx.setF_switchat (c : Ctx) (r : FReg) (w : Word) : (c.setF r w).switchat = c.switchat := rfl
@[simp] theorem Ctx.setF_fetchBuf (c : Ctx) (r : FReg) (w : Word) : (c.setF r w).fetchBuf = c.fetchBuf := rfl
@[simp] theorem Ctx.setF_missed (c : Ctx) (r : FReg) (w : Word) : (c.setF r w).missed = c.missed := rfl
@[simp] theorem Ctx.setF_needLine (c : Ctx) (r : FReg) (w : Word) : (c.setF r w).needLine = c.needLine := rfl
@[simp] theorem Ctx.setF_stepping (c : Ctx) (r : FReg) (w : Word) : (c.setF r w).stepping = c.stepping := rfl
@[simp] theorem Ctx.setF_wait (c : Ctx) (r : FReg) (w : Word) : (c.setF r w).wait = c.wait := rfl
@[simp] theorem Ctx.setF_pend (c : Ctx) (r : FReg) (w : Word) : (c.setF r w).pend = c.pend := rfl
@[simp] theorem Ctx.setF_haltReq (c : Ctx) (r : FReg) (w : Word) : (c.setF r w).haltReq = c.haltReq := rfl
@[simp] theorem Ctx.setF_halted (c : Ctx) (r : FReg) (w : Word) : (c.setF r w).halted = c.halted := rfl
@[simp] theorem Ctx.setF_haltGroup (c : Ctx) (r : FReg) (w : Word) : (c.setF r w).haltGroup = c.haltGroup := rfl
@[simp] theorem Ctx.setF_inIssue (c : Ctx) (r : FReg) (w : Word) : (c.setF r w).inIssue = c.inIssue := rfl
@[simp] theorem Ctx.setF_stopped (c : Ctx) (r : FReg) (w : Word) : (c.setF r w).stopped = c.stopped := rfl
@[simp] theorem Ctx.setF_port (c : Ctx) (r : FReg) (w : Word) : (c.setF r w).port = c.port := rfl
@[simp] theorem Ctx.setF_portResult (c : Ctx) (r : FReg) (w : Word) : (c.setF r w).portResult = c.portResult := rfl

@[simp] theorem Ctx.setV_phase (c : Ctx) (r : VReg) (w : Vector Word 64) : (c.setV r w).phase = c.phase := rfl
@[simp] theorem Ctx.setV_tenant (c : Ctx) (r : VReg) (w : Vector Word 64) : (c.setV r w).tenant = c.tenant := rfl
@[simp] theorem Ctx.setV_origin (c : Ctx) (r : VReg) (w : Vector Word 64) : (c.setV r w).origin = c.origin := rfl
@[simp] theorem Ctx.setV_child (c : Ctx) (r : VReg) (w : Vector Word 64) : (c.setV r w).child = c.child := rfl
@[simp] theorem Ctx.setV_retiring (c : Ctx) (r : VReg) (w : Vector Word 64) : (c.setV r w).retiring = c.retiring := rfl
@[simp] theorem Ctx.setV_pc (c : Ctx) (r : VReg) (w : Vector Word 64) : (c.setV r w).pc = c.pc := rfl
@[simp] theorem Ctx.setV_x (c : Ctx) (r : VReg) (w : Vector Word 64) : (c.setV r w).x = c.x := rfl
@[simp] theorem Ctx.setV_f (c : Ctx) (r : VReg) (w : Vector Word 64) : (c.setV r w).f = c.f := rfl
@[simp] theorem Ctx.setV_prv (c : Ctx) (r : VReg) (w : Vector Word 64) : (c.setV r w).prv = c.prv := rfl
@[simp] theorem Ctx.setV_rm (c : Ctx) (r : VReg) (w : Vector Word 64) : (c.setV r w).rm = c.rm := rfl
@[simp] theorem Ctx.setV_ie (c : Ctx) (r : VReg) (w : Vector Word 64) : (c.setV r w).ie = c.ie := rfl
@[simp] theorem Ctx.setV_lact (c : Ctx) (r : VReg) (w : Vector Word 64) : (c.setV r w).lact = c.lact := rfl
@[simp] theorem Ctx.setV_t (c : Ctx) (r : VReg) (w : Vector Word 64) : (c.setV r w).t = c.t := rfl
@[simp] theorem Ctx.setV_pprv (c : Ctx) (r : VReg) (w : Vector Word 64) : (c.setV r w).pprv = c.pprv := rfl
@[simp] theorem Ctx.setV_pie (c : Ctx) (r : VReg) (w : Vector Word 64) : (c.setV r w).pie = c.pie := rfl
@[simp] theorem Ctx.setV_plact (c : Ctx) (r : VReg) (w : Vector Word 64) : (c.setV r w).plact = c.plact := rfl
@[simp] theorem Ctx.setV_intrap (c : Ctx) (r : VReg) (w : Vector Word 64) : (c.setV r w).intrap = c.intrap := rfl
@[simp] theorem Ctx.setV_epc (c : Ctx) (r : VReg) (w : Vector Word 64) : (c.setV r w).epc = c.epc := rfl
@[simp] theorem Ctx.setV_cause (c : Ctx) (r : VReg) (w : Vector Word 64) : (c.setV r w).cause = c.cause := rfl
@[simp] theorem Ctx.setV_tval (c : Ctx) (r : VReg) (w : Vector Word 64) : (c.setV r w).tval = c.tval := rfl
@[simp] theorem Ctx.setV_tvec (c : Ctx) (r : VReg) (w : Vector Word 64) : (c.setV r w).tvec = c.tvec := rfl
@[simp] theorem Ctx.setV_kscr0 (c : Ctx) (r : VReg) (w : Vector Word 64) : (c.setV r w).kscr0 = c.kscr0 := rfl
@[simp] theorem Ctx.setV_kscr1 (c : Ctx) (r : VReg) (w : Vector Word 64) : (c.setV r w).kscr1 = c.kscr1 := rfl
@[simp] theorem Ctx.setV_lcnt (c : Ctx) (r : VReg) (w : Vector Word 64) : (c.setV r w).lcnt = c.lcnt := rfl
@[simp] theorem Ctx.setV_lstart (c : Ctx) (r : VReg) (w : Vector Word 64) : (c.setV r w).lstart = c.lstart := rfl
@[simp] theorem Ctx.setV_lend (c : Ctx) (r : VReg) (w : Vector Word 64) : (c.setV r w).lend = c.lend := rfl
@[simp] theorem Ctx.setV_lrem (c : Ctx) (r : VReg) (w : Vector Word 64) : (c.setV r w).lrem = c.lrem := rfl
@[simp] theorem Ctx.setV_ptimeh (c : Ctx) (r : VReg) (w : Vector Word 64) : (c.setV r w).ptimeh = c.ptimeh := rfl
@[simp] theorem Ctx.setV_pinsth (c : Ctx) (r : VReg) (w : Vector Word 64) : (c.setV r w).pinsth = c.pinsth := rfl
@[simp] theorem Ctx.setV_pswh (c : Ctx) (r : VReg) (w : Vector Word 64) : (c.setV r w).pswh = c.pswh := rfl
@[simp] theorem Ctx.setV_timeh (c : Ctx) (r : VReg) (w : Vector Word 64) : (c.setV r w).timeh = c.timeh := rfl
@[simp] theorem Ctx.setV_insth (c : Ctx) (r : VReg) (w : Vector Word 64) : (c.setV r w).insth = c.insth := rfl
@[simp] theorem Ctx.setV_swh (c : Ctx) (r : VReg) (w : Vector Word 64) : (c.setV r w).swh = c.swh := rfl
@[simp] theorem Ctx.setV_fpcsr (c : Ctx) (r : VReg) (w : Vector Word 64) : (c.setV r w).fpcsr = c.fpcsr := rfl
@[simp] theorem Ctx.setV_rcsr (c : Ctx) (r : VReg) (w : Vector Word 64) : (c.setV r w).rcsr = c.rcsr := rfl
@[simp] theorem Ctx.setV_flight (c : Ctx) (r : VReg) (w : Vector Word 64) : (c.setV r w).flight = c.flight := rfl
@[simp] theorem Ctx.setV_dom (c : Ctx) (r : VReg) (w : Vector Word 64) : (c.setV r w).dom = c.dom := rfl
@[simp] theorem Ctx.setV_decl (c : Ctx) (r : VReg) (w : Vector Word 64) : (c.setV r w).decl = c.decl := rfl
@[simp] theorem Ctx.setV_live (c : Ctx) (r : VReg) (w : Vector Word 64) : (c.setV r w).live = c.live := rfl
@[simp] theorem Ctx.setV_dcur (c : Ctx) (r : VReg) (w : Vector Word 64) : (c.setV r w).dcur = c.dcur := rfl
@[simp] theorem Ctx.setV_dnxt (c : Ctx) (r : VReg) (w : Vector Word 64) : (c.setV r w).dnxt = c.dnxt := rfl
@[simp] theorem Ctx.setV_pause (c : Ctx) (r : VReg) (w : Vector Word 64) : (c.setV r w).pause = c.pause := rfl
@[simp] theorem Ctx.setV_pauseFlags (c : Ctx) (r : VReg) (w : Vector Word 64) : (c.setV r w).pauseFlags = c.pauseFlags := rfl
@[simp] theorem Ctx.setV_causality (c : Ctx) (r : VReg) (w : Vector Word 64) : (c.setV r w).causality = c.causality := rfl
@[simp] theorem Ctx.setV_watchdog (c : Ctx) (r : VReg) (w : Vector Word 64) : (c.setV r w).watchdog = c.watchdog := rfl
@[simp] theorem Ctx.setV_arrival (c : Ctx) (r : VReg) (w : Vector Word 64) : (c.setV r w).arrival = c.arrival := rfl
@[simp] theorem Ctx.setV_barrierFree (c : Ctx) (r : VReg) (w : Vector Word 64) : (c.setV r w).barrierFree = c.barrierFree := rfl
@[simp] theorem Ctx.setV_want (c : Ctx) (r : VReg) (w : Vector Word 64) : (c.setV r w).want = c.want := rfl
@[simp] theorem Ctx.setV_vmin (c : Ctx) (r : VReg) (w : Vector Word 64) : (c.setV r w).vmin = c.vmin := rfl
@[simp] theorem Ctx.setV_count (c : Ctx) (r : VReg) (w : Vector Word 64) : (c.setV r w).count = c.count := rfl
@[simp] theorem Ctx.setV_vl (c : Ctx) (r : VReg) (w : Vector Word 64) : (c.setV r w).vl = c.vl := rfl
@[simp] theorem Ctx.setV_owed (c : Ctx) (r : VReg) (w : Vector Word 64) : (c.setV r w).owed = c.owed := rfl
@[simp] theorem Ctx.setV_vloop (c : Ctx) (r : VReg) (w : Vector Word 64) : (c.setV r w).vloop = c.vloop := rfl
@[simp] theorem Ctx.setV_mfmt (c : Ctx) (r : VReg) (w : Vector Word 64) : (c.setV r w).mfmt = c.mfmt := rfl
@[simp] theorem Ctx.setV_mrowmask (c : Ctx) (r : VReg) (w : Vector Word 64) : (c.setV r w).mrowmask = c.mrowmask := rfl
@[simp] theorem Ctx.setV_mchain (c : Ctx) (r : VReg) (w : Vector Word 64) : (c.setV r w).mchain = c.mchain := rfl
@[simp] theorem Ctx.setV_mopaddr (c : Ctx) (r : VReg) (w : Vector Word 64) : (c.setV r w).mopaddr = c.mopaddr := rfl
@[simp] theorem Ctx.setV_msatc (c : Ctx) (r : VReg) (w : Vector Word 64) : (c.setV r w).msatc = c.msatc := rfl
@[simp] theorem Ctx.setV_nanRecord (c : Ctx) (r : VReg) (w : Vector Word 64) : (c.setV r w).nanRecord = c.nanRecord := rfl
@[simp] theorem Ctx.setV_operandTrap (c : Ctx) (r : VReg) (w : Vector Word 64) : (c.setV r w).operandTrap = c.operandTrap := rfl
@[simp] theorem Ctx.setV_resumable (c : Ctx) (r : VReg) (w : Vector Word 64) : (c.setV r w).resumable = c.resumable := rfl
@[simp] theorem Ctx.setV_sizek (c : Ctx) (r : VReg) (w : Vector Word 64) : (c.setV r w).sizek = c.sizek := rfl
@[simp] theorem Ctx.setV_basek (c : Ctx) (r : VReg) (w : Vector Word 64) : (c.setV r w).basek = c.basek := rfl
@[simp] theorem Ctx.setV_jpart (c : Ctx) (r : VReg) (w : Vector Word 64) : (c.setV r w).jpart = c.jpart := rfl
@[simp] theorem Ctx.setV_jentry (c : Ctx) (r : VReg) (w : Vector Word 64) : (c.setV r w).jentry = c.jentry := rfl
@[simp] theorem Ctx.setV_windows (c : Ctx) (r : VReg) (w : Vector Word 64) : (c.setV r w).windows = c.windows := rfl
@[simp] theorem Ctx.setV_jobFaults (c : Ctx) (r : VReg) (w : Vector Word 64) : (c.setV r w).jobFaults = c.jobFaults := rfl
@[simp] theorem Ctx.setV_clearedRefusals (c : Ctx) (r : VReg) (w : Vector Word 64) : (c.setV r w).clearedRefusals = c.clearedRefusals := rfl
@[simp] theorem Ctx.setV_streams (c : Ctx) (r : VReg) (w : Vector Word 64) : (c.setV r w).streams = c.streams := rfl
@[simp] theorem Ctx.setV_eps (c : Ctx) (r : VReg) (w : Vector Word 64) : (c.setV r w).eps = c.eps := rfl
@[simp] theorem Ctx.setV_rau (c : Ctx) (r : VReg) (w : Vector Word 64) : (c.setV r w).rau = c.rau := rfl
@[simp] theorem Ctx.setV_contribsOut (c : Ctx) (r : VReg) (w : Vector Word 64) : (c.setV r w).contribsOut = c.contribsOut := rfl
@[simp] theorem Ctx.setV_refused (c : Ctx) (r : VReg) (w : Vector Word 64) : (c.setV r w).refused = c.refused := rfl
@[simp] theorem Ctx.setV_drop (c : Ctx) (r : VReg) (w : Vector Word 64) : (c.setV r w).drop = c.drop := rfl
@[simp] theorem Ctx.setV_out (c : Ctx) (r : VReg) (w : Vector Word 64) : (c.setV r w).out = c.out := rfl
@[simp] theorem Ctx.setV_mustOut (c : Ctx) (r : VReg) (w : Vector Word 64) : (c.setV r w).mustOut = c.mustOut := rfl
@[simp] theorem Ctx.setV_flushing (c : Ctx) (r : VReg) (w : Vector Word 64) : (c.setV r w).flushing = c.flushing := rfl
@[simp] theorem Ctx.setV_evictWaits (c : Ctx) (r : VReg) (w : Vector Word 64) : (c.setV r w).evictWaits = c.evictWaits := rfl
@[simp] theorem Ctx.setV_post (c : Ctx) (r : VReg) (w : Vector Word 64) : (c.setV r w).post = c.post := rfl
@[simp] theorem Ctx.setV_trigon (c : Ctx) (r : VReg) (w : Vector Word 64) : (c.setV r w).trigon = c.trigon := rfl
@[simp] theorem Ctx.setV_kinds (c : Ctx) (r : VReg) (w : Vector Word 64) : (c.setV r w).kinds = c.kinds := rfl
@[simp] theorem Ctx.setV_slips (c : Ctx) (r : VReg) (w : Vector Word 64) : (c.setV r w).slips = c.slips := rfl
@[simp] theorem Ctx.setV_icmiss (c : Ctx) (r : VReg) (w : Vector Word 64) : (c.setV r w).icmiss = c.icmiss := rfl
@[simp] theorem Ctx.setV_switchat (c : Ctx) (r : VReg) (w : Vector Word 64) : (c.setV r w).switchat = c.switchat := rfl
@[simp] theorem Ctx.setV_fetchBuf (c : Ctx) (r : VReg) (w : Vector Word 64) : (c.setV r w).fetchBuf = c.fetchBuf := rfl
@[simp] theorem Ctx.setV_missed (c : Ctx) (r : VReg) (w : Vector Word 64) : (c.setV r w).missed = c.missed := rfl
@[simp] theorem Ctx.setV_needLine (c : Ctx) (r : VReg) (w : Vector Word 64) : (c.setV r w).needLine = c.needLine := rfl
@[simp] theorem Ctx.setV_stepping (c : Ctx) (r : VReg) (w : Vector Word 64) : (c.setV r w).stepping = c.stepping := rfl
@[simp] theorem Ctx.setV_wait (c : Ctx) (r : VReg) (w : Vector Word 64) : (c.setV r w).wait = c.wait := rfl
@[simp] theorem Ctx.setV_pend (c : Ctx) (r : VReg) (w : Vector Word 64) : (c.setV r w).pend = c.pend := rfl
@[simp] theorem Ctx.setV_haltReq (c : Ctx) (r : VReg) (w : Vector Word 64) : (c.setV r w).haltReq = c.haltReq := rfl
@[simp] theorem Ctx.setV_halted (c : Ctx) (r : VReg) (w : Vector Word 64) : (c.setV r w).halted = c.halted := rfl
@[simp] theorem Ctx.setV_haltGroup (c : Ctx) (r : VReg) (w : Vector Word 64) : (c.setV r w).haltGroup = c.haltGroup := rfl
@[simp] theorem Ctx.setV_inIssue (c : Ctx) (r : VReg) (w : Vector Word 64) : (c.setV r w).inIssue = c.inIssue := rfl
@[simp] theorem Ctx.setV_stopped (c : Ctx) (r : VReg) (w : Vector Word 64) : (c.setV r w).stopped = c.stopped := rfl
@[simp] theorem Ctx.setV_port (c : Ctx) (r : VReg) (w : Vector Word 64) : (c.setV r w).port = c.port := rfl
@[simp] theorem Ctx.setV_portResult (c : Ctx) (r : VReg) (w : Vector Word 64) : (c.setV r w).portResult = c.portResult := rfl

@[simp] theorem Ctx.setT_phase (c : Ctx) (b : Bool) : (c.setT b).phase = c.phase := rfl
@[simp] theorem Ctx.setT_tenant (c : Ctx) (b : Bool) : (c.setT b).tenant = c.tenant := rfl
@[simp] theorem Ctx.setT_origin (c : Ctx) (b : Bool) : (c.setT b).origin = c.origin := rfl
@[simp] theorem Ctx.setT_child (c : Ctx) (b : Bool) : (c.setT b).child = c.child := rfl
@[simp] theorem Ctx.setT_retiring (c : Ctx) (b : Bool) : (c.setT b).retiring = c.retiring := rfl
@[simp] theorem Ctx.setT_pc (c : Ctx) (b : Bool) : (c.setT b).pc = c.pc := rfl
@[simp] theorem Ctx.setT_x (c : Ctx) (b : Bool) : (c.setT b).x = c.x := rfl
@[simp] theorem Ctx.setT_f (c : Ctx) (b : Bool) : (c.setT b).f = c.f := rfl
@[simp] theorem Ctx.setT_v (c : Ctx) (b : Bool) : (c.setT b).v = c.v := rfl
@[simp] theorem Ctx.setT_prv (c : Ctx) (b : Bool) : (c.setT b).prv = c.prv := rfl
@[simp] theorem Ctx.setT_rm (c : Ctx) (b : Bool) : (c.setT b).rm = c.rm := rfl
@[simp] theorem Ctx.setT_ie (c : Ctx) (b : Bool) : (c.setT b).ie = c.ie := rfl
@[simp] theorem Ctx.setT_lact (c : Ctx) (b : Bool) : (c.setT b).lact = c.lact := rfl
@[simp] theorem Ctx.setT_pprv (c : Ctx) (b : Bool) : (c.setT b).pprv = c.pprv := rfl
@[simp] theorem Ctx.setT_pie (c : Ctx) (b : Bool) : (c.setT b).pie = c.pie := rfl
@[simp] theorem Ctx.setT_plact (c : Ctx) (b : Bool) : (c.setT b).plact = c.plact := rfl
@[simp] theorem Ctx.setT_intrap (c : Ctx) (b : Bool) : (c.setT b).intrap = c.intrap := rfl
@[simp] theorem Ctx.setT_epc (c : Ctx) (b : Bool) : (c.setT b).epc = c.epc := rfl
@[simp] theorem Ctx.setT_cause (c : Ctx) (b : Bool) : (c.setT b).cause = c.cause := rfl
@[simp] theorem Ctx.setT_tval (c : Ctx) (b : Bool) : (c.setT b).tval = c.tval := rfl
@[simp] theorem Ctx.setT_tvec (c : Ctx) (b : Bool) : (c.setT b).tvec = c.tvec := rfl
@[simp] theorem Ctx.setT_kscr0 (c : Ctx) (b : Bool) : (c.setT b).kscr0 = c.kscr0 := rfl
@[simp] theorem Ctx.setT_kscr1 (c : Ctx) (b : Bool) : (c.setT b).kscr1 = c.kscr1 := rfl
@[simp] theorem Ctx.setT_lcnt (c : Ctx) (b : Bool) : (c.setT b).lcnt = c.lcnt := rfl
@[simp] theorem Ctx.setT_lstart (c : Ctx) (b : Bool) : (c.setT b).lstart = c.lstart := rfl
@[simp] theorem Ctx.setT_lend (c : Ctx) (b : Bool) : (c.setT b).lend = c.lend := rfl
@[simp] theorem Ctx.setT_lrem (c : Ctx) (b : Bool) : (c.setT b).lrem = c.lrem := rfl
@[simp] theorem Ctx.setT_ptimeh (c : Ctx) (b : Bool) : (c.setT b).ptimeh = c.ptimeh := rfl
@[simp] theorem Ctx.setT_pinsth (c : Ctx) (b : Bool) : (c.setT b).pinsth = c.pinsth := rfl
@[simp] theorem Ctx.setT_pswh (c : Ctx) (b : Bool) : (c.setT b).pswh = c.pswh := rfl
@[simp] theorem Ctx.setT_timeh (c : Ctx) (b : Bool) : (c.setT b).timeh = c.timeh := rfl
@[simp] theorem Ctx.setT_insth (c : Ctx) (b : Bool) : (c.setT b).insth = c.insth := rfl
@[simp] theorem Ctx.setT_swh (c : Ctx) (b : Bool) : (c.setT b).swh = c.swh := rfl
@[simp] theorem Ctx.setT_fpcsr (c : Ctx) (b : Bool) : (c.setT b).fpcsr = c.fpcsr := rfl
@[simp] theorem Ctx.setT_rcsr (c : Ctx) (b : Bool) : (c.setT b).rcsr = c.rcsr := rfl
@[simp] theorem Ctx.setT_flight (c : Ctx) (b : Bool) : (c.setT b).flight = c.flight := rfl
@[simp] theorem Ctx.setT_dom (c : Ctx) (b : Bool) : (c.setT b).dom = c.dom := rfl
@[simp] theorem Ctx.setT_decl (c : Ctx) (b : Bool) : (c.setT b).decl = c.decl := rfl
@[simp] theorem Ctx.setT_live (c : Ctx) (b : Bool) : (c.setT b).live = c.live := rfl
@[simp] theorem Ctx.setT_dcur (c : Ctx) (b : Bool) : (c.setT b).dcur = c.dcur := rfl
@[simp] theorem Ctx.setT_dnxt (c : Ctx) (b : Bool) : (c.setT b).dnxt = c.dnxt := rfl
@[simp] theorem Ctx.setT_pause (c : Ctx) (b : Bool) : (c.setT b).pause = c.pause := rfl
@[simp] theorem Ctx.setT_pauseFlags (c : Ctx) (b : Bool) : (c.setT b).pauseFlags = c.pauseFlags := rfl
@[simp] theorem Ctx.setT_causality (c : Ctx) (b : Bool) : (c.setT b).causality = c.causality := rfl
@[simp] theorem Ctx.setT_watchdog (c : Ctx) (b : Bool) : (c.setT b).watchdog = c.watchdog := rfl
@[simp] theorem Ctx.setT_arrival (c : Ctx) (b : Bool) : (c.setT b).arrival = c.arrival := rfl
@[simp] theorem Ctx.setT_barrierFree (c : Ctx) (b : Bool) : (c.setT b).barrierFree = c.barrierFree := rfl
@[simp] theorem Ctx.setT_want (c : Ctx) (b : Bool) : (c.setT b).want = c.want := rfl
@[simp] theorem Ctx.setT_vmin (c : Ctx) (b : Bool) : (c.setT b).vmin = c.vmin := rfl
@[simp] theorem Ctx.setT_count (c : Ctx) (b : Bool) : (c.setT b).count = c.count := rfl
@[simp] theorem Ctx.setT_vl (c : Ctx) (b : Bool) : (c.setT b).vl = c.vl := rfl
@[simp] theorem Ctx.setT_owed (c : Ctx) (b : Bool) : (c.setT b).owed = c.owed := rfl
@[simp] theorem Ctx.setT_vloop (c : Ctx) (b : Bool) : (c.setT b).vloop = c.vloop := rfl
@[simp] theorem Ctx.setT_mfmt (c : Ctx) (b : Bool) : (c.setT b).mfmt = c.mfmt := rfl
@[simp] theorem Ctx.setT_mrowmask (c : Ctx) (b : Bool) : (c.setT b).mrowmask = c.mrowmask := rfl
@[simp] theorem Ctx.setT_mchain (c : Ctx) (b : Bool) : (c.setT b).mchain = c.mchain := rfl
@[simp] theorem Ctx.setT_mopaddr (c : Ctx) (b : Bool) : (c.setT b).mopaddr = c.mopaddr := rfl
@[simp] theorem Ctx.setT_msatc (c : Ctx) (b : Bool) : (c.setT b).msatc = c.msatc := rfl
@[simp] theorem Ctx.setT_nanRecord (c : Ctx) (b : Bool) : (c.setT b).nanRecord = c.nanRecord := rfl
@[simp] theorem Ctx.setT_operandTrap (c : Ctx) (b : Bool) : (c.setT b).operandTrap = c.operandTrap := rfl
@[simp] theorem Ctx.setT_resumable (c : Ctx) (b : Bool) : (c.setT b).resumable = c.resumable := rfl
@[simp] theorem Ctx.setT_sizek (c : Ctx) (b : Bool) : (c.setT b).sizek = c.sizek := rfl
@[simp] theorem Ctx.setT_basek (c : Ctx) (b : Bool) : (c.setT b).basek = c.basek := rfl
@[simp] theorem Ctx.setT_jpart (c : Ctx) (b : Bool) : (c.setT b).jpart = c.jpart := rfl
@[simp] theorem Ctx.setT_jentry (c : Ctx) (b : Bool) : (c.setT b).jentry = c.jentry := rfl
@[simp] theorem Ctx.setT_windows (c : Ctx) (b : Bool) : (c.setT b).windows = c.windows := rfl
@[simp] theorem Ctx.setT_jobFaults (c : Ctx) (b : Bool) : (c.setT b).jobFaults = c.jobFaults := rfl
@[simp] theorem Ctx.setT_clearedRefusals (c : Ctx) (b : Bool) : (c.setT b).clearedRefusals = c.clearedRefusals := rfl
@[simp] theorem Ctx.setT_streams (c : Ctx) (b : Bool) : (c.setT b).streams = c.streams := rfl
@[simp] theorem Ctx.setT_eps (c : Ctx) (b : Bool) : (c.setT b).eps = c.eps := rfl
@[simp] theorem Ctx.setT_rau (c : Ctx) (b : Bool) : (c.setT b).rau = c.rau := rfl
@[simp] theorem Ctx.setT_contribsOut (c : Ctx) (b : Bool) : (c.setT b).contribsOut = c.contribsOut := rfl
@[simp] theorem Ctx.setT_refused (c : Ctx) (b : Bool) : (c.setT b).refused = c.refused := rfl
@[simp] theorem Ctx.setT_drop (c : Ctx) (b : Bool) : (c.setT b).drop = c.drop := rfl
@[simp] theorem Ctx.setT_out (c : Ctx) (b : Bool) : (c.setT b).out = c.out := rfl
@[simp] theorem Ctx.setT_mustOut (c : Ctx) (b : Bool) : (c.setT b).mustOut = c.mustOut := rfl
@[simp] theorem Ctx.setT_flushing (c : Ctx) (b : Bool) : (c.setT b).flushing = c.flushing := rfl
@[simp] theorem Ctx.setT_evictWaits (c : Ctx) (b : Bool) : (c.setT b).evictWaits = c.evictWaits := rfl
@[simp] theorem Ctx.setT_post (c : Ctx) (b : Bool) : (c.setT b).post = c.post := rfl
@[simp] theorem Ctx.setT_trigon (c : Ctx) (b : Bool) : (c.setT b).trigon = c.trigon := rfl
@[simp] theorem Ctx.setT_kinds (c : Ctx) (b : Bool) : (c.setT b).kinds = c.kinds := rfl
@[simp] theorem Ctx.setT_slips (c : Ctx) (b : Bool) : (c.setT b).slips = c.slips := rfl
@[simp] theorem Ctx.setT_icmiss (c : Ctx) (b : Bool) : (c.setT b).icmiss = c.icmiss := rfl
@[simp] theorem Ctx.setT_switchat (c : Ctx) (b : Bool) : (c.setT b).switchat = c.switchat := rfl
@[simp] theorem Ctx.setT_fetchBuf (c : Ctx) (b : Bool) : (c.setT b).fetchBuf = c.fetchBuf := rfl
@[simp] theorem Ctx.setT_missed (c : Ctx) (b : Bool) : (c.setT b).missed = c.missed := rfl
@[simp] theorem Ctx.setT_needLine (c : Ctx) (b : Bool) : (c.setT b).needLine = c.needLine := rfl
@[simp] theorem Ctx.setT_stepping (c : Ctx) (b : Bool) : (c.setT b).stepping = c.stepping := rfl
@[simp] theorem Ctx.setT_wait (c : Ctx) (b : Bool) : (c.setT b).wait = c.wait := rfl
@[simp] theorem Ctx.setT_pend (c : Ctx) (b : Bool) : (c.setT b).pend = c.pend := rfl
@[simp] theorem Ctx.setT_haltReq (c : Ctx) (b : Bool) : (c.setT b).haltReq = c.haltReq := rfl
@[simp] theorem Ctx.setT_halted (c : Ctx) (b : Bool) : (c.setT b).halted = c.halted := rfl
@[simp] theorem Ctx.setT_haltGroup (c : Ctx) (b : Bool) : (c.setT b).haltGroup = c.haltGroup := rfl
@[simp] theorem Ctx.setT_inIssue (c : Ctx) (b : Bool) : (c.setT b).inIssue = c.inIssue := rfl
@[simp] theorem Ctx.setT_stopped (c : Ctx) (b : Bool) : (c.setT b).stopped = c.stopped := rfl
@[simp] theorem Ctx.setT_port (c : Ctx) (b : Bool) : (c.setT b).port = c.port := rfl
@[simp] theorem Ctx.setT_portResult (c : Ctx) (b : Bool) : (c.setT b).portResult = c.portResult := rfl

@[simp] theorem Ctx.setEp_phase (c : Ctx) (e : EReg) (p : Ep) : (c.setEp e p).phase = c.phase := rfl
@[simp] theorem Ctx.setEp_tenant (c : Ctx) (e : EReg) (p : Ep) : (c.setEp e p).tenant = c.tenant := rfl
@[simp] theorem Ctx.setEp_origin (c : Ctx) (e : EReg) (p : Ep) : (c.setEp e p).origin = c.origin := rfl
@[simp] theorem Ctx.setEp_child (c : Ctx) (e : EReg) (p : Ep) : (c.setEp e p).child = c.child := rfl
@[simp] theorem Ctx.setEp_retiring (c : Ctx) (e : EReg) (p : Ep) : (c.setEp e p).retiring = c.retiring := rfl
@[simp] theorem Ctx.setEp_pc (c : Ctx) (e : EReg) (p : Ep) : (c.setEp e p).pc = c.pc := rfl
@[simp] theorem Ctx.setEp_x (c : Ctx) (e : EReg) (p : Ep) : (c.setEp e p).x = c.x := rfl
@[simp] theorem Ctx.setEp_f (c : Ctx) (e : EReg) (p : Ep) : (c.setEp e p).f = c.f := rfl
@[simp] theorem Ctx.setEp_v (c : Ctx) (e : EReg) (p : Ep) : (c.setEp e p).v = c.v := rfl
@[simp] theorem Ctx.setEp_prv (c : Ctx) (e : EReg) (p : Ep) : (c.setEp e p).prv = c.prv := rfl
@[simp] theorem Ctx.setEp_rm (c : Ctx) (e : EReg) (p : Ep) : (c.setEp e p).rm = c.rm := rfl
@[simp] theorem Ctx.setEp_ie (c : Ctx) (e : EReg) (p : Ep) : (c.setEp e p).ie = c.ie := rfl
@[simp] theorem Ctx.setEp_lact (c : Ctx) (e : EReg) (p : Ep) : (c.setEp e p).lact = c.lact := rfl
@[simp] theorem Ctx.setEp_t (c : Ctx) (e : EReg) (p : Ep) : (c.setEp e p).t = c.t := rfl
@[simp] theorem Ctx.setEp_pprv (c : Ctx) (e : EReg) (p : Ep) : (c.setEp e p).pprv = c.pprv := rfl
@[simp] theorem Ctx.setEp_pie (c : Ctx) (e : EReg) (p : Ep) : (c.setEp e p).pie = c.pie := rfl
@[simp] theorem Ctx.setEp_plact (c : Ctx) (e : EReg) (p : Ep) : (c.setEp e p).plact = c.plact := rfl
@[simp] theorem Ctx.setEp_intrap (c : Ctx) (e : EReg) (p : Ep) : (c.setEp e p).intrap = c.intrap := rfl
@[simp] theorem Ctx.setEp_epc (c : Ctx) (e : EReg) (p : Ep) : (c.setEp e p).epc = c.epc := rfl
@[simp] theorem Ctx.setEp_cause (c : Ctx) (e : EReg) (p : Ep) : (c.setEp e p).cause = c.cause := rfl
@[simp] theorem Ctx.setEp_tval (c : Ctx) (e : EReg) (p : Ep) : (c.setEp e p).tval = c.tval := rfl
@[simp] theorem Ctx.setEp_tvec (c : Ctx) (e : EReg) (p : Ep) : (c.setEp e p).tvec = c.tvec := rfl
@[simp] theorem Ctx.setEp_kscr0 (c : Ctx) (e : EReg) (p : Ep) : (c.setEp e p).kscr0 = c.kscr0 := rfl
@[simp] theorem Ctx.setEp_kscr1 (c : Ctx) (e : EReg) (p : Ep) : (c.setEp e p).kscr1 = c.kscr1 := rfl
@[simp] theorem Ctx.setEp_lcnt (c : Ctx) (e : EReg) (p : Ep) : (c.setEp e p).lcnt = c.lcnt := rfl
@[simp] theorem Ctx.setEp_lstart (c : Ctx) (e : EReg) (p : Ep) : (c.setEp e p).lstart = c.lstart := rfl
@[simp] theorem Ctx.setEp_lend (c : Ctx) (e : EReg) (p : Ep) : (c.setEp e p).lend = c.lend := rfl
@[simp] theorem Ctx.setEp_lrem (c : Ctx) (e : EReg) (p : Ep) : (c.setEp e p).lrem = c.lrem := rfl
@[simp] theorem Ctx.setEp_ptimeh (c : Ctx) (e : EReg) (p : Ep) : (c.setEp e p).ptimeh = c.ptimeh := rfl
@[simp] theorem Ctx.setEp_pinsth (c : Ctx) (e : EReg) (p : Ep) : (c.setEp e p).pinsth = c.pinsth := rfl
@[simp] theorem Ctx.setEp_pswh (c : Ctx) (e : EReg) (p : Ep) : (c.setEp e p).pswh = c.pswh := rfl
@[simp] theorem Ctx.setEp_timeh (c : Ctx) (e : EReg) (p : Ep) : (c.setEp e p).timeh = c.timeh := rfl
@[simp] theorem Ctx.setEp_insth (c : Ctx) (e : EReg) (p : Ep) : (c.setEp e p).insth = c.insth := rfl
@[simp] theorem Ctx.setEp_swh (c : Ctx) (e : EReg) (p : Ep) : (c.setEp e p).swh = c.swh := rfl
@[simp] theorem Ctx.setEp_fpcsr (c : Ctx) (e : EReg) (p : Ep) : (c.setEp e p).fpcsr = c.fpcsr := rfl
@[simp] theorem Ctx.setEp_rcsr (c : Ctx) (e : EReg) (p : Ep) : (c.setEp e p).rcsr = c.rcsr := rfl
@[simp] theorem Ctx.setEp_flight (c : Ctx) (e : EReg) (p : Ep) : (c.setEp e p).flight = c.flight := rfl
@[simp] theorem Ctx.setEp_dom (c : Ctx) (e : EReg) (p : Ep) : (c.setEp e p).dom = c.dom := rfl
@[simp] theorem Ctx.setEp_decl (c : Ctx) (e : EReg) (p : Ep) : (c.setEp e p).decl = c.decl := rfl
@[simp] theorem Ctx.setEp_live (c : Ctx) (e : EReg) (p : Ep) : (c.setEp e p).live = c.live := rfl
@[simp] theorem Ctx.setEp_dcur (c : Ctx) (e : EReg) (p : Ep) : (c.setEp e p).dcur = c.dcur := rfl
@[simp] theorem Ctx.setEp_dnxt (c : Ctx) (e : EReg) (p : Ep) : (c.setEp e p).dnxt = c.dnxt := rfl
@[simp] theorem Ctx.setEp_pause (c : Ctx) (e : EReg) (p : Ep) : (c.setEp e p).pause = c.pause := rfl
@[simp] theorem Ctx.setEp_pauseFlags (c : Ctx) (e : EReg) (p : Ep) : (c.setEp e p).pauseFlags = c.pauseFlags := rfl
@[simp] theorem Ctx.setEp_causality (c : Ctx) (e : EReg) (p : Ep) : (c.setEp e p).causality = c.causality := rfl
@[simp] theorem Ctx.setEp_watchdog (c : Ctx) (e : EReg) (p : Ep) : (c.setEp e p).watchdog = c.watchdog := rfl
@[simp] theorem Ctx.setEp_arrival (c : Ctx) (e : EReg) (p : Ep) : (c.setEp e p).arrival = c.arrival := rfl
@[simp] theorem Ctx.setEp_barrierFree (c : Ctx) (e : EReg) (p : Ep) : (c.setEp e p).barrierFree = c.barrierFree := rfl
@[simp] theorem Ctx.setEp_want (c : Ctx) (e : EReg) (p : Ep) : (c.setEp e p).want = c.want := rfl
@[simp] theorem Ctx.setEp_vmin (c : Ctx) (e : EReg) (p : Ep) : (c.setEp e p).vmin = c.vmin := rfl
@[simp] theorem Ctx.setEp_count (c : Ctx) (e : EReg) (p : Ep) : (c.setEp e p).count = c.count := rfl
@[simp] theorem Ctx.setEp_vl (c : Ctx) (e : EReg) (p : Ep) : (c.setEp e p).vl = c.vl := rfl
@[simp] theorem Ctx.setEp_owed (c : Ctx) (e : EReg) (p : Ep) : (c.setEp e p).owed = c.owed := rfl
@[simp] theorem Ctx.setEp_vloop (c : Ctx) (e : EReg) (p : Ep) : (c.setEp e p).vloop = c.vloop := rfl
@[simp] theorem Ctx.setEp_mfmt (c : Ctx) (e : EReg) (p : Ep) : (c.setEp e p).mfmt = c.mfmt := rfl
@[simp] theorem Ctx.setEp_mrowmask (c : Ctx) (e : EReg) (p : Ep) : (c.setEp e p).mrowmask = c.mrowmask := rfl
@[simp] theorem Ctx.setEp_mchain (c : Ctx) (e : EReg) (p : Ep) : (c.setEp e p).mchain = c.mchain := rfl
@[simp] theorem Ctx.setEp_mopaddr (c : Ctx) (e : EReg) (p : Ep) : (c.setEp e p).mopaddr = c.mopaddr := rfl
@[simp] theorem Ctx.setEp_msatc (c : Ctx) (e : EReg) (p : Ep) : (c.setEp e p).msatc = c.msatc := rfl
@[simp] theorem Ctx.setEp_nanRecord (c : Ctx) (e : EReg) (p : Ep) : (c.setEp e p).nanRecord = c.nanRecord := rfl
@[simp] theorem Ctx.setEp_operandTrap (c : Ctx) (e : EReg) (p : Ep) : (c.setEp e p).operandTrap = c.operandTrap := rfl
@[simp] theorem Ctx.setEp_resumable (c : Ctx) (e : EReg) (p : Ep) : (c.setEp e p).resumable = c.resumable := rfl
@[simp] theorem Ctx.setEp_sizek (c : Ctx) (e : EReg) (p : Ep) : (c.setEp e p).sizek = c.sizek := rfl
@[simp] theorem Ctx.setEp_basek (c : Ctx) (e : EReg) (p : Ep) : (c.setEp e p).basek = c.basek := rfl
@[simp] theorem Ctx.setEp_jpart (c : Ctx) (e : EReg) (p : Ep) : (c.setEp e p).jpart = c.jpart := rfl
@[simp] theorem Ctx.setEp_jentry (c : Ctx) (e : EReg) (p : Ep) : (c.setEp e p).jentry = c.jentry := rfl
@[simp] theorem Ctx.setEp_windows (c : Ctx) (e : EReg) (p : Ep) : (c.setEp e p).windows = c.windows := rfl
@[simp] theorem Ctx.setEp_jobFaults (c : Ctx) (e : EReg) (p : Ep) : (c.setEp e p).jobFaults = c.jobFaults := rfl
@[simp] theorem Ctx.setEp_clearedRefusals (c : Ctx) (e : EReg) (p : Ep) : (c.setEp e p).clearedRefusals = c.clearedRefusals := rfl
@[simp] theorem Ctx.setEp_streams (c : Ctx) (e : EReg) (p : Ep) : (c.setEp e p).streams = c.streams := rfl
@[simp] theorem Ctx.setEp_rau (c : Ctx) (e : EReg) (p : Ep) : (c.setEp e p).rau = c.rau := rfl
@[simp] theorem Ctx.setEp_contribsOut (c : Ctx) (e : EReg) (p : Ep) : (c.setEp e p).contribsOut = c.contribsOut := rfl
@[simp] theorem Ctx.setEp_refused (c : Ctx) (e : EReg) (p : Ep) : (c.setEp e p).refused = c.refused := rfl
@[simp] theorem Ctx.setEp_drop (c : Ctx) (e : EReg) (p : Ep) : (c.setEp e p).drop = c.drop := rfl
@[simp] theorem Ctx.setEp_out (c : Ctx) (e : EReg) (p : Ep) : (c.setEp e p).out = c.out := rfl
@[simp] theorem Ctx.setEp_mustOut (c : Ctx) (e : EReg) (p : Ep) : (c.setEp e p).mustOut = c.mustOut := rfl
@[simp] theorem Ctx.setEp_flushing (c : Ctx) (e : EReg) (p : Ep) : (c.setEp e p).flushing = c.flushing := rfl
@[simp] theorem Ctx.setEp_evictWaits (c : Ctx) (e : EReg) (p : Ep) : (c.setEp e p).evictWaits = c.evictWaits := rfl
@[simp] theorem Ctx.setEp_post (c : Ctx) (e : EReg) (p : Ep) : (c.setEp e p).post = c.post := rfl
@[simp] theorem Ctx.setEp_trigon (c : Ctx) (e : EReg) (p : Ep) : (c.setEp e p).trigon = c.trigon := rfl
@[simp] theorem Ctx.setEp_kinds (c : Ctx) (e : EReg) (p : Ep) : (c.setEp e p).kinds = c.kinds := rfl
@[simp] theorem Ctx.setEp_slips (c : Ctx) (e : EReg) (p : Ep) : (c.setEp e p).slips = c.slips := rfl
@[simp] theorem Ctx.setEp_icmiss (c : Ctx) (e : EReg) (p : Ep) : (c.setEp e p).icmiss = c.icmiss := rfl
@[simp] theorem Ctx.setEp_switchat (c : Ctx) (e : EReg) (p : Ep) : (c.setEp e p).switchat = c.switchat := rfl
@[simp] theorem Ctx.setEp_fetchBuf (c : Ctx) (e : EReg) (p : Ep) : (c.setEp e p).fetchBuf = c.fetchBuf := rfl
@[simp] theorem Ctx.setEp_missed (c : Ctx) (e : EReg) (p : Ep) : (c.setEp e p).missed = c.missed := rfl
@[simp] theorem Ctx.setEp_needLine (c : Ctx) (e : EReg) (p : Ep) : (c.setEp e p).needLine = c.needLine := rfl
@[simp] theorem Ctx.setEp_stepping (c : Ctx) (e : EReg) (p : Ep) : (c.setEp e p).stepping = c.stepping := rfl
@[simp] theorem Ctx.setEp_wait (c : Ctx) (e : EReg) (p : Ep) : (c.setEp e p).wait = c.wait := rfl
@[simp] theorem Ctx.setEp_pend (c : Ctx) (e : EReg) (p : Ep) : (c.setEp e p).pend = c.pend := rfl
@[simp] theorem Ctx.setEp_haltReq (c : Ctx) (e : EReg) (p : Ep) : (c.setEp e p).haltReq = c.haltReq := rfl
@[simp] theorem Ctx.setEp_halted (c : Ctx) (e : EReg) (p : Ep) : (c.setEp e p).halted = c.halted := rfl
@[simp] theorem Ctx.setEp_haltGroup (c : Ctx) (e : EReg) (p : Ep) : (c.setEp e p).haltGroup = c.haltGroup := rfl
@[simp] theorem Ctx.setEp_inIssue (c : Ctx) (e : EReg) (p : Ep) : (c.setEp e p).inIssue = c.inIssue := rfl
@[simp] theorem Ctx.setEp_stopped (c : Ctx) (e : EReg) (p : Ep) : (c.setEp e p).stopped = c.stopped := rfl
@[simp] theorem Ctx.setEp_port (c : Ctx) (e : EReg) (p : Ep) : (c.setEp e p).port = c.port := rfl
@[simp] theorem Ctx.setEp_portResult (c : Ctx) (e : EReg) (p : Ep) : (c.setEp e p).portResult = c.portResult := rfl

@[simp] theorem Ctx.setPc_phase (c : Ctx) (w : Word) : (c.setPc w).phase = c.phase := rfl
@[simp] theorem Ctx.setPc_tenant (c : Ctx) (w : Word) : (c.setPc w).tenant = c.tenant := rfl
@[simp] theorem Ctx.setPc_origin (c : Ctx) (w : Word) : (c.setPc w).origin = c.origin := rfl
@[simp] theorem Ctx.setPc_child (c : Ctx) (w : Word) : (c.setPc w).child = c.child := rfl
@[simp] theorem Ctx.setPc_retiring (c : Ctx) (w : Word) : (c.setPc w).retiring = c.retiring := rfl
@[simp] theorem Ctx.setPc_x (c : Ctx) (w : Word) : (c.setPc w).x = c.x := rfl
@[simp] theorem Ctx.setPc_f (c : Ctx) (w : Word) : (c.setPc w).f = c.f := rfl
@[simp] theorem Ctx.setPc_v (c : Ctx) (w : Word) : (c.setPc w).v = c.v := rfl
@[simp] theorem Ctx.setPc_prv (c : Ctx) (w : Word) : (c.setPc w).prv = c.prv := rfl
@[simp] theorem Ctx.setPc_rm (c : Ctx) (w : Word) : (c.setPc w).rm = c.rm := rfl
@[simp] theorem Ctx.setPc_ie (c : Ctx) (w : Word) : (c.setPc w).ie = c.ie := rfl
@[simp] theorem Ctx.setPc_lact (c : Ctx) (w : Word) : (c.setPc w).lact = c.lact := rfl
@[simp] theorem Ctx.setPc_t (c : Ctx) (w : Word) : (c.setPc w).t = c.t := rfl
@[simp] theorem Ctx.setPc_pprv (c : Ctx) (w : Word) : (c.setPc w).pprv = c.pprv := rfl
@[simp] theorem Ctx.setPc_pie (c : Ctx) (w : Word) : (c.setPc w).pie = c.pie := rfl
@[simp] theorem Ctx.setPc_plact (c : Ctx) (w : Word) : (c.setPc w).plact = c.plact := rfl
@[simp] theorem Ctx.setPc_intrap (c : Ctx) (w : Word) : (c.setPc w).intrap = c.intrap := rfl
@[simp] theorem Ctx.setPc_epc (c : Ctx) (w : Word) : (c.setPc w).epc = c.epc := rfl
@[simp] theorem Ctx.setPc_cause (c : Ctx) (w : Word) : (c.setPc w).cause = c.cause := rfl
@[simp] theorem Ctx.setPc_tval (c : Ctx) (w : Word) : (c.setPc w).tval = c.tval := rfl
@[simp] theorem Ctx.setPc_tvec (c : Ctx) (w : Word) : (c.setPc w).tvec = c.tvec := rfl
@[simp] theorem Ctx.setPc_kscr0 (c : Ctx) (w : Word) : (c.setPc w).kscr0 = c.kscr0 := rfl
@[simp] theorem Ctx.setPc_kscr1 (c : Ctx) (w : Word) : (c.setPc w).kscr1 = c.kscr1 := rfl
@[simp] theorem Ctx.setPc_lcnt (c : Ctx) (w : Word) : (c.setPc w).lcnt = c.lcnt := rfl
@[simp] theorem Ctx.setPc_lstart (c : Ctx) (w : Word) : (c.setPc w).lstart = c.lstart := rfl
@[simp] theorem Ctx.setPc_lend (c : Ctx) (w : Word) : (c.setPc w).lend = c.lend := rfl
@[simp] theorem Ctx.setPc_lrem (c : Ctx) (w : Word) : (c.setPc w).lrem = c.lrem := rfl
@[simp] theorem Ctx.setPc_ptimeh (c : Ctx) (w : Word) : (c.setPc w).ptimeh = c.ptimeh := rfl
@[simp] theorem Ctx.setPc_pinsth (c : Ctx) (w : Word) : (c.setPc w).pinsth = c.pinsth := rfl
@[simp] theorem Ctx.setPc_pswh (c : Ctx) (w : Word) : (c.setPc w).pswh = c.pswh := rfl
@[simp] theorem Ctx.setPc_timeh (c : Ctx) (w : Word) : (c.setPc w).timeh = c.timeh := rfl
@[simp] theorem Ctx.setPc_insth (c : Ctx) (w : Word) : (c.setPc w).insth = c.insth := rfl
@[simp] theorem Ctx.setPc_swh (c : Ctx) (w : Word) : (c.setPc w).swh = c.swh := rfl
@[simp] theorem Ctx.setPc_fpcsr (c : Ctx) (w : Word) : (c.setPc w).fpcsr = c.fpcsr := rfl
@[simp] theorem Ctx.setPc_rcsr (c : Ctx) (w : Word) : (c.setPc w).rcsr = c.rcsr := rfl
@[simp] theorem Ctx.setPc_flight (c : Ctx) (w : Word) : (c.setPc w).flight = c.flight := rfl
@[simp] theorem Ctx.setPc_dom (c : Ctx) (w : Word) : (c.setPc w).dom = c.dom := rfl
@[simp] theorem Ctx.setPc_decl (c : Ctx) (w : Word) : (c.setPc w).decl = c.decl := rfl
@[simp] theorem Ctx.setPc_live (c : Ctx) (w : Word) : (c.setPc w).live = c.live := rfl
@[simp] theorem Ctx.setPc_dcur (c : Ctx) (w : Word) : (c.setPc w).dcur = c.dcur := rfl
@[simp] theorem Ctx.setPc_dnxt (c : Ctx) (w : Word) : (c.setPc w).dnxt = c.dnxt := rfl
@[simp] theorem Ctx.setPc_pause (c : Ctx) (w : Word) : (c.setPc w).pause = c.pause := rfl
@[simp] theorem Ctx.setPc_pauseFlags (c : Ctx) (w : Word) : (c.setPc w).pauseFlags = c.pauseFlags := rfl
@[simp] theorem Ctx.setPc_causality (c : Ctx) (w : Word) : (c.setPc w).causality = c.causality := rfl
@[simp] theorem Ctx.setPc_watchdog (c : Ctx) (w : Word) : (c.setPc w).watchdog = c.watchdog := rfl
@[simp] theorem Ctx.setPc_arrival (c : Ctx) (w : Word) : (c.setPc w).arrival = c.arrival := rfl
@[simp] theorem Ctx.setPc_barrierFree (c : Ctx) (w : Word) : (c.setPc w).barrierFree = c.barrierFree := rfl
@[simp] theorem Ctx.setPc_want (c : Ctx) (w : Word) : (c.setPc w).want = c.want := rfl
@[simp] theorem Ctx.setPc_vmin (c : Ctx) (w : Word) : (c.setPc w).vmin = c.vmin := rfl
@[simp] theorem Ctx.setPc_count (c : Ctx) (w : Word) : (c.setPc w).count = c.count := rfl
@[simp] theorem Ctx.setPc_vl (c : Ctx) (w : Word) : (c.setPc w).vl = c.vl := rfl
@[simp] theorem Ctx.setPc_owed (c : Ctx) (w : Word) : (c.setPc w).owed = c.owed := rfl
@[simp] theorem Ctx.setPc_vloop (c : Ctx) (w : Word) : (c.setPc w).vloop = c.vloop := rfl
@[simp] theorem Ctx.setPc_mfmt (c : Ctx) (w : Word) : (c.setPc w).mfmt = c.mfmt := rfl
@[simp] theorem Ctx.setPc_mrowmask (c : Ctx) (w : Word) : (c.setPc w).mrowmask = c.mrowmask := rfl
@[simp] theorem Ctx.setPc_mchain (c : Ctx) (w : Word) : (c.setPc w).mchain = c.mchain := rfl
@[simp] theorem Ctx.setPc_mopaddr (c : Ctx) (w : Word) : (c.setPc w).mopaddr = c.mopaddr := rfl
@[simp] theorem Ctx.setPc_msatc (c : Ctx) (w : Word) : (c.setPc w).msatc = c.msatc := rfl
@[simp] theorem Ctx.setPc_nanRecord (c : Ctx) (w : Word) : (c.setPc w).nanRecord = c.nanRecord := rfl
@[simp] theorem Ctx.setPc_operandTrap (c : Ctx) (w : Word) : (c.setPc w).operandTrap = c.operandTrap := rfl
@[simp] theorem Ctx.setPc_resumable (c : Ctx) (w : Word) : (c.setPc w).resumable = c.resumable := rfl
@[simp] theorem Ctx.setPc_sizek (c : Ctx) (w : Word) : (c.setPc w).sizek = c.sizek := rfl
@[simp] theorem Ctx.setPc_basek (c : Ctx) (w : Word) : (c.setPc w).basek = c.basek := rfl
@[simp] theorem Ctx.setPc_jpart (c : Ctx) (w : Word) : (c.setPc w).jpart = c.jpart := rfl
@[simp] theorem Ctx.setPc_jentry (c : Ctx) (w : Word) : (c.setPc w).jentry = c.jentry := rfl
@[simp] theorem Ctx.setPc_windows (c : Ctx) (w : Word) : (c.setPc w).windows = c.windows := rfl
@[simp] theorem Ctx.setPc_jobFaults (c : Ctx) (w : Word) : (c.setPc w).jobFaults = c.jobFaults := rfl
@[simp] theorem Ctx.setPc_clearedRefusals (c : Ctx) (w : Word) : (c.setPc w).clearedRefusals = c.clearedRefusals := rfl
@[simp] theorem Ctx.setPc_streams (c : Ctx) (w : Word) : (c.setPc w).streams = c.streams := rfl
@[simp] theorem Ctx.setPc_eps (c : Ctx) (w : Word) : (c.setPc w).eps = c.eps := rfl
@[simp] theorem Ctx.setPc_rau (c : Ctx) (w : Word) : (c.setPc w).rau = c.rau := rfl
@[simp] theorem Ctx.setPc_contribsOut (c : Ctx) (w : Word) : (c.setPc w).contribsOut = c.contribsOut := rfl
@[simp] theorem Ctx.setPc_refused (c : Ctx) (w : Word) : (c.setPc w).refused = c.refused := rfl
@[simp] theorem Ctx.setPc_drop (c : Ctx) (w : Word) : (c.setPc w).drop = c.drop := rfl
@[simp] theorem Ctx.setPc_out (c : Ctx) (w : Word) : (c.setPc w).out = c.out := rfl
@[simp] theorem Ctx.setPc_mustOut (c : Ctx) (w : Word) : (c.setPc w).mustOut = c.mustOut := rfl
@[simp] theorem Ctx.setPc_flushing (c : Ctx) (w : Word) : (c.setPc w).flushing = c.flushing := rfl
@[simp] theorem Ctx.setPc_evictWaits (c : Ctx) (w : Word) : (c.setPc w).evictWaits = c.evictWaits := rfl
@[simp] theorem Ctx.setPc_post (c : Ctx) (w : Word) : (c.setPc w).post = c.post := rfl
@[simp] theorem Ctx.setPc_trigon (c : Ctx) (w : Word) : (c.setPc w).trigon = c.trigon := rfl
@[simp] theorem Ctx.setPc_kinds (c : Ctx) (w : Word) : (c.setPc w).kinds = c.kinds := rfl
@[simp] theorem Ctx.setPc_slips (c : Ctx) (w : Word) : (c.setPc w).slips = c.slips := rfl
@[simp] theorem Ctx.setPc_icmiss (c : Ctx) (w : Word) : (c.setPc w).icmiss = c.icmiss := rfl
@[simp] theorem Ctx.setPc_switchat (c : Ctx) (w : Word) : (c.setPc w).switchat = c.switchat := rfl
@[simp] theorem Ctx.setPc_fetchBuf (c : Ctx) (w : Word) : (c.setPc w).fetchBuf = c.fetchBuf := rfl
@[simp] theorem Ctx.setPc_missed (c : Ctx) (w : Word) : (c.setPc w).missed = c.missed := rfl
@[simp] theorem Ctx.setPc_needLine (c : Ctx) (w : Word) : (c.setPc w).needLine = c.needLine := rfl
@[simp] theorem Ctx.setPc_stepping (c : Ctx) (w : Word) : (c.setPc w).stepping = c.stepping := rfl
@[simp] theorem Ctx.setPc_wait (c : Ctx) (w : Word) : (c.setPc w).wait = c.wait := rfl
@[simp] theorem Ctx.setPc_pend (c : Ctx) (w : Word) : (c.setPc w).pend = c.pend := rfl
@[simp] theorem Ctx.setPc_haltReq (c : Ctx) (w : Word) : (c.setPc w).haltReq = c.haltReq := rfl
@[simp] theorem Ctx.setPc_halted (c : Ctx) (w : Word) : (c.setPc w).halted = c.halted := rfl
@[simp] theorem Ctx.setPc_haltGroup (c : Ctx) (w : Word) : (c.setPc w).haltGroup = c.haltGroup := rfl
@[simp] theorem Ctx.setPc_inIssue (c : Ctx) (w : Word) : (c.setPc w).inIssue = c.inIssue := rfl
@[simp] theorem Ctx.setPc_stopped (c : Ctx) (w : Word) : (c.setPc w).stopped = c.stopped := rfl
@[simp] theorem Ctx.setPc_port (c : Ctx) (w : Word) : (c.setPc w).port = c.port := rfl
@[simp] theorem Ctx.setPc_portResult (c : Ctx) (w : Word) : (c.setPc w).portResult = c.portResult := rfl

@[simp] theorem Ctx.ready_phase (c : Ctx)  : (c.ready).phase = c.phase := rfl
@[simp] theorem Ctx.ready_tenant (c : Ctx)  : (c.ready).tenant = c.tenant := rfl
@[simp] theorem Ctx.ready_origin (c : Ctx)  : (c.ready).origin = c.origin := rfl
@[simp] theorem Ctx.ready_child (c : Ctx)  : (c.ready).child = c.child := rfl
@[simp] theorem Ctx.ready_retiring (c : Ctx)  : (c.ready).retiring = c.retiring := rfl
@[simp] theorem Ctx.ready_pc (c : Ctx)  : (c.ready).pc = c.pc := rfl
@[simp] theorem Ctx.ready_x (c : Ctx)  : (c.ready).x = c.x := rfl
@[simp] theorem Ctx.ready_f (c : Ctx)  : (c.ready).f = c.f := rfl
@[simp] theorem Ctx.ready_v (c : Ctx)  : (c.ready).v = c.v := rfl
@[simp] theorem Ctx.ready_prv (c : Ctx)  : (c.ready).prv = c.prv := rfl
@[simp] theorem Ctx.ready_rm (c : Ctx)  : (c.ready).rm = c.rm := rfl
@[simp] theorem Ctx.ready_ie (c : Ctx)  : (c.ready).ie = c.ie := rfl
@[simp] theorem Ctx.ready_lact (c : Ctx)  : (c.ready).lact = c.lact := rfl
@[simp] theorem Ctx.ready_t (c : Ctx)  : (c.ready).t = c.t := rfl
@[simp] theorem Ctx.ready_pprv (c : Ctx)  : (c.ready).pprv = c.pprv := rfl
@[simp] theorem Ctx.ready_pie (c : Ctx)  : (c.ready).pie = c.pie := rfl
@[simp] theorem Ctx.ready_plact (c : Ctx)  : (c.ready).plact = c.plact := rfl
@[simp] theorem Ctx.ready_intrap (c : Ctx)  : (c.ready).intrap = c.intrap := rfl
@[simp] theorem Ctx.ready_epc (c : Ctx)  : (c.ready).epc = c.epc := rfl
@[simp] theorem Ctx.ready_cause (c : Ctx)  : (c.ready).cause = c.cause := rfl
@[simp] theorem Ctx.ready_tval (c : Ctx)  : (c.ready).tval = c.tval := rfl
@[simp] theorem Ctx.ready_tvec (c : Ctx)  : (c.ready).tvec = c.tvec := rfl
@[simp] theorem Ctx.ready_kscr0 (c : Ctx)  : (c.ready).kscr0 = c.kscr0 := rfl
@[simp] theorem Ctx.ready_kscr1 (c : Ctx)  : (c.ready).kscr1 = c.kscr1 := rfl
@[simp] theorem Ctx.ready_lcnt (c : Ctx)  : (c.ready).lcnt = c.lcnt := rfl
@[simp] theorem Ctx.ready_lstart (c : Ctx)  : (c.ready).lstart = c.lstart := rfl
@[simp] theorem Ctx.ready_lend (c : Ctx)  : (c.ready).lend = c.lend := rfl
@[simp] theorem Ctx.ready_lrem (c : Ctx)  : (c.ready).lrem = c.lrem := rfl
@[simp] theorem Ctx.ready_ptimeh (c : Ctx)  : (c.ready).ptimeh = c.ptimeh := rfl
@[simp] theorem Ctx.ready_pinsth (c : Ctx)  : (c.ready).pinsth = c.pinsth := rfl
@[simp] theorem Ctx.ready_pswh (c : Ctx)  : (c.ready).pswh = c.pswh := rfl
@[simp] theorem Ctx.ready_timeh (c : Ctx)  : (c.ready).timeh = c.timeh := rfl
@[simp] theorem Ctx.ready_insth (c : Ctx)  : (c.ready).insth = c.insth := rfl
@[simp] theorem Ctx.ready_swh (c : Ctx)  : (c.ready).swh = c.swh := rfl
@[simp] theorem Ctx.ready_fpcsr (c : Ctx)  : (c.ready).fpcsr = c.fpcsr := rfl
@[simp] theorem Ctx.ready_rcsr (c : Ctx)  : (c.ready).rcsr = c.rcsr := rfl
@[simp] theorem Ctx.ready_flight (c : Ctx)  : (c.ready).flight = c.flight := rfl
@[simp] theorem Ctx.ready_dom (c : Ctx)  : (c.ready).dom = c.dom := rfl
@[simp] theorem Ctx.ready_decl (c : Ctx)  : (c.ready).decl = c.decl := rfl
@[simp] theorem Ctx.ready_live (c : Ctx)  : (c.ready).live = c.live := rfl
@[simp] theorem Ctx.ready_dcur (c : Ctx)  : (c.ready).dcur = c.dcur := rfl
@[simp] theorem Ctx.ready_dnxt (c : Ctx)  : (c.ready).dnxt = c.dnxt := rfl
@[simp] theorem Ctx.ready_pause (c : Ctx)  : (c.ready).pause = c.pause := rfl
@[simp] theorem Ctx.ready_pauseFlags (c : Ctx)  : (c.ready).pauseFlags = c.pauseFlags := rfl
@[simp] theorem Ctx.ready_causality (c : Ctx)  : (c.ready).causality = c.causality := rfl
@[simp] theorem Ctx.ready_watchdog (c : Ctx)  : (c.ready).watchdog = c.watchdog := rfl
@[simp] theorem Ctx.ready_arrival (c : Ctx)  : (c.ready).arrival = c.arrival := rfl
@[simp] theorem Ctx.ready_barrierFree (c : Ctx)  : (c.ready).barrierFree = c.barrierFree := rfl
@[simp] theorem Ctx.ready_want (c : Ctx)  : (c.ready).want = c.want := rfl
@[simp] theorem Ctx.ready_vmin (c : Ctx)  : (c.ready).vmin = c.vmin := rfl
@[simp] theorem Ctx.ready_count (c : Ctx)  : (c.ready).count = c.count := rfl
@[simp] theorem Ctx.ready_vl (c : Ctx)  : (c.ready).vl = c.vl := rfl
@[simp] theorem Ctx.ready_owed (c : Ctx)  : (c.ready).owed = c.owed := rfl
@[simp] theorem Ctx.ready_vloop (c : Ctx)  : (c.ready).vloop = c.vloop := rfl
@[simp] theorem Ctx.ready_mfmt (c : Ctx)  : (c.ready).mfmt = c.mfmt := rfl
@[simp] theorem Ctx.ready_mrowmask (c : Ctx)  : (c.ready).mrowmask = c.mrowmask := rfl
@[simp] theorem Ctx.ready_mchain (c : Ctx)  : (c.ready).mchain = c.mchain := rfl
@[simp] theorem Ctx.ready_mopaddr (c : Ctx)  : (c.ready).mopaddr = c.mopaddr := rfl
@[simp] theorem Ctx.ready_msatc (c : Ctx)  : (c.ready).msatc = c.msatc := rfl
@[simp] theorem Ctx.ready_nanRecord (c : Ctx)  : (c.ready).nanRecord = c.nanRecord := rfl
@[simp] theorem Ctx.ready_operandTrap (c : Ctx)  : (c.ready).operandTrap = c.operandTrap := rfl
@[simp] theorem Ctx.ready_resumable (c : Ctx)  : (c.ready).resumable = c.resumable := rfl
@[simp] theorem Ctx.ready_sizek (c : Ctx)  : (c.ready).sizek = c.sizek := rfl
@[simp] theorem Ctx.ready_basek (c : Ctx)  : (c.ready).basek = c.basek := rfl
@[simp] theorem Ctx.ready_jpart (c : Ctx)  : (c.ready).jpart = c.jpart := rfl
@[simp] theorem Ctx.ready_jentry (c : Ctx)  : (c.ready).jentry = c.jentry := rfl
@[simp] theorem Ctx.ready_windows (c : Ctx)  : (c.ready).windows = c.windows := rfl
@[simp] theorem Ctx.ready_jobFaults (c : Ctx)  : (c.ready).jobFaults = c.jobFaults := rfl
@[simp] theorem Ctx.ready_clearedRefusals (c : Ctx)  : (c.ready).clearedRefusals = c.clearedRefusals := rfl
@[simp] theorem Ctx.ready_streams (c : Ctx)  : (c.ready).streams = c.streams := rfl
@[simp] theorem Ctx.ready_eps (c : Ctx)  : (c.ready).eps = c.eps := rfl
@[simp] theorem Ctx.ready_rau (c : Ctx)  : (c.ready).rau = c.rau := rfl
@[simp] theorem Ctx.ready_contribsOut (c : Ctx)  : (c.ready).contribsOut = c.contribsOut := rfl
@[simp] theorem Ctx.ready_refused (c : Ctx)  : (c.ready).refused = c.refused := rfl
@[simp] theorem Ctx.ready_drop (c : Ctx)  : (c.ready).drop = c.drop := rfl
@[simp] theorem Ctx.ready_out (c : Ctx)  : (c.ready).out = c.out := rfl
@[simp] theorem Ctx.ready_mustOut (c : Ctx)  : (c.ready).mustOut = c.mustOut := rfl
@[simp] theorem Ctx.ready_flushing (c : Ctx)  : (c.ready).flushing = c.flushing := rfl
@[simp] theorem Ctx.ready_evictWaits (c : Ctx)  : (c.ready).evictWaits = c.evictWaits := rfl
@[simp] theorem Ctx.ready_post (c : Ctx)  : (c.ready).post = c.post := rfl
@[simp] theorem Ctx.ready_trigon (c : Ctx)  : (c.ready).trigon = c.trigon := rfl
@[simp] theorem Ctx.ready_kinds (c : Ctx)  : (c.ready).kinds = c.kinds := rfl
@[simp] theorem Ctx.ready_slips (c : Ctx)  : (c.ready).slips = c.slips := rfl
@[simp] theorem Ctx.ready_icmiss (c : Ctx)  : (c.ready).icmiss = c.icmiss := rfl
@[simp] theorem Ctx.ready_switchat (c : Ctx)  : (c.ready).switchat = c.switchat := rfl
@[simp] theorem Ctx.ready_fetchBuf (c : Ctx)  : (c.ready).fetchBuf = c.fetchBuf := rfl
@[simp] theorem Ctx.ready_needLine (c : Ctx)  : (c.ready).needLine = c.needLine := rfl
@[simp] theorem Ctx.ready_haltReq (c : Ctx)  : (c.ready).haltReq = c.haltReq := rfl
@[simp] theorem Ctx.ready_halted (c : Ctx)  : (c.ready).halted = c.halted := rfl
@[simp] theorem Ctx.ready_haltGroup (c : Ctx)  : (c.ready).haltGroup = c.haltGroup := rfl
@[simp] theorem Ctx.ready_stopped (c : Ctx)  : (c.ready).stopped = c.stopped := rfl
@[simp] theorem Ctx.ready_port (c : Ctx)  : (c.ready).port = c.port := rfl
@[simp] theorem Ctx.ready_portResult (c : Ctx)  : (c.ready).portResult = c.portResult := rfl

@[simp] theorem Ctx.setX_phase (c : Ctx) (r : XReg) (w : Word) : (c.setX r w).phase = c.phase := by
  unfold Ctx.setX; split <;> rfl
@[simp] theorem Ctx.setX_tenant (c : Ctx) (r : XReg) (w : Word) : (c.setX r w).tenant = c.tenant := by
  unfold Ctx.setX; split <;> rfl
@[simp] theorem Ctx.setX_origin (c : Ctx) (r : XReg) (w : Word) : (c.setX r w).origin = c.origin := by
  unfold Ctx.setX; split <;> rfl
@[simp] theorem Ctx.setX_child (c : Ctx) (r : XReg) (w : Word) : (c.setX r w).child = c.child := by
  unfold Ctx.setX; split <;> rfl
@[simp] theorem Ctx.setX_retiring (c : Ctx) (r : XReg) (w : Word) : (c.setX r w).retiring = c.retiring := by
  unfold Ctx.setX; split <;> rfl
@[simp] theorem Ctx.setX_pc (c : Ctx) (r : XReg) (w : Word) : (c.setX r w).pc = c.pc := by
  unfold Ctx.setX; split <;> rfl
@[simp] theorem Ctx.setX_f (c : Ctx) (r : XReg) (w : Word) : (c.setX r w).f = c.f := by
  unfold Ctx.setX; split <;> rfl
@[simp] theorem Ctx.setX_v (c : Ctx) (r : XReg) (w : Word) : (c.setX r w).v = c.v := by
  unfold Ctx.setX; split <;> rfl
@[simp] theorem Ctx.setX_prv (c : Ctx) (r : XReg) (w : Word) : (c.setX r w).prv = c.prv := by
  unfold Ctx.setX; split <;> rfl
@[simp] theorem Ctx.setX_rm (c : Ctx) (r : XReg) (w : Word) : (c.setX r w).rm = c.rm := by
  unfold Ctx.setX; split <;> rfl
@[simp] theorem Ctx.setX_ie (c : Ctx) (r : XReg) (w : Word) : (c.setX r w).ie = c.ie := by
  unfold Ctx.setX; split <;> rfl
@[simp] theorem Ctx.setX_lact (c : Ctx) (r : XReg) (w : Word) : (c.setX r w).lact = c.lact := by
  unfold Ctx.setX; split <;> rfl
@[simp] theorem Ctx.setX_t (c : Ctx) (r : XReg) (w : Word) : (c.setX r w).t = c.t := by
  unfold Ctx.setX; split <;> rfl
@[simp] theorem Ctx.setX_pprv (c : Ctx) (r : XReg) (w : Word) : (c.setX r w).pprv = c.pprv := by
  unfold Ctx.setX; split <;> rfl
@[simp] theorem Ctx.setX_pie (c : Ctx) (r : XReg) (w : Word) : (c.setX r w).pie = c.pie := by
  unfold Ctx.setX; split <;> rfl
@[simp] theorem Ctx.setX_plact (c : Ctx) (r : XReg) (w : Word) : (c.setX r w).plact = c.plact := by
  unfold Ctx.setX; split <;> rfl
@[simp] theorem Ctx.setX_intrap (c : Ctx) (r : XReg) (w : Word) : (c.setX r w).intrap = c.intrap := by
  unfold Ctx.setX; split <;> rfl
@[simp] theorem Ctx.setX_epc (c : Ctx) (r : XReg) (w : Word) : (c.setX r w).epc = c.epc := by
  unfold Ctx.setX; split <;> rfl
@[simp] theorem Ctx.setX_cause (c : Ctx) (r : XReg) (w : Word) : (c.setX r w).cause = c.cause := by
  unfold Ctx.setX; split <;> rfl
@[simp] theorem Ctx.setX_tval (c : Ctx) (r : XReg) (w : Word) : (c.setX r w).tval = c.tval := by
  unfold Ctx.setX; split <;> rfl
@[simp] theorem Ctx.setX_tvec (c : Ctx) (r : XReg) (w : Word) : (c.setX r w).tvec = c.tvec := by
  unfold Ctx.setX; split <;> rfl
@[simp] theorem Ctx.setX_kscr0 (c : Ctx) (r : XReg) (w : Word) : (c.setX r w).kscr0 = c.kscr0 := by
  unfold Ctx.setX; split <;> rfl
@[simp] theorem Ctx.setX_kscr1 (c : Ctx) (r : XReg) (w : Word) : (c.setX r w).kscr1 = c.kscr1 := by
  unfold Ctx.setX; split <;> rfl
@[simp] theorem Ctx.setX_lcnt (c : Ctx) (r : XReg) (w : Word) : (c.setX r w).lcnt = c.lcnt := by
  unfold Ctx.setX; split <;> rfl
@[simp] theorem Ctx.setX_lstart (c : Ctx) (r : XReg) (w : Word) : (c.setX r w).lstart = c.lstart := by
  unfold Ctx.setX; split <;> rfl
@[simp] theorem Ctx.setX_lend (c : Ctx) (r : XReg) (w : Word) : (c.setX r w).lend = c.lend := by
  unfold Ctx.setX; split <;> rfl
@[simp] theorem Ctx.setX_lrem (c : Ctx) (r : XReg) (w : Word) : (c.setX r w).lrem = c.lrem := by
  unfold Ctx.setX; split <;> rfl
@[simp] theorem Ctx.setX_ptimeh (c : Ctx) (r : XReg) (w : Word) : (c.setX r w).ptimeh = c.ptimeh := by
  unfold Ctx.setX; split <;> rfl
@[simp] theorem Ctx.setX_pinsth (c : Ctx) (r : XReg) (w : Word) : (c.setX r w).pinsth = c.pinsth := by
  unfold Ctx.setX; split <;> rfl
@[simp] theorem Ctx.setX_pswh (c : Ctx) (r : XReg) (w : Word) : (c.setX r w).pswh = c.pswh := by
  unfold Ctx.setX; split <;> rfl
@[simp] theorem Ctx.setX_timeh (c : Ctx) (r : XReg) (w : Word) : (c.setX r w).timeh = c.timeh := by
  unfold Ctx.setX; split <;> rfl
@[simp] theorem Ctx.setX_insth (c : Ctx) (r : XReg) (w : Word) : (c.setX r w).insth = c.insth := by
  unfold Ctx.setX; split <;> rfl
@[simp] theorem Ctx.setX_swh (c : Ctx) (r : XReg) (w : Word) : (c.setX r w).swh = c.swh := by
  unfold Ctx.setX; split <;> rfl
@[simp] theorem Ctx.setX_fpcsr (c : Ctx) (r : XReg) (w : Word) : (c.setX r w).fpcsr = c.fpcsr := by
  unfold Ctx.setX; split <;> rfl
@[simp] theorem Ctx.setX_rcsr (c : Ctx) (r : XReg) (w : Word) : (c.setX r w).rcsr = c.rcsr := by
  unfold Ctx.setX; split <;> rfl
@[simp] theorem Ctx.setX_flight (c : Ctx) (r : XReg) (w : Word) : (c.setX r w).flight = c.flight := by
  unfold Ctx.setX; split <;> rfl
@[simp] theorem Ctx.setX_dom (c : Ctx) (r : XReg) (w : Word) : (c.setX r w).dom = c.dom := by
  unfold Ctx.setX; split <;> rfl
@[simp] theorem Ctx.setX_decl (c : Ctx) (r : XReg) (w : Word) : (c.setX r w).decl = c.decl := by
  unfold Ctx.setX; split <;> rfl
@[simp] theorem Ctx.setX_live (c : Ctx) (r : XReg) (w : Word) : (c.setX r w).live = c.live := by
  unfold Ctx.setX; split <;> rfl
@[simp] theorem Ctx.setX_dcur (c : Ctx) (r : XReg) (w : Word) : (c.setX r w).dcur = c.dcur := by
  unfold Ctx.setX; split <;> rfl
@[simp] theorem Ctx.setX_dnxt (c : Ctx) (r : XReg) (w : Word) : (c.setX r w).dnxt = c.dnxt := by
  unfold Ctx.setX; split <;> rfl
@[simp] theorem Ctx.setX_pause (c : Ctx) (r : XReg) (w : Word) : (c.setX r w).pause = c.pause := by
  unfold Ctx.setX; split <;> rfl
@[simp] theorem Ctx.setX_pauseFlags (c : Ctx) (r : XReg) (w : Word) : (c.setX r w).pauseFlags = c.pauseFlags := by
  unfold Ctx.setX; split <;> rfl
@[simp] theorem Ctx.setX_causality (c : Ctx) (r : XReg) (w : Word) : (c.setX r w).causality = c.causality := by
  unfold Ctx.setX; split <;> rfl
@[simp] theorem Ctx.setX_watchdog (c : Ctx) (r : XReg) (w : Word) : (c.setX r w).watchdog = c.watchdog := by
  unfold Ctx.setX; split <;> rfl
@[simp] theorem Ctx.setX_arrival (c : Ctx) (r : XReg) (w : Word) : (c.setX r w).arrival = c.arrival := by
  unfold Ctx.setX; split <;> rfl
@[simp] theorem Ctx.setX_barrierFree (c : Ctx) (r : XReg) (w : Word) : (c.setX r w).barrierFree = c.barrierFree := by
  unfold Ctx.setX; split <;> rfl
@[simp] theorem Ctx.setX_want (c : Ctx) (r : XReg) (w : Word) : (c.setX r w).want = c.want := by
  unfold Ctx.setX; split <;> rfl
@[simp] theorem Ctx.setX_vmin (c : Ctx) (r : XReg) (w : Word) : (c.setX r w).vmin = c.vmin := by
  unfold Ctx.setX; split <;> rfl
@[simp] theorem Ctx.setX_count (c : Ctx) (r : XReg) (w : Word) : (c.setX r w).count = c.count := by
  unfold Ctx.setX; split <;> rfl
@[simp] theorem Ctx.setX_vl (c : Ctx) (r : XReg) (w : Word) : (c.setX r w).vl = c.vl := by
  unfold Ctx.setX; split <;> rfl
@[simp] theorem Ctx.setX_owed (c : Ctx) (r : XReg) (w : Word) : (c.setX r w).owed = c.owed := by
  unfold Ctx.setX; split <;> rfl
@[simp] theorem Ctx.setX_vloop (c : Ctx) (r : XReg) (w : Word) : (c.setX r w).vloop = c.vloop := by
  unfold Ctx.setX; split <;> rfl
@[simp] theorem Ctx.setX_mfmt (c : Ctx) (r : XReg) (w : Word) : (c.setX r w).mfmt = c.mfmt := by
  unfold Ctx.setX; split <;> rfl
@[simp] theorem Ctx.setX_mrowmask (c : Ctx) (r : XReg) (w : Word) : (c.setX r w).mrowmask = c.mrowmask := by
  unfold Ctx.setX; split <;> rfl
@[simp] theorem Ctx.setX_mchain (c : Ctx) (r : XReg) (w : Word) : (c.setX r w).mchain = c.mchain := by
  unfold Ctx.setX; split <;> rfl
@[simp] theorem Ctx.setX_mopaddr (c : Ctx) (r : XReg) (w : Word) : (c.setX r w).mopaddr = c.mopaddr := by
  unfold Ctx.setX; split <;> rfl
@[simp] theorem Ctx.setX_msatc (c : Ctx) (r : XReg) (w : Word) : (c.setX r w).msatc = c.msatc := by
  unfold Ctx.setX; split <;> rfl
@[simp] theorem Ctx.setX_nanRecord (c : Ctx) (r : XReg) (w : Word) : (c.setX r w).nanRecord = c.nanRecord := by
  unfold Ctx.setX; split <;> rfl
@[simp] theorem Ctx.setX_operandTrap (c : Ctx) (r : XReg) (w : Word) : (c.setX r w).operandTrap = c.operandTrap := by
  unfold Ctx.setX; split <;> rfl
@[simp] theorem Ctx.setX_resumable (c : Ctx) (r : XReg) (w : Word) : (c.setX r w).resumable = c.resumable := by
  unfold Ctx.setX; split <;> rfl
@[simp] theorem Ctx.setX_sizek (c : Ctx) (r : XReg) (w : Word) : (c.setX r w).sizek = c.sizek := by
  unfold Ctx.setX; split <;> rfl
@[simp] theorem Ctx.setX_basek (c : Ctx) (r : XReg) (w : Word) : (c.setX r w).basek = c.basek := by
  unfold Ctx.setX; split <;> rfl
@[simp] theorem Ctx.setX_jpart (c : Ctx) (r : XReg) (w : Word) : (c.setX r w).jpart = c.jpart := by
  unfold Ctx.setX; split <;> rfl
@[simp] theorem Ctx.setX_jentry (c : Ctx) (r : XReg) (w : Word) : (c.setX r w).jentry = c.jentry := by
  unfold Ctx.setX; split <;> rfl
@[simp] theorem Ctx.setX_windows (c : Ctx) (r : XReg) (w : Word) : (c.setX r w).windows = c.windows := by
  unfold Ctx.setX; split <;> rfl
@[simp] theorem Ctx.setX_jobFaults (c : Ctx) (r : XReg) (w : Word) : (c.setX r w).jobFaults = c.jobFaults := by
  unfold Ctx.setX; split <;> rfl
@[simp] theorem Ctx.setX_clearedRefusals (c : Ctx) (r : XReg) (w : Word) : (c.setX r w).clearedRefusals = c.clearedRefusals := by
  unfold Ctx.setX; split <;> rfl
@[simp] theorem Ctx.setX_streams (c : Ctx) (r : XReg) (w : Word) : (c.setX r w).streams = c.streams := by
  unfold Ctx.setX; split <;> rfl
@[simp] theorem Ctx.setX_eps (c : Ctx) (r : XReg) (w : Word) : (c.setX r w).eps = c.eps := by
  unfold Ctx.setX; split <;> rfl
@[simp] theorem Ctx.setX_rau (c : Ctx) (r : XReg) (w : Word) : (c.setX r w).rau = c.rau := by
  unfold Ctx.setX; split <;> rfl
@[simp] theorem Ctx.setX_contribsOut (c : Ctx) (r : XReg) (w : Word) : (c.setX r w).contribsOut = c.contribsOut := by
  unfold Ctx.setX; split <;> rfl
@[simp] theorem Ctx.setX_refused (c : Ctx) (r : XReg) (w : Word) : (c.setX r w).refused = c.refused := by
  unfold Ctx.setX; split <;> rfl
@[simp] theorem Ctx.setX_drop (c : Ctx) (r : XReg) (w : Word) : (c.setX r w).drop = c.drop := by
  unfold Ctx.setX; split <;> rfl
@[simp] theorem Ctx.setX_out (c : Ctx) (r : XReg) (w : Word) : (c.setX r w).out = c.out := by
  unfold Ctx.setX; split <;> rfl
@[simp] theorem Ctx.setX_mustOut (c : Ctx) (r : XReg) (w : Word) : (c.setX r w).mustOut = c.mustOut := by
  unfold Ctx.setX; split <;> rfl
@[simp] theorem Ctx.setX_flushing (c : Ctx) (r : XReg) (w : Word) : (c.setX r w).flushing = c.flushing := by
  unfold Ctx.setX; split <;> rfl
@[simp] theorem Ctx.setX_evictWaits (c : Ctx) (r : XReg) (w : Word) : (c.setX r w).evictWaits = c.evictWaits := by
  unfold Ctx.setX; split <;> rfl
@[simp] theorem Ctx.setX_post (c : Ctx) (r : XReg) (w : Word) : (c.setX r w).post = c.post := by
  unfold Ctx.setX; split <;> rfl
@[simp] theorem Ctx.setX_trigon (c : Ctx) (r : XReg) (w : Word) : (c.setX r w).trigon = c.trigon := by
  unfold Ctx.setX; split <;> rfl
@[simp] theorem Ctx.setX_kinds (c : Ctx) (r : XReg) (w : Word) : (c.setX r w).kinds = c.kinds := by
  unfold Ctx.setX; split <;> rfl
@[simp] theorem Ctx.setX_slips (c : Ctx) (r : XReg) (w : Word) : (c.setX r w).slips = c.slips := by
  unfold Ctx.setX; split <;> rfl
@[simp] theorem Ctx.setX_icmiss (c : Ctx) (r : XReg) (w : Word) : (c.setX r w).icmiss = c.icmiss := by
  unfold Ctx.setX; split <;> rfl
@[simp] theorem Ctx.setX_switchat (c : Ctx) (r : XReg) (w : Word) : (c.setX r w).switchat = c.switchat := by
  unfold Ctx.setX; split <;> rfl
@[simp] theorem Ctx.setX_fetchBuf (c : Ctx) (r : XReg) (w : Word) : (c.setX r w).fetchBuf = c.fetchBuf := by
  unfold Ctx.setX; split <;> rfl
@[simp] theorem Ctx.setX_missed (c : Ctx) (r : XReg) (w : Word) : (c.setX r w).missed = c.missed := by
  unfold Ctx.setX; split <;> rfl
@[simp] theorem Ctx.setX_needLine (c : Ctx) (r : XReg) (w : Word) : (c.setX r w).needLine = c.needLine := by
  unfold Ctx.setX; split <;> rfl
@[simp] theorem Ctx.setX_stepping (c : Ctx) (r : XReg) (w : Word) : (c.setX r w).stepping = c.stepping := by
  unfold Ctx.setX; split <;> rfl
@[simp] theorem Ctx.setX_wait (c : Ctx) (r : XReg) (w : Word) : (c.setX r w).wait = c.wait := by
  unfold Ctx.setX; split <;> rfl
@[simp] theorem Ctx.setX_pend (c : Ctx) (r : XReg) (w : Word) : (c.setX r w).pend = c.pend := by
  unfold Ctx.setX; split <;> rfl
@[simp] theorem Ctx.setX_haltReq (c : Ctx) (r : XReg) (w : Word) : (c.setX r w).haltReq = c.haltReq := by
  unfold Ctx.setX; split <;> rfl
@[simp] theorem Ctx.setX_halted (c : Ctx) (r : XReg) (w : Word) : (c.setX r w).halted = c.halted := by
  unfold Ctx.setX; split <;> rfl
@[simp] theorem Ctx.setX_haltGroup (c : Ctx) (r : XReg) (w : Word) : (c.setX r w).haltGroup = c.haltGroup := by
  unfold Ctx.setX; split <;> rfl
@[simp] theorem Ctx.setX_inIssue (c : Ctx) (r : XReg) (w : Word) : (c.setX r w).inIssue = c.inIssue := by
  unfold Ctx.setX; split <;> rfl
@[simp] theorem Ctx.setX_stopped (c : Ctx) (r : XReg) (w : Word) : (c.setX r w).stopped = c.stopped := by
  unfold Ctx.setX; split <;> rfl
@[simp] theorem Ctx.setX_port (c : Ctx) (r : XReg) (w : Word) : (c.setX r w).port = c.port := by
  unfold Ctx.setX; split <;> rfl
@[simp] theorem Ctx.setX_portResult (c : Ctx) (r : XReg) (w : Word) : (c.setX r w).portResult = c.portResult := by
  unfold Ctx.setX; split <;> rfl

end Sys2Proof.Machine
end

