-- ==== Sys2Proof/Laws/Memory.lean ====
section
/-!
SUPPORT. Laws/Memory.lean: reading after writing, and the canonical form of memory.
-/
namespace Sys2Proof.Machine

/-- Every listed address of `m` is at least `n`. -/
def Above (n : Nat) (m : List Host.Cell) : Prop := ∀ p ∈ m, n ≤ p.1

theorem memRead_above {m : List Host.Cell} {n a : Nat} (h : Above n m) (ha : a < n) : memRead m a = 0 := by
  cases m with
  | nil => rfl
  | cons p rest =>
    obtain ⟨k, b⟩ := p
    have hk : n ≤ k := h (k, b) (List.mem_cons_self ..)
    simp only [memRead]
    rw [if_neg (by omega), if_pos (by omega)]

theorem Memory.wf_tail {p : Host.Cell} {m : List Host.Cell} (h : Memory.wf (p :: m) = true) : Memory.wf m = true := by
  obtain ⟨k, b⟩ := p
  cases m with
  | nil => rfl
  | cons q rest =>
    obtain ⟨k', b'⟩ := q
    simp only [Memory.wf, Bool.and_eq_true] at h
    exact h.2

theorem Memory.wf_head {k : Nat} {b : Byte} {m : List Host.Cell} (h : Memory.wf ((k, b) :: m) = true) : b ≠ 0 := by
  cases m with
  | nil => simpa [Memory.wf] using h
  | cons q rest =>
    obtain ⟨k', b'⟩ := q
    simp only [Memory.wf, Bool.and_eq_true, bne_iff_ne] at h
    exact h.1.1

theorem Memory.wf_above {k : Nat} {b : Byte} {m : List Host.Cell} (h : Memory.wf ((k, b) :: m) = true) : Above (k + 1) m := by
  induction m generalizing k b with
  | nil => exact fun p hp => absurd hp (List.not_mem_nil)
  | cons q rest ih =>
    obtain ⟨k', b'⟩ := q
    have h' : Memory.wf ((k', b') :: rest) = true := Memory.wf_tail h
    simp only [Memory.wf, Bool.and_eq_true, decide_eq_true_eq] at h
    intro p hp
    rcases List.mem_cons.mp hp with rfl | hp
    · exact h.1.2
    · have := ih h' p hp
      omega

theorem Memory.wf_cons {k : Nat} {b : Byte} {m : List Host.Cell} (hb : b ≠ 0) (ha : Above (k + 1) m) (h : Memory.wf m = true) :
    Memory.wf ((k, b) :: m) = true := by
  cases m with
  | nil => simpa [Memory.wf] using hb
  | cons q rest =>
    obtain ⟨k', b'⟩ := q
    have := ha (k', b') (List.mem_cons_self ..)
    simp only [Memory.wf, Bool.and_eq_true, bne_iff_ne, decide_eq_true_eq]
    exact ⟨⟨hb, this⟩, h⟩

theorem above_memWrite {m : List Host.Cell} {n a : Nat} {b : Byte} (h : Above n m) (ha : n ≤ a) : Above n (memWrite m a b) := by
  induction m with
  | nil =>
    simp only [memWrite]
    split
    · exact fun p hp => absurd hp (List.not_mem_nil)
    · intro p hp
      rw [List.mem_singleton.mp hp]; exact ha
  | cons q rest ih =>
    obtain ⟨k, v⟩ := q
    have hr : Above n rest := fun p hp => h p (List.mem_cons_of_mem _ hp)
    have hk : n ≤ k := h (k, v) (List.mem_cons_self ..)
    simp only [memWrite]
    split
    · split
      · exact h
      · intro p hp
        rcases List.mem_cons.mp hp with rfl | hp
        · exact ha
        · exact h p hp
    · split
      · split
        · exact hr
        · intro p hp
          rcases List.mem_cons.mp hp with rfl | hp
          · exact ha
          · exact hr p hp
      · intro p hp
        rcases List.mem_cons.mp hp with rfl | hp
        · exact hk
        · exact ih hr p hp

/-- Writing a byte keeps the canonical form. -/
theorem Memory.wf_memWrite {m : List Host.Cell} (a : Nat) (b : Byte) (h : Memory.wf m = true) : Memory.wf (memWrite m a b) = true := by
  induction m with
  | nil =>
    simp only [memWrite]
    split
    · rfl
    · exact Memory.wf_cons ‹_› (fun p hp => absurd hp (List.not_mem_nil)) rfl
  | cons q rest ih =>
    obtain ⟨k, v⟩ := q
    have hr := Memory.wf_tail h
    have hab := Memory.wf_above h
    have hv := Memory.wf_head h
    simp only [memWrite]
    split
    · split
      · exact h
      · refine Memory.wf_cons ‹_› ?_ h
        intro p hp
        rcases List.mem_cons.mp hp with rfl | hp
        · assumption
        · have := hab p hp
          omega
    · split
      · next hak =>
        split
        · exact hr
        · refine Memory.wf_cons ‹_› ?_ hr
          subst hak; exact hab
      · exact Memory.wf_cons hv (above_memWrite hab (by omega)) (ih hr)

theorem Memory.wf_memWriteList {m : List Host.Cell} (a : Nat) (bs : List Byte) (h : Memory.wf m = true) :
    Memory.wf (memWriteList m a bs) = true := by
  induction bs generalizing m a with
  | nil => exact h
  | cons b rest ih => exact ih (a + 1) (Memory.wf_memWrite a b h)

theorem memRead_memWrite_same {m : List Host.Cell} (a : Nat) (b : Byte) (h : Memory.wf m = true) :
    memRead (memWrite m a b) a = b := by
  induction m with
  | nil =>
    simp only [memWrite]
    split
    · next hb => rw [hb]; rfl
    · simp [memRead]
  | cons q rest ih =>
    obtain ⟨k, v⟩ := q
    have hab := Memory.wf_above h
    simp only [memWrite]
    split
    · next hlt =>
      split
      · next hb => rw [hb]; simp only [memRead]; rw [if_neg (by omega), if_pos hlt]
      · simp [memRead]
    · split
      · next hlt hak =>
        split
        · next hb => rw [hb, hak]; exact memRead_above hab (by omega)
        · simp [memRead]
      · next h1 h2 =>
        simp only [memRead]
        rw [if_neg h2, if_neg (by omega)]
        exact ih (Memory.wf_tail h)

theorem memRead_memWrite_other {m : List Host.Cell} (a a' : Nat) (b : Byte) (h : Memory.wf m = true) (hne : a' ≠ a) :
    memRead (memWrite m a b) a' = memRead m a' := by
  induction m with
  | nil =>
    simp only [memWrite]
    split
    · rfl
    · simp only [memRead]; rw [if_neg hne]; split <;> rfl
  | cons q rest ih =>
    obtain ⟨k, v⟩ := q
    have hab := Memory.wf_above h
    simp only [memWrite]
    split
    · next hlt =>
      split
      · rfl
      · simp only [memRead]
        rw [if_neg hne]
        split
        · next hlt' => rw [if_neg (by omega), if_pos (by omega)]
        · rfl
    · split
      · next hlt hak =>
        subst hak
        split
        · simp only [memRead]
          rw [if_neg hne]
          split
          · next hlt' => exact memRead_above hab (by omega)
          · rfl
        · simp only [memRead]
          rw [if_neg hne, if_neg hne]
      · simp only [memRead]
        rw [ih (Memory.wf_tail h)]

/-- A byte outside those written reads as before. -/
theorem memRead_memWriteList_other {m : List Host.Cell} (a a' : Nat) (bs : List Byte) (h : Memory.wf m = true)
    (hne : a' < a ∨ a + bs.length ≤ a') : memRead (memWriteList m a bs) a' = memRead m a' := by
  induction bs generalizing m a with
  | nil => rfl
  | cons b rest ih =>
    simp only [List.length_cons] at hne
    show memRead (memWriteList (memWrite m a b) (a + 1) rest) a' = _
    rw [ih (a + 1) (Memory.wf_memWrite a b h) (by omega), memRead_memWrite_other a a' b h (by omega)]

/-- A byte written reads as written. -/
theorem memRead_memWriteList_at {m : List Host.Cell} (a i : Nat) (bs : List Byte) (h : Memory.wf m = true) (hi : i < bs.length) :
    memRead (memWriteList m a bs) (a + i) = bs[i] := by
  induction bs generalizing m a i with
  | nil => exact absurd hi (Nat.not_lt_zero _)
  | cons b rest ih =>
    show memRead (memWriteList (memWrite m a b) (a + 1) rest) (a + i) = _
    cases i with
    | zero =>
      rw [memRead_memWriteList_other (a + 1) (a + 0) rest (Memory.wf_memWrite a b h) (by omega)]
      exact memRead_memWrite_same a b h
    | succ j =>
      have := ih (a + 1) j (Memory.wf_memWrite a b h) (by simpa using hi)
      rw [show a + (j + 1) = a + 1 + j by omega, this]
      simp

theorem storeBytes_wf {s : State} (a : Nat) (bs : List Byte) (h : Memory.wf s.mem = true) : Memory.wf (s.storeBytes a bs).mem = true :=
  Memory.wf_memWriteList a bs h

theorem storeWord_wf {s : State} (a : Nat) (w : Word) (h : Memory.wf s.mem = true) : Memory.wf (s.storeWord a w).mem = true :=
  storeBytes_wf a _ h

theorem correct_wf {s : State} (a n : Nat) (h : Memory.wf s.mem = true) : Memory.wf (s.correct a n).mem = true := by
  unfold State.correct; dsimp only; split <;> exact h

theorem reset_wf : Memory.wf State.reset.mem = true := rfl

theorem byteAt_storeBytes_other {s : State} {a a' : Nat} {bs : List Byte} (h : Memory.wf s.mem = true) (hne : a' < a ∨ a + bs.length ≤ a') :
    (s.storeBytes a bs).byteAt a' = s.byteAt a' :=
  memRead_memWriteList_other a a' bs h hne

theorem byteAt_storeBytes_at {s : State} {a i : Nat} {bs : List Byte} (h : Memory.wf s.mem = true) (hi : i < bs.length) :
    (s.storeBytes a bs).byteAt (a + i) = bs[i] :=
  memRead_memWriteList_at a i bs h hi

end Sys2Proof.Machine
end

