-- ==== Sys2Proof/Laws/Ops.lean ====
section
/-!
SUPPORT. Laws/Ops.lean: what the shared operations do: keyed records, completing a group, transfers and traps.
-/
namespace Sys2Proof.Machine

/-! ### Keyed records -/

theorem lookupD_assign_same {K V : Type} [DecidableEq K] (d : V) (l : List (K × V)) (k : K) (v : V) :
    lookupD d (assign l k v) k = v := by
  induction l with
  | nil => simp [assign, lookupD]
  | cons p rest ih =>
    obtain ⟨k', w⟩ := p
    simp only [assign]
    split
    · simp [lookupD]
    · next h => simp only [lookupD]; rw [if_neg h]; exact ih

theorem lookupD_assign_other {K V : Type} [DecidableEq K] (d : V) (l : List (K × V)) (k k' : K) (v : V) (h : k' ≠ k) :
    lookupD d (assign l k v) k' = lookupD d l k' := by
  induction l with
  | nil => simp only [assign, lookupD]; rw [if_neg (Ne.symm h)]
  | cons p rest ih =>
    obtain ⟨j, w⟩ := p
    simp only [assign]
    split
    · next hj => subst hj; simp only [lookupD]; rw [if_neg (Ne.symm h), if_neg (Ne.symm h)]
    · simp only [lookupD]; rw [ih]

@[simp] theorem ctxOf_setCtxOf_same (s : State) (a : AgentId) (c : Ctx) : (s.setCtxOf a c).ctxOf a = c :=
  lookupD_assign_same ..

theorem ctxOf_setCtxOf_other (s : State) (a b : AgentId) (c : Ctx) (h : b ≠ a) : (s.setCtxOf a c).ctxOf b = s.ctxOf b :=
  lookupD_assign_other _ _ _ _ _ h

@[simp] theorem coreOf_setCoreOf_same (s : State) (a : AgentId) (k : Core) : (s.setCoreOf a k).coreOf a = k :=
  lookupD_assign_same ..

theorem coreOf_setCoreOf_key (s : State) (a b : AgentId) (k : Core) (h : coreKey b = coreKey a) :
    (s.setCoreOf a k).coreOf b = k := by
  unfold State.coreOf State.setCoreOf
  rw [h]; exact lookupD_assign_same ..

theorem coreOf_setCoreOf_other (s : State) (a b : AgentId) (k : Core) (h : coreKey b ≠ coreKey a) :
    (s.setCoreOf a k).coreOf b = s.coreOf b :=
  lookupD_assign_other _ _ _ _ _ h

@[simp] theorem unitOf_setUnitOf_same (s : State) (a : AgentId) (u : Cluster) : (s.setUnitOf a u).unitOf a = u :=
  lookupD_assign_same ..

theorem unitOf_setUnitOf_other (s : State) (a b : AgentId) (u : Cluster) (h : unitKey b ≠ unitKey a) :
    (s.setUnitOf a u).unitOf b = s.unitOf b :=
  lookupD_assign_other _ _ _ _ _ h

@[simp] theorem ctxOf_setCoreOf (s : State) (a b : AgentId) (k : Core) : (s.setCoreOf a k).ctxOf b = s.ctxOf b := rfl
@[simp] theorem ctxOf_updCore (s : State) (a b : AgentId) (f : Core → Core) : (s.updCore a f).ctxOf b = s.ctxOf b := rfl
@[simp] theorem ctxOf_setUnitOf (s : State) (a b : AgentId) (u : Cluster) : (s.setUnitOf a u).ctxOf b = s.ctxOf b := rfl
@[simp] theorem ctxOf_updUnit (s : State) (a b : AgentId) (f : Cluster → Cluster) : (s.updUnit a f).ctxOf b = s.ctxOf b := rfl
@[simp] theorem coreOf_setCtxOf (s : State) (a b : AgentId) (c : Ctx) : (s.setCtxOf a c).coreOf b = s.coreOf b := rfl
@[simp] theorem coreOf_updOf (s : State) (a b : AgentId) (f : Ctx → Ctx) : (s.updOf a f).coreOf b = s.coreOf b := rfl
@[simp] theorem unitOf_setCtxOf (s : State) (a b : AgentId) (c : Ctx) : (s.setCtxOf a c).unitOf b = s.unitOf b := rfl
@[simp] theorem unitOf_setCoreOf (s : State) (a b : AgentId) (k : Core) : (s.setCoreOf a k).unitOf b = s.unitOf b := rfl
@[simp] theorem ctxOf_storeBytes (s : State) (a : AgentId) (n : Nat) (bs : List Byte) :
    (s.storeBytes n bs).ctxOf a = s.ctxOf a := rfl
@[simp] theorem coreOf_storeBytes (s : State) (a : AgentId) (n : Nat) (bs : List Byte) :
    (s.storeBytes n bs).coreOf a = s.coreOf a := rfl

theorem ctxOf_updOf_same (s : State) (a : AgentId) (f : Ctx → Ctx) : (s.updOf a f).ctxOf a = f (s.ctxOf a) :=
  ctxOf_setCtxOf_same ..

theorem ctxOf_updOf_other (s : State) (a b : AgentId) (f : Ctx → Ctx) (h : b ≠ a) : (s.updOf a f).ctxOf b = s.ctxOf b :=
  ctxOf_setCtxOf_other s a b _ h

/-! ### Frames -/

theorem OnlyCtx.refl (s : State) : OnlyCtx s s := ⟨fun _ _ => rfl, fun _ _ => rfl, rfl, rfl⟩

theorem OnlyCtx.cur {s t : State} (h : OnlyCtx s t) : t.cur = s.cur := by
  have := congrArg State.cur h.2.2.2
  exact this

/-- Every byte of memory is as it was. -/
theorem OnlyCtx.mem {s t : State} (h : OnlyCtx s t) : t.mem = s.mem := by
  have := congrArg State.mem h.2.2.2
  exact this

theorem OnlyCtx.units {s t : State} (h : OnlyCtx s t) : t.units = s.units := by
  have := congrArg State.units h.2.2.2
  exact this

theorem onlyCtx_setCtxOf (s : State) (c : Ctx) : OnlyCtx s (s.setCtxOf s.cur c) :=
  ⟨fun a h => ctxOf_setCtxOf_other s s.cur a c h, fun _ _ => rfl, rfl, rfl⟩

/-- A change of the loop buffer of the core in issue stays within the frame. -/
theorem OnlyCtx.loopBuf {s t : State} (h : OnlyCtx s t) (b : Option LoopBuf) :
    OnlyCtx s (t.setCoreOf s.cur { t.coreOf s.cur with loopBuf := b }) := by
  refine ⟨h.1, fun a ha => ?_, ?_, h.2.2.2⟩
  · rw [coreOf_setCoreOf_other _ _ _ _ ha]; exact h.2.1 a ha
  · rw [coreOf_setCoreOf_same]; exact h.2.2.1

theorem onlyCtx_loopBuffer {s t : State} (h : OnlyCtx s t) (before after : Ctx) :
    OnlyCtx s (t.loopBuffer s.cur before after) := by
  unfold State.loopBuffer
  split
  · exact h
  · split
    · exact h
    · split
      · exact h.loopBuf none
      · split
        · exact h.loopBuf _
        · exact h

@[simp] theorem ctxOf_loopBuffer (s : State) (a b : AgentId) (before after : Ctx) :
    (s.loopBuffer a before after).ctxOf b = s.ctxOf b := by
  unfold State.loopBuffer
  split
  · rfl
  · split
    · rfl
    · split
      · rfl
      · split <;> rfl

/-! ### Completing a group -/

/-- `State.complete` changes the context in issue alone, and that as the group's effect says. -/
theorem complete_gives (s : State) (f : Ctx → Ctx) : Gives s (s.done f) f := by
  refine ⟨s.complete f, rfl, ?_, ?_⟩
  · exact onlyCtx_loopBuffer (onlyCtx_setCtxOf s _) _ _
  · have hc : (s.complete f).cur = s.cur := (onlyCtx_loopBuffer (onlyCtx_setCtxOf s _) s.ctx _).cur
    show (s.complete f).ctxOf (s.complete f).cur = _
    rw [hc]
    unfold State.complete
    simp

/-- The context after an update of the one in issue. -/
theorem upd_givesCtx (s : State) (f : Ctx → Ctx) : GivesCtx s (.next (s.upd f)) (f s.ctx) :=
  ⟨s.upd f, rfl, onlyCtx_setCtxOf s _, ctxOf_setCtxOf_same ..⟩

@[simp] theorem cur_updCore (s : State) (a : AgentId) (f : Core → Core) : (s.updCore a f).cur = s.cur := rfl

@[simp] theorem ctxOf_traceEntry (s : State) (a b : AgentId) (kind low : Nat) (pc w3 : Word) :
    (s.traceEntry a kind low pc w3).ctxOf b = s.ctxOf b := rfl
@[simp] theorem ctxOf_traceIf (s : State) (a b : AgentId) (n kind low : Nat) (pc w3 : Word) :
    (s.traceIf a n kind low pc w3).ctxOf b = s.ctxOf b := by
  unfold State.traceIf; split <;> rfl
@[simp] theorem cur_traceIf (s : State) (a : AgentId) (n kind low : Nat) (pc w3 : Word) :
    (s.traceIf a n kind low pc w3).cur = s.cur := by
  unfold State.traceIf; split <;> rfl
@[simp] theorem mem_traceIf (s : State) (a : AgentId) (n kind low : Nat) (pc w3 : Word) :
    (s.traceIf a n kind low pc w3).mem = s.mem := by
  unfold State.traceIf; split <;> rfl

/-- `State.jump` is the transfer it is called for. -/
theorem jump_jumps (s : State) (target : Word) (f : Ctx → Ctx) : Jumps s (s.jump target f) target f := by
  have h := upd_givesCtx (s.traceIf s.cur 0 0 0 s.ctx.pcLow target) (fun c => (f c.ready).setPc target)
  have hc : (s.traceIf s.cur 0 0 0 s.ctx.pcLow target).ctx = s.ctx := by
    show (s.traceIf s.cur 0 0 0 s.ctx.pcLow target).ctxOf (s.traceIf s.cur 0 0 0 s.ctx.pcLow target).cur = _
    rw [cur_traceIf, ctxOf_traceIf]; rfl
  rw [hc] at h
  exact h

theorem trap_traps (s : State) (code : BitVec 8) (tval : Word) : Traps s (s.trap code tval) code tval := rfl

/-- A group that must not stand in a LOOP body runs outside one. -/
theorem outsideLoop_of (s : State) (k : Res) (h : s.ctx.lact = false) : s.outsideLoop k = k := by
  unfold State.outsideLoop; rw [h]; rfl

/-! ### Copies of TIME (01 R21) -/

theorem latest_bounds {f : Nat → Nat} (h : ∀ n, n ≤ f n ∧ f n ≤ n + 4) (t n : Nat) : t ≤ latest f t n ∧ latest f t n ≤ t + 4 := by
  induction n with
  | zero => exact h t
  | succ n ih => have := h (t - (n + 1)); simp only [latest]; omega

/-- A copy of TIME is at most 4 ahead of the module's count, and never behind it. -/
theorem clock_bounds (s : State) (unit : Nat) (h : s.time.toNat + 4 < 2 ^ 64) :
    s.time.toNat ≤ (s.clock unit).toNat ∧ (s.clock unit).toNat ≤ s.time.toNat + 4 := by
  have := latest_bounds (f := fun t => t + Config.skew unit t % 5) (fun n => by omega) s.time.toNat 3
  rw [State.clock, BitVec.toNat_ofNat, Nat.mod_eq_of_lt (by omega)]
  exact this

/-- All that the issue of a group does to the groups in flight: their list, and the counter of free values. -/
theorem pass_frame (s : State) (a : AgentId) (i : Instr) : (s.pass a i).mem = s.mem ∧ (s.pass a i).cur = s.cur ∧
    (∀ b, b ≠ a → (s.pass a i).ctxOf b = s.ctxOf b) ∧ { (s.pass a i).ctxOf a with flight := (s.ctxOf a).flight } = s.ctxOf a := by
  unfold State.pass
  split
  · exact ⟨rfl, rfl, fun _ _ => rfl, rfl⟩
  · refine ⟨rfl, rfl, fun b h => ctxOf_updOf_other _ a b _ h, ?_⟩
    rw [ctxOf_updOf_same]; rfl

end Sys2Proof.Machine
end

