-- ==== Sys2Proof/Laws/Traps.lean ====
section
/-!
SUPPORT. Laws/Traps.lean: what taking a trap does to contexts and memory.
-/
namespace Sys2Proof.Machine

@[simp] theorem ctxOf_leaveQueues (s : State) (a b : AgentId) : (s.leaveQueues a).ctxOf b = s.ctxOf b := by
  unfold State.leaveQueues; dsimp only; split <;> rfl
@[simp] theorem mem_leaveQueues (s : State) (a : AgentId) : (s.leaveQueues a).mem = s.mem := by
  unfold State.leaveQueues; dsimp only; split <;> rfl
@[simp] theorem ctxOf_trigger (s : State) (a b : AgentId) (n : Nat) : (s.trigger a n).ctxOf b = s.ctxOf b := by
  unfold State.trigger; dsimp only; split <;> rfl
@[simp] theorem mem_trigger (s : State) (a : AgentId) (n : Nat) : (s.trigger a n).mem = s.mem := by
  unfold State.trigger; dsimp only; split <;> rfl
@[simp] theorem mem_loopBuffer (s : State) (a : AgentId) (before after : Ctx) : (s.loopBuffer a before after).mem = s.mem := by
  unfold State.loopBuffer
  split
  · rfl
  · split
    · rfl
    · split
      · rfl
      · split <;> rfl

theorem ctxOf_ite (p : Prop) [Decidable p] (s t : State) (a : AgentId) :
    (if p then s else t).ctxOf a = if p then s.ctxOf a else t.ctxOf a := by split <;> rfl
theorem mem_ite (p : Prop) [Decidable p] (s t : State) : (if p then s else t).mem = if p then s.mem else t.mem := by
  split <;> rfl

/-- The trap taken at a given PC is `Ctx.enterTrap` of the context, and no other context and no byte of memory changes. -/
theorem takeTrapAt_ctxOf_same (s : State) (a : AgentId) (cls : TrapClass) (glen : Nat) (code : BitVec 8) (tval epc : Word) :
    (s.takeTrapAt a cls glen code tval epc).ctxOf a = (s.ctxOf a).enterTrap cls glen code tval epc := by
  unfold State.takeTrapAt
  dsimp only
  rw [ctxOf_loopBuffer, ctxOf_setCtxOf_same]
  simp only [ctxOf_ite, ctxOf_trigger, ctxOf_traceIf, ctxOf_leaveQueues, ite_self]

theorem takeTrapAt_ctxOf_other (s : State) (a b : AgentId) (cls : TrapClass) (glen : Nat) (code : BitVec 8) (tval epc : Word)
    (h : b ≠ a) : (s.takeTrapAt a cls glen code tval epc).ctxOf b = s.ctxOf b := by
  unfold State.takeTrapAt
  dsimp only
  rw [ctxOf_loopBuffer, ctxOf_setCtxOf_other _ _ _ _ h]
  simp only [ctxOf_ite, ctxOf_trigger, ctxOf_traceIf, ctxOf_leaveQueues, ite_self]

theorem takeTrapAt_mem (s : State) (a : AgentId) (cls : TrapClass) (glen : Nat) (code : BitVec 8) (tval epc : Word) :
    (s.takeTrapAt a cls glen code tval epc).mem = s.mem := by
  unfold State.takeTrapAt
  dsimp only
  rw [mem_loopBuffer]
  simp only [State.setCtxOf_mem, mem_ite, mem_trigger, mem_traceIf, mem_leaveQueues, ite_self]

/-- Outside a VLOOP body being collected the trap is taken where the context stands. -/
theorem takeTrap_plain (s : State) (a : AgentId) (cls : TrapClass) (glen : Nat) (code : BitVec 8) (tval : Word)
    (h : (s.ctxOf a).vloop = none) :
    s.takeTrap a cls glen code tval = s.takeTrapAt a cls glen code tval (s.ctxOf a).pcLow := by
  unfold State.takeTrap; rw [h]

theorem takeTrap_mem (s : State) (a : AgentId) (cls : TrapClass) (glen : Nat) (code : BitVec 8) (tval : Word) :
    (s.takeTrap a cls glen code tval).mem = s.mem := by
  unfold State.takeTrap
  split
  · exact takeTrapAt_mem ..
  · exact takeTrapAt_mem ..

theorem pcLow_eq (c : Ctx) : c.pcLow = c.pc.extractLsb' 0 32 := by
  unfold Ctx.pcLow
  apply BitVec.eq_of_toNat_eq
  simp

end Sys2Proof.Machine
end

