-- ==== Sys2Proof/Laws/Int.lean ====
section
/-!
SUPPORT. Laws/Int.lean: the shapes of the integer instructions, and of groups that write to one register.
-/
namespace Sys2Proof.Machine

theorem xOperands_of {k : Ctx} {a b : XReg} {c : Option XReg} {y z : Word} (h : XOps k a b c y z) : k.xOperands a b c = (y, z) := by
  cases c <;> obtain ⟨rfl, rfl⟩ := h <;> rfl

theorem fOperands_of {k : Ctx} {a b : FReg} {c : Option FReg} {y z : Word} (h : FOps k a b c y z) : k.fOperands a b c = (y, z) := by
  cases c <;> obtain ⟨rfl, rfl⟩ := h <;> rfl

/-- An instruction with an optional c writes `f y z` to x[a]. -/
theorem alu_gives {s : State} {a b : XReg} {c : Option XReg} {y z w : Word} (h : XOps s.ctx a b c y z) (f : Word → Word → Word)
    (e : f y z = w) : Gives s (s.alu a b c f) (·.setX a w) := by
  subst e
  unfold State.alu
  rw [xOperands_of h]
  exact complete_gives ..

/-- The same with T. -/
theorem aluT_gives {s : State} {a b : XReg} {c : Option XReg} {y z w : Word} {t : Bool} (h : XOps s.ctx a b c y z)
    (f : Word → Word → Word × Bool) (e : f y z = (w, t)) : Gives s (s.aluT a b c f) (fun k => (k.setX a w).setT t) := by
  unfold State.aluT
  rw [xOperands_of h]
  dsimp only
  rw [e]
  exact complete_gives ..

theorem alu1_gives {s : State} {a b : XReg} {w : Word} (f : Word → Word) (e : f (s.ctx.getX b) = w) :
    Gives s (s.alu1 a b f) (·.setX a w) := by
  subst e
  exact complete_gives ..

theorem cmp_gives {s : State} {a b : XReg} {t : Bool} (f : Word → Word → Bool) (e : f (s.ctx.getX a) (s.ctx.getX b) = t) :
    Gives s (s.cmp a b f) (·.setT t) := by
  subst e
  exact complete_gives ..

/-- PRIV with register number 0 carries the base word in TVAL. -/
theorem privTrap_traps (s : State) : Traps s (s.privTrap 0) Cause.priv (s.group.base.setWidth 32) := by
  unfold State.privTrap
  have : BitVec.ofNat 32 (0 * 2 ^ 16 + s.group.base.toNat) = s.group.base.setWidth 32 := by
    apply BitVec.eq_of_toNat_eq; simp
  rw [this]
  exact trap_traps ..

/-- In a LOOP body a group that must not stand there raises ILLEGAL with reason 9. -/
theorem outsideLoop_traps (s : State) (k : Res) (h : s.ctx.lact = true) :
    Traps s (s.outsideLoop k) Cause.illegal (illegalTval 9 (s.group.words.length - 1) s.group.base s.group.page) := by
  unfold State.outsideLoop
  rw [if_pos h]
  exact trap_traps ..

end Sys2Proof.Machine
end

