-- ==== Sys2Proof/Tests/Slice0.lean ====
section
/-!
SUPPORT. Tests/Slice0.lean: small tests against values worked out from the spec by hand: ill-formed terms, words of the opcode map,
single steps of the manual's examples, and for each statement a witness that its hypotheses can be met.
-/
open Sys2Proof Sys2Proof.Machine
namespace Sys2Proof.Tests

/-! ### Helpers -/

/-- The words decode to the instruction, and the group is all of them. -/
noncomputable def reads (ws : List HWord) (i : Instr) : Bool :=
  match decode ws with
  | .ok j n _ _ => decide (j = i ∧ n = ws.length)
  | .illegal _ _ _ _ => false
  | .more => false

/-- The words are ILLEGAL with a reason, at a position in the group. -/
noncomputable def badGroup (ws : List HWord) (reason pos : Nat) : Bool :=
  match decode ws with
  | .ok _ _ _ _ => false
  | .illegal r p _ _ => decide (r = reason ∧ p = pos)
  | .more => false

/-- What `f` sees in the next state, when there is one. -/
def out {α : Type} (i : Instr) (s : State) (f : State → α) : Option α :=
  match exec i s with
  | .next t => some (f t)
  | .fault _ => none
  | .refused _ => none

/-- Core context 0.0.0.0. -/
def c0 : AgentId := .core 0 0 0 0

/-- A live context at program privilege. -/
def live0 : Ctx := { Ctx.reset with phase := .live }

/-- A live context at kernel privilege that has a trap handler. -/
def kern0 : Ctx := { live0 with prv := true, tvec := 0x400 }

/-- The machine in which context 0.0.0.0 is `c` and has a group of one word in issue. -/
def at0 (c : Ctx) : State := { State.reset with ctxs := [(c0, c)], group := ⟨[0x0090], 0, 0x0090⟩ }

/-- The same for the four contexts of core 0.0.0. -/
def four (a b c d : Ctx) : State := { at0 a with
  ctxs := [(.core 0 0 0 0, a), (.core 0 0 0 1, b), (.core 0 0 0 2, c), (.core 0 0 0 3, d)] }

/-! ### Ill-formed terms: one or more for each check of WellFormed -/

/-- Agents beyond the module (01 R11-R17, R23). -/
theorem test_wf_agents : ([.core 16 0 0 0, .core 0 1280 0 0, .core 0 0 8 0, .core 0 0 0 4, .copyUnit 16 0, .copyUnit 0 1280, .saveEngine 16,
    .memoryCore 0 64, .serviceCore 0 4, .linkEngine 16 0] : List AgentId).all (fun a => !a.wf) = true ∧
    ([.core 15 1279 7 3, .memoryCore 15 63, .serviceCore 15 3, .linkEngine 15 3, .secureCore] : List AgentId).all AgentId.wf = true := by decide

/-- A base word 0x0000 (04 R89): both low register fields of function 0 of primary 0 are zero. -/
theorem test_wf_zero_base_words : ([.add 0 16 none, .fadd 16 0 (some 3), .vaddI 0 0 (some 1) .plain, .vsll 0 16 (some 0) .plain,
    .vld 16 16 4 .plain, .mma 0 0, .lda 0 16 1, .aload 16 0, .emit 16 0, .brk 0] : List Instr).all (fun i => !i.wf) = true ∧
    ([.add 1 0 none, .emit 16 1, .brk 1, .sub 0 0 none] : List Instr).all Instr.wf = true := by decide

/-- Without c a group of a row with an optional c holds no PFR (04 R93): no register from 16 on and no mask. -/
theorem test_wf_optional_c : ([.sub 16 1 none, .smed 1 31 none, .vperm 1 2 none ⟨1, false, false⟩, .gcd 0 16 none] : List Instr).all
    (fun i => !i.wf) = true ∧ ([.sub 16 1 (some 0), .sub 15 15 none] : List Instr).all Instr.wf = true := by decide

/-- Immediates that the PFI words left to a group of four prefixes cannot carry (04 R91, R97). -/
theorem test_wf_immediates : ([.fld 16 2 0x01000000, .fst 1 16 0xFEFFFFFF, .vld 1 16 0x00200000 .plain, .vst 1 2 0x00200000 ⟨1, false, false⟩,
    .stl 16 1 0x00200000, .lda 16 1 0xFFDFFFFF, .send 1 16 0x00200000, .recv 1 16 0x00200000, .vlds 1 2 3 0x00200000 .plain,
    .vstx 1 2 3 0xFFDFFFFF .plain] : List Instr).all (fun i => !i.wf) = true ∧
    ([.fld 16 2 0x00FFFFFF, .fst 1 16 0xFF000000, .vld 1 16 0x001FFFFF .plain, .stl 16 1 0xFFE00000, .send 1 15 0x00200000,
      .addi 16 0x80000000] : List Instr).all Instr.wf = true := by decide

/-- Masks and policies that 10 R270, R274 and R283 do not allow. -/
theorem test_wf_masks : ([.vsel 1 2 3 .plain, .vsel 1 2 3 ⟨1, true, false⟩, .vcompress 1 2 .plain, .vcompress 1 2 ⟨2, true, false⟩,
    .vexpand 1 2 .plain, .vst 1 2 0 ⟨1, false, true⟩, .vstx 1 2 3 0 ⟨1, true, false⟩, .vsts 1 2 3 0 ⟨0, false, true⟩,
    .vredaddF 1 2 ⟨1, false, true⟩, .vpopc 1 2 ⟨1, true, false⟩, .vtopk 1 2 3 ⟨1, true, false⟩] : List Instr).all (fun i => !i.wf) = true ∧
    ([.vsel 1 2 3 ⟨1, false, true⟩, .vexpand 1 2 ⟨3, true, true⟩, .vst 1 2 0 ⟨1, false, false⟩] : List Instr).all Instr.wf = true := by decide

/-- Operands outside their stated limits: odd pairs, pairs at 31, MMAR counts, FENCE operands, DSEND of an end over itself. -/
theorem test_wf_operands : ([.ldd 5 2 0, .std 31 2 0, .faddb 1 2 31, .acas 1 2 31, .mmar 1 2 0, .mmar 1 2 256, .fence 6 1, .fence 5 0,
    .dsend 3 3] : List Instr).all (fun i => !i.wf) = true ∧
    ([.ldd 30 2 0, .faddb 1 2 30, .mmar 1 2 1, .mmar 1 2 255, .fence 5 15, .dsend 3 4] : List Instr).all Instr.wf = true := by decide

set_option maxRecDepth 8000 in
/-- Events that name a queue, service core, function, port, stack, slice, vector, set, tenant, context or access size that is not there. -/
theorem test_wf_events : ([.launch 1024, .amBell 1024 0, .activeMessage 64, .hostQueueCreate 0 64, .advertisement 16 0, .advertisement 0 64,
    .teamPlacement 16, .msixUnmask 64 0, .msixUnmask 0 32, .fillArrival (.core 16 0 0 0) 0 0, .fillArrival c0 64 0, .quotaWindow 0 64,
    .switchStop 64, .functionLevelReset 64, .hostBarRead 0 1 0 4, .hostBarRead 0 0 0 3, .hostBarWrite 64 0 0 4 0, .linkFlitReceive 0 [],
    .linkReplay 64 0, .thermalThrottle 16 0, .dbgRead 655360 0 0, .partitionChange 64 ⟨[], [], [], 0, [], [], [], [], 0, 0, 0, 0, false⟩,
    .switchSchedule 64 0 0, .lineFill (.core 0 0 0 4), .storeAck (.memoryCore 0 64) 0] : List Instr).all (fun i => !i.wf) = true ∧
    ([.launch 1023, .msixUnmask 63 31, .hostBarRead 63 4 0 8, .linkFlitReceive 63 (List.replicate 256 0), .dbgRead 655359 3 0] :
      List Instr).all Instr.wf = true := by decide

/-! ### Groups that the manual calls ILLEGAL (04 R101) -/

/-- One group for each reason: the manual's example of R101 (0xE001, 0x01A8: reason 6 in position 1), an unassigned function value, a
zero base word after a prefix, a reserved page, a fifth prefix, a second PFR, an immediate above bit 31 that does not copy it, SEND e17,
an odd pair, and FMA without the PFR it needs. -/
theorem test_illegal_groups : badGroup [0xE001, 0x01A8] 6 1 = true ∧ badGroup [0b10111_0000_0000_111] 1 0 = true ∧
    badGroup [0xFFFF] 2 0 = true ∧ badGroup [0xE800, 0x0000] 2 1 = true ∧ badGroup [0b11110_1001_0000000, 0x0090] 3 1 = true ∧
    badGroup [0xE000, 0xE000, 0xE000, 0xE000, 0xE000, 0x32F8] 4 4 = true ∧ badGroup [0xE870, 0xE870, 0x0A37] 5 1 = true ∧
    badGroup [0xE008, 0xE000, 0xE000, 0x32F8] 7 3 = true ∧ badGroup [0xF300, 0xEC00, 0b00011_0001_0001_000] 8 2 = true ∧
    badGroup [0b01111_0101_0010_101] 9 0 = true ∧ badGroup [0xF080, 0b00001_0100_0101_000] 9 1 = true := by decide

/-- The manual's own examples (04 R111): ADD x17, x3, x30; FMA f4, f5, f6; BT -24 bytes; IPREF; LI x5, 0x1234_5678; and 05's ADD x16, x8. -/
theorem test_decode_examples : reads [0x01A8] (.add 3 5 none) = true ∧ reads [0xEDE0, 0x0098] (.add 17 3 (some 30)) = true ∧
    reads [0xF080, 0xE860, 0x0A28] (.fma 4 5 6) = true ∧ reads [0x8FF4] (.bt 0xFFFFFFF4) = true ∧ reads [0xD9E0] (.ipref 0x1E0) = true ∧
    reads [0xE000, 0xE48D, 0xE0AC, 0x32F8] (.li 5 0x12345678) = true ∧ reads [0xED00, 0x0040] (.add 16 8 (some 16)) = true := by decide

/-! ### Words of the opcode map, each instruction once, written out from its row -/

/-- Page 0 of the opcode map (04 R103), each instruction by a word written out from its row. -/
theorem test_decode_scalar_1 : ([
    ([0b11101_0_0_10111_00_0_0, 0b00000_0101_0110_000], .add 5 6 (some 23)),
    ([0b11101_0_0_10111_00_0_0, 0b00000_0101_0110_001], .sub 5 6 (some 23)),
    ([0b11101_0_0_10111_00_0_0, 0b00000_0101_0110_010], .andX 5 6 (some 23)),
    ([0b11101_0_0_10111_00_0_0, 0b00000_0101_0110_011], .orX 5 6 (some 23)),
    ([0b11101_0_0_10111_00_0_0, 0b00000_0101_0110_100], .xorX 5 6 (some 23)),
    ([0b11101_0_0_10111_00_0_0, 0b00000_0101_0110_101], .sll 5 6 (some 23)),
    ([0b11101_0_0_10111_00_0_0, 0b00000_0101_0110_110], .srl 5 6 (some 23)),
    ([0b11101_0_0_10111_00_0_0, 0b00000_0101_0110_111], .sra 5 6 (some 23)),
    ([0b11101_0_0_10111_00_0_0, 0b00001_0101_0110_000], .mul 5 6 (some 23)),
    ([0b11101_0_0_10111_00_0_0, 0b00001_0101_0110_001], .mulh 5 6 (some 23)),
    ([0b11101_0_0_10111_00_0_0, 0b00001_0101_0110_010], .mulhn 5 6 (some 23)),
    ([0b11101_0_0_10111_00_0_0, 0b00001_0101_0110_011], .div 5 6 (some 23)),
    ([0b11101_0_0_10111_00_0_0, 0b00001_0101_0110_100], .divn 5 6 (some 23)),
    ([0b11101_0_0_10111_00_0_0, 0b00001_0101_0110_101], .rem 5 6 (some 23)),
    ([0b11101_0_0_10111_00_0_0, 0b00001_0101_0110_110], .remn 5 6 (some 23)),
    ([0b11101_0_0_10111_00_0_0, 0b00001_0101_0110_111], .gcd 5 6 (some 23)),
    ([0b11101_0_0_10111_00_0_0, 0b00010_0101_0110_000], .minX 5 6 (some 23)),
    ([0b11101_0_0_10111_00_0_0, 0b00010_0101_0110_001], .maxX 5 6 (some 23)),
    ([0b11101_0_0_10111_00_0_0, 0b00010_0101_0110_010], .minn 5 6 (some 23)),
    ([0b11101_0_0_10111_00_0_0, 0b00010_0101_0110_011], .maxn 5 6 (some 23)),
    ([0b11101_0_0_10111_00_0_0, 0b00010_0101_0110_100], .andn 5 6 (some 23)),
    ([0b11101_0_0_10111_00_0_0, 0b00010_0101_0110_101], .orn 5 6 (some 23)),
    ([0b11101_0_0_10111_00_0_0, 0b00010_0101_0110_110], .rol 5 6 (some 23)),
    ([0b11101_0_0_10111_00_0_0, 0b00010_0101_0110_111], .ror 5 6 (some 23)),
    ([0b00011_0101_0110_000], .mov 5 6),
    ([0b00011_0101_0110_001], .neg 5 6),
    ([0b00011_0101_0110_010], .notX 5 6),
    ([0b00011_0101_0110_011], .clz 5 6),
    ([0b00011_0101_0110_100], .ctz 5 6),
    ([0b00011_0101_0110_101], .popc 5 6),
    ([0b00011_0101_0110_110], .sextb 5 6),
    ([0b00011_0101_0110_111], .sexth 5 6),
    ([0b00100_0101_0110_000], .ceq 5 6),
    ([0b00100_0101_0110_001], .cne 5 6),
    ([0b00100_0101_0110_010], .clt 5 6),
    ([0b00100_0101_0110_011], .cge 5 6),
    ([0b00100_0101_0110_100], .cltn 5 6),
    ([0b00100_0101_0110_101], .cgen 5 6),
    ([0b00100_0101_0110_110], .tst 5 6),
    ([0b00100_0101_0000_111], .movt 5),
    ([0b00101_0101_1111101], .addi 5 0xFFFFFFFD),
    ([0b00110_0101_1111101], .li 5 0xFFFFFFFD),
    ([0b00111_0101_1111101], .andi 5 0xFFFFFFFD),
    ([0b01000_0101_1010101], .ori 5 0x55),
    ([0b01001_0101_1010101], .xori 5 0x55),
    ([0b01010_0101_1111101], .ceqi 5 0xFFFFFFFD),
    ([0b01011_0101_1111101], .clti 5 0xFFFFFFFD),
    ([0b01100_0101_10_10011], .shi 5 2 19),
    ([0b01101_0101_0110_101], .ldw 5 6 0xFFFFFFFD),
    ([0b01110_0101_0110_101], .stw 5 6 0xFFFFFFFD),
    ([0b11100_11111111110, 0b01111_0101_0110_000], .ldb 5 6 0xFFFFFFFE),
    ([0b11100_11111111110, 0b01111_0101_0110_001], .ldbn 5 6 0xFFFFFFFE),
    ([0b11100_11111111110, 0b01111_0101_0110_010], .ldh 5 6 0xFFFFFFFE),
    ([0b11100_11111111110, 0b01111_0101_0110_011], .ldhn 5 6 0xFFFFFFFE),
    ([0b11100_11111111110, 0b01111_0101_0110_100], .ldf 5 6 0xFFFFFFFE),
    ([0b11100_11111111110, 0b01111_0100_0110_101], .ldd 4 6 0xFFFFFFFE),
    ([0b11100_11111111110, 0b10000_0101_0110_000], .stb 5 6 0xFFFFFFFE),
    ([0b11100_11111111110, 0b10000_0101_0110_010], .sth 5 6 0xFFFFFFFE),
    ([0b11100_11111111110, 0b10000_0101_0110_100], .stf 5 6 0xFFFFFFFE),
    ([0b11100_11111111110, 0b10000_0100_0110_101], .std 4 6 0xFFFFFFFE)] : List (List HWord × Instr)).all (fun p => reads p.1 p.2) = true := by decide

/-- Page 0 of the opcode map (04 R103), each instruction by a word written out from its row. -/
theorem test_decode_scalar_2 : ([
    ([0b10001_0_1111110100], .bf 0xFFFFFFF4),
    ([0b10001_1_1111110100], .bt 0xFFFFFFF4),
    ([0b10010_11111110100], .jmp 0xFFFFFFF4),
    ([0b10011_11111110100], .jal 0xFFFFFFF4),
    ([0b11100_11111111110, 0b10100_0000_0110_000], .jr 6 0xFFFFFFFE),
    ([0b11100_11111111110, 0b10100_0101_0110_001], .jalr 5 6 0xFFFFFFFE),
    ([0b10101_0101_000_1001], .loop 5 9),
    ([0b10110_0101_0011_000], .srd 5 3),
    ([0b10110_0101_0011_001], .swr 5 3),
    ([0b10110_0101_0011_010], .srdf 5 3),
    ([0b10110_0101_0011_011], .swrf 5 3),
    ([0b10111_0000_0000_000], .endCtx),
    ([0b10111_0000_0000_001], .endFail),
    ([0b10111_0000_0000_010], .yield),
    ([0b10111_0101_0110_011], .spawn 5 6),
    ([0b10111_1001_0000_100], .trap 9),
    ([0b10111_0000_0000_101], .eret),
    ([0b10111_0000_0000_110], .nop),
    ([0b11000_0101_1001000], .srr 5 0x048),
    ([0b11001_0101_1001000], .srw 5 0x048),
    ([0b11010_0101_1111101], .pca 5 0xFFFFFFFD),
    ([0b11011_11111110100], .ipref 0xFFFFFFF4)] : List (List HWord × Instr)).all (fun p => reads p.1 p.2) = true := by decide

/-- Page 1 of the opcode map (04 R104), each instruction by a word written out from its row. -/
theorem test_decode_float_and_rational : ([
    ([0b11110_0001_0000000, 0b11101_0_0_10111_00_0_0, 0b00000_0101_0110_000], .fadd 5 6 (some 23)),
    ([0b11110_0001_0000000, 0b11101_0_0_10111_00_0_0, 0b00000_0101_0110_001], .fsub 5 6 (some 23)),
    ([0b11110_0001_0000000, 0b11101_0_0_10111_00_0_0, 0b00000_0101_0110_010], .fmul 5 6 (some 23)),
    ([0b11110_0001_0000000, 0b11101_0_0_10111_00_0_0, 0b00000_0101_0110_011], .fdiv 5 6 (some 23)),
    ([0b11110_0001_0000000, 0b11101_0_0_10111_00_0_0, 0b00000_0101_0110_100], .fmin 5 6 (some 23)),
    ([0b11110_0001_0000000, 0b11101_0_0_10111_00_0_0, 0b00000_0101_0110_101], .fmax 5 6 (some 23)),
    ([0b11110_0001_0000000, 0b11101_0_0_10111_00_0_0, 0b00001_0101_0110_000], .fma 5 6 23),
    ([0b11110_0001_0000000, 0b11101_0_0_10111_00_0_0, 0b00001_0101_0110_001], .fms 5 6 23),
    ([0b11110_0001_0000000, 0b11101_0_0_10111_00_0_0, 0b00001_0101_0110_010], .fnma 5 6 23),
    ([0b11110_0001_0000000, 0b11101_0_0_10111_00_0_0, 0b00001_0101_0110_011], .fnms 5 6 23),
    ([0b11110_0001_0000000, 0b00010_0101_0110_000], .fsqrt 5 6),
    ([0b11110_0001_0000000, 0b00010_0101_0110_001], .fneg 5 6),
    ([0b11110_0001_0000000, 0b00010_0101_0110_010], .fabs 5 6),
    ([0b11110_0001_0000000, 0b00010_0101_0110_011], .fmov 5 6),
    ([0b11110_0001_0000000, 0b00011_0101_0110_000], .feq 5 6),
    ([0b11110_0001_0000000, 0b00011_0101_0110_001], .flt 5 6),
    ([0b11110_0001_0000000, 0b00011_0101_0110_010], .fle 5 6),
    ([0b11110_0001_0000000, 0b00011_0101_0110_011], .funord 5 6),
    ([0b11110_0001_0000000, 0b00011_0101_0110_100], .fclass 5 6),
    ([0b11110_0001_0000000, 0b00100_0101_0110_000], .fcvtI32 5 6),
    ([0b11110_0001_0000000, 0b00100_0101_0110_001], .fcvtN32 5 6),
    ([0b11110_0001_0000000, 0b00100_0101_0110_010], .fmvX 5 6),
    ([0b11110_0001_0000000, 0b00100_0101_0110_011], .fcvtBf16 5 6),
    ([0b11110_0001_0000000, 0b00100_0101_0110_100], .fcvtE4m3 5 6),
    ([0b11110_0001_0000000, 0b00100_0101_0110_101], .fcvtE5m2 5 6),
    ([0b11110_0001_0001000, 0b00100_0101_0110_011], .fcvtBf16Sat 5 6),
    ([0b11110_0001_0001000, 0b00100_0101_0110_100], .fcvtE4m3Sat 5 6),
    ([0b11110_0001_0001000, 0b00100_0101_0110_101], .fcvtE5m2Sat 5 6),
    ([0b11110_0001_0000000, 0b00101_0101_0110_000], .fcvtfI32 5 6),
    ([0b11110_0001_0000000, 0b00101_0101_0110_001], .fcvtfN32 5 6),
    ([0b11110_0001_0000000, 0b00101_0101_0110_010], .fmvF 5 6),
    ([0b11110_0001_0000000, 0b00101_0101_0110_011], .fcvtfBf16 5 6),
    ([0b11110_0001_0000000, 0b00101_0101_0110_100], .fcvtfE4m3 5 6),
    ([0b11110_0001_0000000, 0b00101_0101_0110_101], .fcvtfE5m2 5 6),
    ([0b11110_0001_0000000, 0b00110_0101_0110_101], .fld 5 6 0xFFFFFFFD),
    ([0b11110_0001_0000000, 0b00111_0101_0110_101], .fst 5 6 0xFFFFFFFD),
    ([0b11110_0001_0000000, 0b11101_0_0_10111_00_0_0, 0b01000_0101_0110_000], .smk 5 6 23),
    ([0b11110_0001_0000000, 0b01001_0101_0110_000], .snum 5 6),
    ([0b11110_0001_0000000, 0b01001_0101_0110_001], .sden 5 6),
    ([0b11110_0001_0000000, 0b01001_0101_0110_010], .sbnd 5 6),
    ([0b11110_0001_0000000, 0b11101_0_0_10111_00_0_0, 0b01010_0101_0110_000], .smed 5 6 (some 23)),
    ([0b11110_0001_0000000, 0b01010_0101_0110_001], .srec 5 6),
    ([0b11110_0001_0000000, 0b01011_0101_0110_000], .scvtf 5 6),
    ([0b11110_0001_0000000, 0b01011_0101_0110_001], .fcvts 5 6)] : List (List HWord × Instr)).all (fun p => reads p.1 p.2) = true := by decide

/-- Page 2 of the opcode map (04 R105), each instruction by a word written out from its row. -/
theorem test_decode_vector : ([
    ([0b11110_0010_0000000, 0b11101_0_0_10111_10_0_0, 0b00000_0101_0110_000], .vaddI 5 6 (some 23) ⟨2, false, false⟩),
    ([0b11110_0010_0000000, 0b11101_0_0_10111_10_0_0, 0b00000_0101_0110_001], .vsubI 5 6 (some 23) ⟨2, false, false⟩),
    ([0b11110_0010_0000000, 0b11101_0_0_10111_10_0_0, 0b00000_0101_0110_010], .vmulI 5 6 (some 23) ⟨2, false, false⟩),
    ([0b11110_0010_0000000, 0b11101_0_0_10111_10_0_0, 0b00000_0101_0110_011], .vminI 5 6 (some 23) ⟨2, false, false⟩),
    ([0b11110_0010_0000000, 0b11101_0_0_10111_10_0_0, 0b00000_0101_0110_100], .vmaxI 5 6 (some 23) ⟨2, false, false⟩),
    ([0b11110_0010_0000000, 0b11101_0_0_10111_10_0_0, 0b00000_0101_0110_101], .vand 5 6 (some 23) ⟨2, false, false⟩),
    ([0b11110_0010_0000000, 0b11101_0_0_10111_10_0_0, 0b00000_0101_0110_110], .vor 5 6 (some 23) ⟨2, false, false⟩),
    ([0b11110_0010_0000000, 0b11101_0_0_10111_10_0_0, 0b00000_0101_0110_111], .vxor 5 6 (some 23) ⟨2, false, false⟩),
    ([0b11110_0010_0000001, 0b11101_0_0_10111_10_0_0, 0b00000_0101_0110_000], .vsll 5 6 (some 23) ⟨2, false, false⟩),
    ([0b11110_0010_0000001, 0b11101_0_0_10111_10_0_0, 0b00000_0101_0110_001], .vsrl 5 6 (some 23) ⟨2, false, false⟩),
    ([0b11110_0010_0000001, 0b11101_0_0_10111_10_0_0, 0b00000_0101_0110_010], .vsra 5 6 (some 23) ⟨2, false, false⟩),
    ([0b11110_0010_0000001, 0b11101_0_0_10111_10_0_0, 0b00000_0101_0110_011], .vaddsI 5 6 (some 23) ⟨2, false, false⟩),
    ([0b11110_0010_0000001, 0b11101_0_0_10111_10_0_0, 0b00000_0101_0110_100], .vsubsI 5 6 (some 23) ⟨2, false, false⟩),
    ([0b11110_0010_0000000, 0b11101_0_0_10111_10_0_0, 0b00001_0101_0110_000], .vaddF 5 6 (some 23) ⟨2, false, false⟩),
    ([0b11110_0010_0000000, 0b11101_0_0_10111_10_0_0, 0b00001_0101_0110_001], .vsubF 5 6 (some 23) ⟨2, false, false⟩),
    ([0b11110_0010_0000000, 0b11101_0_0_10111_10_0_0, 0b00001_0101_0110_010], .vmulF 5 6 (some 23) ⟨2, false, false⟩),
    ([0b11110_0010_0000000, 0b11101_0_0_10111_10_0_0, 0b00001_0101_0110_011], .vdivF 5 6 (some 23) ⟨2, false, false⟩),
    ([0b11110_0010_0000000, 0b11101_0_0_10111_10_0_0, 0b00001_0101_0110_100], .vminF 5 6 (some 23) ⟨2, false, false⟩),
    ([0b11110_0010_0000000, 0b11101_0_0_10111_10_0_0, 0b00001_0101_0110_101], .vmaxF 5 6 (some 23) ⟨2, false, false⟩),
    ([0b11110_0010_0000000, 0b11101_0_0_10111_10_0_0, 0b00010_0101_0110_000], .vfma 5 6 23 ⟨2, false, false⟩),
    ([0b11110_0010_0000000, 0b11101_0_0_10111_10_0_0, 0b00010_0101_0110_001], .vfms 5 6 23 ⟨2, false, false⟩),
    ([0b11110_0010_0000000, 0b11101_0_0_10111_10_0_0, 0b00010_0101_0110_010], .vsel 5 6 23 ⟨2, false, false⟩),
    ([0b11110_0010_0000000, 0b11101_0_0_10111_10_0_0, 0b00011_0101_0110_000], .vceqI 5 6 (some 23) ⟨2, false, false⟩),
    ([0b11110_0010_0000000, 0b11101_0_0_10111_10_0_0, 0b00011_0101_0110_001], .vcltI 5 6 (some 23) ⟨2, false, false⟩),
    ([0b11110_0010_0000000, 0b11101_0_0_10111_10_0_0, 0b00011_0101_0110_010], .vcltnI 5 6 (some 23) ⟨2, false, false⟩),
    ([0b11110_0010_0000000, 0b11101_0_0_10111_10_0_0, 0b00011_0101_0110_011], .vceqF 5 6 (some 23) ⟨2, false, false⟩),
    ([0b11110_0010_0000000, 0b11101_0_0_10111_10_0_0, 0b00011_0101_0110_100], .vcltF 5 6 (some 23) ⟨2, false, false⟩),
    ([0b11110_0010_0000000, 0b11101_0_0_10111_10_0_0, 0b00011_0101_0110_101], .vcleF 5 6 (some 23) ⟨2, false, false⟩),
    ([0b11110_0010_0000000, 0b11101_0_0_10111_10_0_0, 0b00011_0101_0110_110], .vcunF 5 6 (some 23) ⟨2, false, false⟩),
    ([0b11110_0010_0000000, 0b11101_0_0_00000_10_0_0, 0b00100_0101_0110_000], .vcvtFI 5 6 ⟨2, false, false⟩),
    ([0b11110_0010_0000000, 0b11101_0_0_00000_10_0_0, 0b00100_0101_0110_001], .vcvtIF 5 6 ⟨2, false, false⟩),
    ([0b11110_0010_0000000, 0b11101_0_0_00000_10_0_0, 0b00100_0101_0110_010], .vcvtBf16F 5 6 ⟨2, false, false⟩),
    ([0b11110_0010_0000000, 0b11101_0_0_00000_10_0_0, 0b00100_0101_0110_011], .vcvtFBf16 5 6 ⟨2, false, false⟩),
    ([0b11110_0010_0000000, 0b11101_0_0_00000_10_0_0, 0b00100_0101_0110_100], .vcvtE4m3F 5 6 ⟨2, false, false⟩),
    ([0b11110_0010_0000000, 0b11101_0_0_00000_10_0_0, 0b00100_0101_0110_101], .vcvtE5m2F 5 6 ⟨2, false, false⟩),
    ([0b11110_0010_0000000, 0b11101_0_0_00000_10_0_0, 0b00100_0101_0110_110], .vcvtFE4m3 5 6 ⟨2, false, false⟩),
    ([0b11110_0010_0000000, 0b11101_0_0_00000_10_0_0, 0b00100_0101_0110_111], .vcvtFE5m2 5 6 ⟨2, false, false⟩),
    ([0b11110_0010_0001000, 0b11101_0_0_00000_10_0_0, 0b00100_0101_0110_010], .vcvtBf16FSat 5 6 ⟨2, false, false⟩),
    ([0b11110_0010_0001000, 0b11101_0_0_00000_10_0_0, 0b00100_0101_0110_100], .vcvtE4m3FSat 5 6 ⟨2, false, false⟩),
    ([0b11110_0010_0001000, 0b11101_0_0_00000_10_0_0, 0b00100_0101_0110_101], .vcvtE5m2FSat 5 6 ⟨2, false, false⟩),
    ([0b11110_0010_0000000, 0b11101_0_0_10111_10_0_0, 0b00101_0101_0110_000], .vaddFs 5 6 23 ⟨2, false, false⟩),
    ([0b11110_0010_0000000, 0b11101_0_0_10111_10_0_0, 0b00101_0101_0110_001], .vmulFs 5 6 23 ⟨2, false, false⟩),
    ([0b11110_0010_0000000, 0b11101_0_0_10111_10_0_0, 0b00101_0101_0110_010], .vfmaFs 5 6 23 ⟨2, false, false⟩),
    ([0b11110_0010_0000000, 0b11101_0_0_00000_10_0_0, 0b00110_0101_0110_000], .vbcastX 5 6 ⟨2, false, false⟩),
    ([0b11110_0010_0000000, 0b11101_0_0_00000_10_0_0, 0b00110_0101_0110_001], .vbcastF 5 6 ⟨2, false, false⟩),
    ([0b11110_0010_0000000, 0b11101_0_0_00000_10_0_0, 0b00110_0101_0000_010], .viota 5 ⟨2, false, false⟩),
    ([0b11110_0010_0000000, 0b11101_0_0_10111_00_0_0, 0b00111_0101_0110_000], .vextX 5 6 23),
    ([0b11110_0010_0000000, 0b11101_0_0_10111_00_0_0, 0b01000_0101_0110_000], .vinsX 5 6 23)] : List (List HWord × Instr)).all (fun p => reads p.1 p.2) = true := by decide

/-- Page 3 of the opcode map (04 R106), each instruction by a word written out from its row. -/
theorem test_decode_vector_memory : ([
    ([0b11110_0011_0000000, 0b11101_0_0_00000_10_0_0, 0b11100_11111111110, 0b00000_0101_0110_000], .vld 5 6 0xFFFFFFFE ⟨2, false, false⟩),
    ([0b11110_0011_0000000, 0b11101_0_0_00000_10_0_0, 0b11100_11111111110, 0b00000_0101_0110_001], .vst 5 6 0xFFFFFFFE ⟨2, false, false⟩),
    ([0b11110_0011_0000000, 0b11101_0_0_10111_10_0_0, 0b11100_11111111110, 0b00000_0101_0110_010], .vlds 5 6 23 0xFFFFFFFE ⟨2, false, false⟩),
    ([0b11110_0011_0000000, 0b11101_0_0_10111_10_0_0, 0b11100_11111111110, 0b00000_0101_0110_011], .vsts 5 6 23 0xFFFFFFFE ⟨2, false, false⟩),
    ([0b11110_0011_0000000, 0b11101_0_0_00000_10_0_0, 0b11100_11111111110, 0b00000_0101_0110_100], .vldb 5 6 0xFFFFFFFE ⟨2, false, false⟩),
    ([0b11110_0011_0000000, 0b11101_0_0_10111_10_0_0, 0b11100_11111111110, 0b00001_0101_0110_000], .vldx 5 6 23 0xFFFFFFFE ⟨2, false, false⟩),
    ([0b11110_0011_0000000, 0b11101_0_0_10111_10_0_0, 0b11100_11111111110, 0b00001_0101_0110_001], .vstx 5 6 23 0xFFFFFFFE ⟨2, false, false⟩),
    ([0b11110_0011_0000000, 0b11101_0_0_10111_10_0_0, 0b00010_0101_0110_000], .vperm 5 6 (some 23) ⟨2, false, false⟩),
    ([0b11110_0011_0000000, 0b11101_0_0_10111_10_0_0, 0b00010_0101_0110_001], .vzip 5 6 (some 23) ⟨2, false, false⟩),
    ([0b11110_0011_0000000, 0b11101_0_0_10111_10_0_0, 0b00010_0101_0110_010], .vunzip 5 6 (some 23) ⟨2, false, false⟩),
    ([0b11110_0011_0000000, 0b11101_0_0_00000_10_0_0, 0b00010_0101_0110_011], .vrev 5 6 ⟨2, false, false⟩),
    ([0b11110_0011_0000000, 0b11101_0_0_10111_10_0_0, 0b00011_0101_0110_000], .vslideup 5 6 23 ⟨2, false, false⟩),
    ([0b11110_0011_0000000, 0b11101_0_0_10111_10_0_0, 0b00011_0101_0110_001], .vslidedn 5 6 23 ⟨2, false, false⟩),
    ([0b11110_0011_0000000, 0b11101_0_0_00000_10_0_0, 0b00100_0101_0110_000], .vcompress 5 6 ⟨2, false, false⟩),
    ([0b11110_0011_0000000, 0b11101_0_0_00000_10_0_0, 0b00100_0101_0110_001], .vexpand 5 6 ⟨2, false, false⟩),
    ([0b11110_0011_0000000, 0b11101_0_0_00000_10_0_0, 0b00101_0101_0110_000], .vredaddF 5 6 ⟨2, false, false⟩),
    ([0b11110_0011_0000000, 0b11101_0_0_00000_10_0_0, 0b00101_0101_0110_001], .vredmaxF 5 6 ⟨2, false, false⟩),
    ([0b11110_0011_0000000, 0b11101_0_0_00000_10_0_0, 0b00101_0101_0110_010], .vredminF 5 6 ⟨2, false, false⟩),
    ([0b11110_0011_0000000, 0b11101_0_0_00000_10_0_0, 0b00110_0101_0110_000], .vredaddI 5 6 ⟨2, false, false⟩),
    ([0b11110_0011_0000000, 0b11101_0_0_00000_10_0_0, 0b00110_0101_0110_001], .vredmaxI 5 6 ⟨2, false, false⟩),
    ([0b11110_0011_0000000, 0b11101_0_0_00000_10_0_0, 0b00110_0101_0110_010], .vredminI 5 6 ⟨2, false, false⟩),
    ([0b11110_0011_0000000, 0b11101_0_0_00000_10_0_0, 0b00110_0101_0110_011], .vpopc 5 6 ⟨2, false, false⟩),
    ([0b11110_0011_0000000, 0b11101_0_0_00000_10_0_0, 0b00110_0101_0110_100], .vfirst 5 6 ⟨2, false, false⟩),
    ([0b11110_0011_0000000, 0b00111_0101_0110_000], .vclaim 5 6),
    ([0b11110_0011_0000000, 0b00111_0000_0000_001], .vyield),
    ([0b11110_0011_0000000, 0b00111_0101_0110_010], .vloop 5 6),
    ([0b11110_0011_0000000, 0b00111_0101_0110_011], .vsetvl 5 6),
    ([0b11110_0011_0000000, 0b00111_0000_0000_100], .vsync),
    ([0b11110_0011_0000000, 0b11101_0_0_00000_10_0_0, 0b01000_0101_0110_000], .vexp 5 6 ⟨2, false, false⟩),
    ([0b11110_0011_0000000, 0b11101_0_0_00000_10_0_0, 0b01000_0101_0110_001], .vlog 5 6 ⟨2, false, false⟩),
    ([0b11110_0011_0000000, 0b11101_0_0_00000_10_0_0, 0b01000_0101_0110_010], .vrcp 5 6 ⟨2, false, false⟩),
    ([0b11110_0011_0000000, 0b11101_0_0_00000_10_0_0, 0b01000_0101_0110_011], .vrsqrt 5 6 ⟨2, false, false⟩),
    ([0b11110_0011_0000000, 0b11101_0_0_00000_10_0_0, 0b01000_0101_0110_100], .vtanh 5 6 ⟨2, false, false⟩),
    ([0b11110_0011_0000000, 0b11101_0_0_00000_10_0_0, 0b01000_0101_0110_101], .vsigm 5 6 ⟨2, false, false⟩),
    ([0b11110_0011_0000000, 0b11101_0_0_10111_10_0_0, 0b01001_0101_0110_000], .vtopk 5 6 23 ⟨2, false, false⟩),
    ([0b11110_0011_0000000, 0b11101_0_0_10111_00_0_0, 0b01001_0101_0110_001], .vtnorm 5 6 23),
    ([0b11110_0011_0000000, 0b11101_0_0_10111_00_0_0, 0b01010_0101_0110_000], .vquant 5 6 23),
    ([0b11110_0011_0000000, 0b11101_0_0_10111_00_0_0, 0b01010_0101_0110_001], .vdequant 5 6 23)] : List (List HWord × Instr)).all (fun p => reads p.1 p.2) = true := by decide

/-- Page 4 of the opcode map (04 R107), each instruction by a word written out from its row. -/
theorem test_decode_matrix : ([
    ([0b11110_0100_0000000, 0b00000_0101_0110_000], .mma 5 6),
    ([0b11110_0100_0000000, 0b11100_00000001001, 0b00001_0101_0110_000], .mmar 5 6 9),
    ([0b11110_0100_0000000, 0b00010_0101_0000_000], .mlatb 5),
    ([0b11110_0100_0000000, 0b00010_0000_0000_001], .mring),
    ([0b11110_0100_0000000, 0b00010_0000_0000_010], .mwait),
    ([0b11110_0100_0000000, 0b00010_0000_0000_011], .msync),
    ([0b11110_0100_0000000, 0b00011_0101_0000_000], .mzero 5),
    ([0b11110_0100_0000000, 0b00011_0000_0000_001], .mcswap),
    ([0b11110_0100_0000000, 0b00011_0101_0110_010], .mcrd 5 6),
    ([0b11110_0100_0000000, 0b00011_0101_0110_011], .mcwr 5 6),
    ([0b11110_0100_0000000, 0b00011_0101_0110_100], .mquant 5 6),
    ([0b11110_0100_0000000, 0b00011_0101_0110_101], .msatrd 5 6)] : List (List HWord × Instr)).all (fun p => reads p.1 p.2) = true := by decide

/-- Page 5 of the opcode map (04 R108), each instruction by a word written out from its row. -/
theorem test_decode_ordered_memory : ([
    ([0b11110_0101_0000000, 0b11100_11111111110, 0b00000_0101_0110_000], .lda 5 6 0xFFFFFFFE),
    ([0b11110_0101_0000000, 0b11100_11111111110, 0b00000_0101_0110_001], .stl 5 6 0xFFFFFFFE),
    ([0b11110_0101_0000000, 0b00001_0011_0110_000], .fence 3 6),
    ([0b11110_0101_0000000, 0b00001_0000_0000_001], .jdrain),
    ([0b11110_0101_0000000, 0b11101_0_0_10111_00_0_0, 0b00010_0101_0110_000], .aadd 5 6 23),
    ([0b11110_0101_0000000, 0b11101_0_0_10111_00_0_0, 0b00010_0101_0110_001], .faddb 5 6 23),
    ([0b11110_0101_0000000, 0b11101_0_0_10111_00_0_0, 0b00010_0101_0110_010], .incw 5 6 23),
    ([0b11110_0101_0000000, 0b11101_0_0_10111_00_0_0, 0b00010_0101_0110_011], .aswap 5 6 23),
    ([0b11110_0101_0000000, 0b11101_0_0_10111_00_0_0, 0b00010_0101_0110_100], .acas 5 6 23),
    ([0b11110_0101_0000000, 0b11101_0_0_10111_00_0_0, 0b00010_0101_0110_101], .aand 5 6 23),
    ([0b11110_0101_0000000, 0b11101_0_0_10111_00_0_0, 0b00010_0101_0110_110], .aor 5 6 23),
    ([0b11110_0101_0000000, 0b11101_0_0_10111_00_0_0, 0b00010_0101_0110_111], .amax 5 6 23),
    ([0b11110_0101_0000000, 0b00011_0101_0110_000], .accI 5 6),
    ([0b11110_0101_0000000, 0b00011_0101_0110_001], .accF 5 6),
    ([0b11110_0101_0000000, 0b00011_0101_0110_010], .accsq 5 6),
    ([0b11110_0101_0000000, 0b00011_0000_0000_011], .flushr),
    ([0b11110_0101_0000000, 0b00100_0101_0110_000], .job 5 6),
    ([0b11110_0101_0000000, 0b00100_0000_0110_001], .pollj 6),
    ([0b11110_0101_0000000, 0b00100_0000_0110_010], .waitj 6)] : List (List HWord × Instr)).all (fun p => reads p.1 p.2) = true := by decide

/-- Page 6 of the opcode map (04 R109), each instruction by a word written out from its row. -/
theorem test_decode_channel : ([
    ([0b11110_0110_0000000, 0b00000_0101_0110_000], .aload 5 6),
    ([0b11110_0110_0000000, 0b00000_0000_0110_001], .afree 6),
    ([0b11110_0110_0000000, 0b00000_0101_0110_010], .alahead 5 6),
    ([0b11110_0110_0000000, 0b11101_0_0_10111_00_0_0, 0b00001_0101_0110_000], .connect 5 6 23),
    ([0b11110_0110_0000000, 0b11101_0_0_10111_00_0_0, 0b00001_0101_0110_001], .accept 5 6 23),
    ([0b11110_0110_0000000, 0b00010_0101_0110_000], .epname 5 6),
    ([0b11110_0110_0000000, 0b00010_0101_0110_001], .estat 5 6),
    ([0b11110_0110_0000000, 0b00010_0101_0110_010], .epset 5 6),
    ([0b11110_0110_0000000, 0b00010_0101_0110_011], .epmod 5 6),
    ([0b11110_0110_0000000, 0b00010_0101_0000_100], .close 5),
    ([0b11110_0110_0000000, 0b11100_11111111110, 0b00011_0101_0110_000], .send 5 6 0xFFFFFFFE),
    ([0b11110_0110_0000000, 0b11100_11111111110, 0b00011_0101_0110_001], .recv 5 6 0xFFFFFFFE),
    ([0b11110_0110_0000000, 0b00100_0101_0110_000], .sendv 5 6),
    ([0b11110_0110_0000000, 0b00100_0101_0110_001], .recvv 5 6),
    ([0b11110_0110_0000000, 0b00101_0101_0110_000], .sendx 5 6),
    ([0b11110_0110_0000000, 0b00101_0101_0110_001], .recvx 5 6),
    ([0b11110_0110_0000000, 0b00110_0101_0101011], .select 5 0x2B),
    ([0b11110_0110_0000000, 0b00111_0101_0110_000], .offer 5 6),
    ([0b11110_0110_0000000, 0b01000_0101_0110_000], .dsend 5 6),
    ([0b11110_0110_0000000, 0b01000_0101_0110_001], .drecv 5 6),
    ([0b11110_0110_0000000, 0b01001_0010_0110_000], .sbind 2 6),
    ([0b11110_0110_0000000, 0b01001_0010_0110_001], .sbinda 2 6),
    ([0b11110_0110_0000000, 0b01001_0010_0000_010], .sunbind 2),
    ([0b11110_0110_0000000, 0b11101_0_0_10111_00_0_0, 0b01010_0101_0110_000], .vksend 5 6 23),
    ([0b11110_0110_0000000, 0b01011_0101_0110_000], .raucfg 5 6)] : List (List HWord × Instr)).all (fun p => reads p.1 p.2) = true := by decide

/-- Page 7 of the opcode map (04 R110), each instruction by a word written out from its row. -/
theorem test_decode_instant : ([
    ([0b11110_0111_0000000, 0b00000_0101_0101011], .emit 5 0x2B),
    ([0b11110_0111_0000000, 0b00001_0000_0101011], .noemit 0x2B),
    ([0b11110_0111_0101011, 0b00010_0_1111110100], .absb 0x2B 0xFFFFFFF4),
    ([0b11110_0111_0101011, 0b00010_1_1111110100], .pres 0x2B 0xFFFFFFF4),
    ([0b11110_0111_0000000, 0b00011_0101_0101011], .sval 5 0x2B),
    ([0b11110_0111_0000000, 0b00100_0000_0000_000], .pause),
    ([0b11110_0111_0000000, 0b00100_0000_0000_001], .pauseUp),
    ([0b11110_0111_0000000, 0b00101_0101_0110_000], .domnew 5 6),
    ([0b11110_0111_0000000, 0b00101_0000_0110_001], .domfree 6),
    ([0b11110_0111_0000000, 0b00110_0101_0110_000], .dlyw 5 6),
    ([0b11110_0111_0000000, 0b00110_0101_0011_001], .dlyr 5 3),
    ([0b11110_0111_0000000, 0b11101_0_0_10111_00_0_0, 0b00111_0000_0110_000], .waiteq 6 23),
    ([0b11110_0111_0000000, 0b11101_0_0_10111_00_0_0, 0b00111_0000_0110_001], .waitne 6 23),
    ([0b11110_0111_0000000, 0b01000_0000_0110_000], .bell 6)] : List (List HWord × Instr)).all (fun p => reads p.1 p.2) = true := by decide

/-- Page 8 of the opcode map (04 R111), each instruction by a word written out from its row. -/
theorem test_decode_debug : ([
    ([0b11110_1000_0000000, 0b00000_1001_0000_000], .brk 9),
    ([0b11110_1000_0000000, 0b00000_0000_0110_001], .tracem 6),
    ([0b11110_1000_0000000, 0b00000_0000_0000_010], .trig),
    ([0b11110_1000_0000000, 0b00001_0000_0110_000], .icinv 6),
    ([0b11110_1000_0000000, 0b00001_0000_0000_001], .icinva),
    ([0b11110_1000_0000000, 0b00010_0101_0110_000], .winset 5 6),
    ([0b11110_1000_0000000, 0b00010_0101_0110_001], .winget 5 6),
    ([0b11110_1000_0000000, 0b00010_0000_0000_010], .halt),
    ([0b11110_1000_0000000, 0b00010_0000_0110_011], .scrub 6)] : List (List HWord × Instr)).all (fun p => reads p.1 p.2) = true := by decide

/-! ### Witnesses: for each statement with hypotheses, states and operands that meet them, clause by clause -/

/-- The state after a fetch, with the words. -/
def fetched (s : State) (a : AgentId) : Option (State × List HWord) :=
  match s.fetch a with
  | .words t ws => some (t, ws)
  | _ => none

/-- NOP placed where the next step fetches. -/
def nop0 : State := State.reset.withFetchWord 16 0xB806

theorem witness_StepRunsTheDecodedGroupOrEvent :
    (let s0 : State := { nop0.tick with moves := [], cur := c0 }
     nop0.moves = [.issue c0] ∧ nop0.thermalStop = false ∧ (s0.ctxOf c0).retiring = none ∧ s0.stopDue c0 = false ∧
      (s0.ctxOf c0).candidate = true ∧ s0.due c0 = .none ∧ (s0.ctxOf c0).wait = .none ∧ (fetched s0 c0).isSome = true ∧
      ((fetched s0 c0).map (fun p => (decode p.2, (p.1.ctxOf c0).vloop, (p.1.ctxOf c0).nanRecord,
        ({ p.1 with group := ⟨p.2.take 1, 0, 0xB806⟩ } : State).interlocked c0 .nop))) =
          some (.ok .nop 1 0 0xB806, none, none, false)) ∧
    (let s : State := { State.reset with moves := [.event .idcode] }
     s.moves = [.event .idcode] ∧ s.thermalStop = false ∧ Instr.idcode ≠ .powerOnReset) ∧
    (let s : State := { State.reset with moves := [.event .idcode], thermalStop := true }
     s.moves = [.event .idcode] ∧ s.thermalStop = true) := by decide

theorem witness_DecodeInvertsEncode : (Instr.fld 31 16 0xFF000000).wf = true ∧ (Instr.fld 31 16 0xFF000000).fields ≠ none ∧
    (Instr.sub 0 0 none).wf = true ∧ (Instr.sub 0 0 none).fields ≠ none := by decide

theorem witness_DecodedGroupIsWellFormed : decode [0xE000, 0xE48D, 0xE0AC, 0x32F8, 0xB806] = .ok (.li 5 0x12345678) 4 0 0x32F8 ∧
    decode [0xB806] = .ok .nop 1 0 0xB806 := by decide

theorem witness_MemoryStaysCanonical : Memory.wf nop0.mem = true ∧ (match step nop0 with
    | .next _ => true
    | .fault _ => false
    | .refused _ => false) = true := by decide

theorem witness_NothingRefusesAndOnlyResetStops : State.reset.thermalStop = false ∧
    ({ State.reset with thermalStop := true } : State).thermalStop = true := by decide

theorem witness_MemoryReadsBackWhatWasStored : Memory.wf (State.reset.storeWord 8 5).mem = true ∧ 0 < [(1 : Byte)].length := by decide

theorem witness_GeneralRegisterZeroIsHardwired : (31 : XReg) ≠ 0 ∧ (1 : XReg) ≠ 31 := by decide

theorem witness_NextPcFollowsLoopRegisters : live0.lact = false ∧
    (let c : Ctx := { live0 with lact := true, lrem := 2 }; c.lact = true ∧ 1 < c.lrem.toNat) ∧
    (let c : Ctx := { live0 with lact := true, lrem := 1 }; c.lact = true ∧ c.lrem = 1) ∧
    (let c : Ctx := { live0 with lact := true, pc := 0x10000000C, lend := 0xC }; c.lrem = 0 ∧ c.lend = c.pc.extractLsb' 0 32) ∧
    (let c : Ctx := { live0 with lact := true, lend := 0xC }; c.lrem = 0 ∧ c.lend ≠ c.pc.extractLsb' 0 32) := by decide

theorem witness_TrapEntrySavesAndEnters : 7 < 8 ∧ ((at0 kern0).ctxOf c0).vloop = none ∧ ((at0 live0).ctxOf c0).tvec = 0 ∧
    ((at0 { kern0 with intrap := true }).ctxOf c0).intrap = true ∧
    (((at0 kern0).ctxOf c0).tvec ≠ 0 ∧ ((at0 kern0).ctxOf c0).intrap = false) ∧ AgentId.core 0 0 0 1 ≠ c0 := by decide

theorem witness_EretReturnsFromTrap : ((at0 kern0).ctx.lact = false ∧ (at0 kern0).ctx.prv = true) ∧ (at0 kern0).ctx.resumable = false ∧
    (at0 live0).ctx.prv = false ∧ (at0 { kern0 with lact := true }).ctx.lact = true := by decide

theorem witness_IntegerArithmeticResults : XOps (live0.setX 2 7) 0 2 none 0 7 ∧ XOps (live0.setX 2 7) 31 2 (some 0) 7 0 :=
  ⟨⟨rfl, rfl⟩, ⟨rfl, rfl⟩⟩

theorem witness_IntegerUnaryAndCompareResults :
    (let y : Word := 0x80000000; (∀ i < 0, y.getLsbD (31 - i) = false) ∧ y.getLsbD 31 = true ∧ (∀ i < 31, y.getLsbD i = false)) ∧
    (let y : Word := 0; 32 ≤ 32 ∧ (∀ i < 32, y.getLsbD (31 - i) = false) ∧ ∀ i < 32, y.getLsbD i = false) := by decide

theorem witness_IntegerDivisionResults : XOps (live0.setX 1 5) 1 2 none 5 0 ∧
    XOps ((live0.setX 1 0x80000000).setX 2 0xFFFFFFFF) 1 2 none 0x80000000 0xFFFFFFFF ∧
    (XOps ((live0.setX 1 0x80000000).setX 2 1) 0 1 (some 2) 0x80000000 1 ∧ (1 : Word) ≠ 0 ∧
      ¬((0x80000000 : Word) = 0x80000000 ∧ (1 : Word) = 0xFFFFFFFF)) :=
  ⟨⟨rfl, rfl⟩, ⟨rfl, rfl⟩, ⟨rfl, rfl⟩, by decide, by decide⟩

theorem witness_ControlTransfersAndLoopBodies : (at0 live0).ctx.lact = false ∧ (at0 live0).ctx.t = false ∧
    (at0 { live0 with t := true }).ctx.t = true ∧ ((at0 (live0.setX 2 6)).ctx.getX 2 + 0xFFFFFFFC).getLsbD 0 = false ∧
    ((at0 (live0.setX 2 6)).ctx.getX 2 + 1).getLsbD 0 = true ∧ (at0 { live0 with lact := true }).ctx.lact = true := by decide

theorem witness_LoopBeginsOrStepsOverItsBody : (at0 live0).ctx.lact = false ∧ (at0 (live0.setX 1 1)).ctx.getX 1 ≠ 0 ∧
    (at0 live0).core.loopBuf = none ∧ (at0 live0).ctx.getX 0 = 0 ∧
    (let s := at0 { live0 with pc := 0xFFFFFFFE }
     s.ctx.pc.extractLsb' 0 32 + BitVec.ofNat 32 (2 * s.group.words.length) ≤ s.ctx.pc.extractLsb' 0 32) ∧
    (at0 live0).ctx.pc.extractLsb' 0 32 < (at0 live0).ctx.pc.extractLsb' 0 32 + BitVec.ofNat 32 (2 * (at0 live0).group.words.length) ∧ ((match nop0.skipGroups c0 0 1 0x1000 with
      | .at_ _ pc => some pc
      | .later _ => none
      | .fault _ => none) = some 0x1002) := by decide

theorem witness_TrapAndBrkRaiseTheirTraps : (15 : BitVec 4) ≠ 0 ∧ (at0 live0).group.words.length < 8 ∧ (at0 live0).ctx.vloop = none := by
  decide

/-- A domain of tenant 3 at the outermost level. -/
def domain0 : Domain := ⟨3, 0, none, 0, Vector.replicate 64 0, Vector.replicate 64 .unknown, Vector.replicate 64 0, 0, 0, .none, 0, false, false⟩

set_option maxRecDepth 8000 in
theorem witness_SpawnStartsAndEndRetiresContexts : ((at0 (live0.setX 2 3)).ctx.getX 2).getLsbD 0 = true ∧
    ((four (live0.setX 2 0x40) live0 live0 live0).ctx.getX 2).getLsbD 0 = false ∧
    (∀ y < 4, ((four live0 live0 live0 live0).ctxOf (.core 0 0 0 y)).phase ≠ .idle) ∧
    (let s := four live0 live0 live0 Ctx.reset
     s.cur = .core 0 0 0 0 ∧ (s.ctxOf (.core 0 0 0 3)).phase = .idle ∧ ∀ z < 3, (s.ctxOf (.core 0 0 0 z)).phase ≠ .idle) ∧
    (let s := at0 live0; let u := (s.startFlush s.cur).cancelMatrix s.cur
     s.ctx.lact = false ∧ (!u.flushed s.cur || u.unacked s.cur || u.jobBusy s.cur || u.matrixBusy s.cur || u.seqBusy s.cur) = false ∧
      u.refusalDue s.cur = none ∧ (u.ctxOf s.cur).jobFaults = []) ∧
    (let s := at0 { live0 with out := 1 }; let u := (s.startFlush s.cur).cancelMatrix s.cur
     (!u.flushed s.cur || u.unacked s.cur || u.jobBusy s.cur || u.matrixBusy s.cur || u.seqBusy s.cur) = true) := by decide

/-- The machine of context 0.0.0.0 with the refusal record of one of its stores at entry 15 of the journal, which it has selected. -/
def refused0 (part : BitVec 2) : State := { at0 { live0 with jpart := part, jentry := 15 } with cores := [(coreKey c0, { Core.reset with
  journal := [(15, ⟨c0, 0, 0, 15, 0, false, .record 1, false, 1, 0⟩)] })] }

theorem witness_SystemRegisterReads : (at0 kern0).ctx.prv = true ∧ (at0 live0).seqBusy c0 = false ∧ (at0 live0).matrixBusy c0 = false ∧
    (∀ e < 32, (0x8000 : Word).getLsbD e = (decide (e < 16) && (lookup? (refused0 3).core.journal e).isSome)) ∧ (refused0 3).ctx.jpart = 3 ∧
    (∀ p : BitVec 2, (lookup? (refused0 p).core.journal (refused0 p).ctx.jentry.toNat).map JEntry.verdict = some (.record 1) ∧
      (refused0 p).ctx.jpart = p) ∧
    (lookup? (at0 live0).core.journal (at0 live0).ctx.jentry.toNat = none ∧ (at0 live0).ctx.jpart ≠ 3) ∧
    ((sysReg? (at0 live0).cur 0x020).isSome = true ∧ (at0 live0).ctx.innermost = none) ∧
    (let c : Ctx := { live0 with dom := (Vector.replicate 4 ⟨false, 0⟩).set 0 ⟨true, 5⟩ }
     let s : State := { at0 c with domains := [(5, domain0)] }
     s.ctx.innermost = some 5 ∧ s.domain? 5 = some domain0) ∧ (at0 live0).time.toNat + 4 < 2 ^ 64 := by decide

theorem witness_SystemRegisterWrites : (at0 kern0).ctx.prv = true ∧ ((at0 live0).ctx.prv = false ∧ (at0 live0).ctx.tvec = 0) ∧
    (let s := at0 { kern0 with prv := false }; s.ctx.prv = false ∧ s.ctx.tvec ≠ 0) := by decide

theorem witness_SystemRegisterFaults : isHart (at0 live0).cur = false ∧ (at0 live0).ctx.prv = false ∧
    (0x007 : BitVec 12) ∉ ([0x006, 0x008] : List (BitVec 12)) := by decide

theorem witness_TraceAndMonitorRegisterEvents : (at0 kern0).ctx.prv = true ∧
    (let s : State := { at0 kern0 with cores := [(coreKey c0, { Core.reset with
        journal := [(15, ⟨c0, 0, 0, 15, 0, false, .record 1, false, 1, 0⟩)] })] }
     (lookup? s.core.journal 15).map JEntry.verdict = some (.record 1)) ∧
    (let s : State := { at0 kern0 with cur := .serviceCore 15 3, ctxs := [(.serviceCore 15 3, kern0)] }
     s.cur = .serviceCore 15 3 ∧ (0x80000000 : Word).getLsbD 31 = true ∧ (s.hartOf s.cur).tlbBusy = none ∧
      (0 : Word).getLsbD 31 = false) ∧
    (let s : State := { at0 kern0 with harts := [(.serviceCore 0 0, { HartRegs.reset with tlbBusy := some (63, none) })] }
     (s.hartOf (.serviceCore 0 0)).tlbBusy = some (63, none) ∧ s.settledAccs 63 = true) ∧
    (at0 { kern0 with tenant := 63, out := 1 }).settledAccs 63 = false := by decide

theorem witness_LocalAddressMap : place c0 0x1FFFF = .ownTcm 0x1FFFF ∧ place c0 0x20000 = .unmapped ∧ place c0 0x00100000 = .scratch
    (scratchAt 0 0 0) ∧ place c0 0x0013FFFF = .scratch (scratchAt 0 0 0x3FFFF) ∧ place c0 0x00140000 = .unmapped ∧
    place c0 0x010FFFFF = .peer 0 0 7 0x1FFFF ∧ place c0 0x0301FFFF = .matrix (matrixAt 0 0 0x1FFFF) ∧ place c0 0x03020000 = .unmapped ∧
    place c0 0x7FFFFFFF = .shared ∧ place c0 0x80000000 = .event 0 ∧ place c0 0x8000FFFF = .event 0xFFFF ∧
    place c0 0x80010000 = .unmapped ∧ tcmAt 0 0 0 1 = tcmAt 0 0 0 1 := by decide

/-- A window over 0x40000000 for loads, stores and atomics, to stack 0 slice 0 from offset 0 (12 R346). -/
def win0 : Window := ⟨0x40000000, 0x4000F000, 0, 0xF⟩

/-- A context with that window. -/
def wide0 : Ctx := { live0 with windows := Vector.ofFn (fun _ => win0), tenant := 3 }

/-- A partition of tenant 3: cluster rows, the slice ranges of stack 0 slice 0, DRAM, domains and pool. -/
def part0 : Partition := ⟨[(0, 0)], [(0, 0, 0, 23)], [], 0, [48], [], [], [], 0, 4, 0, 0x200000, true⟩

/-- A machine with that partition and context. -/
def owned (c : Ctx) : State := { at0 { c with tenant := 3 } with partitions := [(3, part0)], bootStage := 6 }

theorem witness_LoadsWriteTheirDestinationAndNothingElse :
    LoadAnswers (at0 (live0.setX 2 0x1FFFC)) 0x1FFFC 4 [0, 0, 0, 0] (at0 (live0.setX 2 0x1FFFC)) ∧
    LoadAnswers (at0 live0) 0x0013FFFF 1 [0] (at0 live0) ∧ LoadAnswers (at0 live0) 0x03000002 2 [0, 0] (at0 live0) ∧
    (let s := at0 { wide0 with pend := .got [1, 2, 3, 4, 5, 6, 7, 8] }; LoadAnswers s 0x40000000 8 [1, 2, 3, 4, 5, 6, 7, 8] s) :=
  ⟨⟨by decide, .inl ⟨ownTcmAt c0 0x1FFFC, true, ⟨rfl, rfl⟩, by decide, by decide, by decide⟩⟩,
   ⟨by decide, .inl ⟨scratchAt 0 0 0x3FFFF, false, ⟨rfl, rfl⟩, by decide, by decide, by decide⟩⟩,
   ⟨by decide, .inl ⟨matrixAt 0 0 2, false, ⟨rfl, rfl⟩, by decide, by decide, by decide⟩⟩,
   ⟨by decide, .inr ⟨by decide, by decide, by decide, by decide⟩⟩⟩

theorem witness_StoresWriteTheirBytesAndNothingElse : Memory.wf (at0 live0).mem = true ∧
    StoreGoes (at0 live0) 0x1EFF8 8 (ownTcmAt c0 0x1EFF8) true ∧ StoreGoes (at0 kern0) 0x1FFFC 4 (ownTcmAt c0 0x1FFFC) true ∧
    StoreGoes (at0 live0) 0x00100001 1 (scratchAt 0 0 1) false ∧ StoreGoes (at0 live0) 0x0301FFFE 2 (matrixAt 0 0 0x1FFFE) false ∧
    (at0 live0).released c0 = true ∧
    ({ at0 live0 with cores := [(coreKey c0, { Core.reset with journal := [(0, ⟨c0, 0, 0, 15, 0, false, .posted, false, 1, 0⟩)] })] } :
      State).released c0 = false :=
  ⟨by decide, ⟨by decide, ⟨rfl, rfl⟩, .inr rfl, by decide⟩, ⟨by decide, ⟨rfl, rfl⟩, .inl (by decide), by decide⟩,
   ⟨by decide, ⟨rfl, rfl⟩, .inr trivial, by decide⟩, ⟨by decide, ⟨rfl, rfl⟩, .inr trivial, by decide⟩, by decide, by decide⟩

theorem witness_LoadsAndStoresTrapWhereTheAddressIsBad : (0x1FFFF : Word).toNat % 4 ≠ 0 ∧
    (place c0 0x01020000 = .peer 0 0 1 0 ∧ (at0 kern0).present c0 0 0 1 = false ∧ (at0 kern0).ctx.prv = true) ∧
    place c0 0x20000 = .unmapped ∧ (place c0 0x40000000 = .shared ∧ homeOf live0.windows 0x40000000 .load = none ∧
      homeOf live0.windows 0x40000000 .store = none) ∧
    (({ at0 live0 with eccBad := [eccWord (ownTcmAt c0 4)] } : State).hasBad (ownTcmAt c0 4) 4 = true) ∧
    (place c0 0x1F000 = .ownTcm 0x1F000 ∧ (at0 live0).ctx.prv = false ∧ (at0 live0).hwManaged c0 0x1F000 = true) := by decide

theorem witness_SharedSramLoadsAskAndReturn :
    (let s := owned (wide0.setX 2 0x40000000); let ea := s.ctx.getX 2 + (0x3FFF : Word) * 4
     ea.toNat % 4 = 0 ∧ place s.cur ea.toNat = .shared ∧ homeOf s.ctx.windows ea.toNat .load = some (0, 0, 0xFFFC) ∧ s.ctx.pend = .none) ∧
    (let s := owned { wide0 with pend := .asked (sliceAt 0 0 0x17FFFC) 4 0x40000000 }
     (s.ctxOf c0).pend = .asked (sliceAt 0 0 0x17FFFC) 4 0x40000000 ∧ s.sliceTenant 0 0 0x17FFFC = some (s.tenantOf c0) ∧
      s.hasBad (sliceAt 0 0 0x17FFFC) 4 = false ∧ (s.coreOf c0).journal = [] ∧ s.sliceTenant 0 1 0 ≠ some (s.tenantOf c0) ∧
      ({ s with eccBad := [eccWord (sliceAt 0 0 0x17FFFC)] } : State).hasBad (sliceAt 0 0 0x17FFFC) 4 = true) := by decide

/-- A journal entry of context 0.0.0.0 that stores a word to slice 0 of stack 0. -/
def entry0 (v : Verdict) : JEntry := ⟨c0, 0x40000000, sliceAt 0 0 0, 15, 7, false, v, false, 1, 0⟩

/-- The machine of `owned` with a journal. -/
def journal0 (j : List (Nat × JEntry)) : State := { owned wide0 with cores := [(coreKey c0, { Core.reset with journal := j })] }

theorem witness_StoresToSharedSramArePosted :
    (let s := owned (wide0.setX 2 0x40000000)
     Memory.wf s.mem = true ∧ (s.ctx.getX 2 + (0 : Word) * 4).toNat % 4 = 0 ∧ place s.cur 0x40000000 = .shared ∧
      homeOf s.ctx.windows 0x40000000 .store = some (0, 0, 0) ∧ lookup? s.core.journal 0 = none) ∧
    (let s := journal0 ((List.range 15).map (fun n => (n, entry0 .posted)))
     lookup? s.core.journal 15 = none ∧ ∀ m < 15, lookup? s.core.journal m ≠ none) ∧
    (let s := journal0 ((List.range 16).map (fun n => (n, entry0 .posted))); ∀ n < 16, lookup? s.core.journal n ≠ none) ∧
    (let s := journal0 [(15, entry0 .posted)]
     lookup? (s.coreOf c0).journal 15 = some (entry0 .posted) ∧ oldest (s.coreOf c0).journal (entry0 .posted) = true ∧
      s.sliceTenant 0 0 0 = some (s.tenantOf c0) ∧ s.sliceTenant 15 63 0x17FFFC ≠ some (s.tenantOf c0)) ∧
    lookup? ((journal0 [(0, entry0 .performed)]).coreOf c0).journal 0 = some (entry0 .performed) ∧
    lookup? ((journal0 [(0, entry0 (.rejected 1))]).coreOf c0).journal 0 = some (entry0 (.rejected 1)) := by decide

/-- A copy job of context 0.0.0.0 with its completion word at 0x1008. -/
def job0 (started : Bool) : Job := ⟨5, c0, [0, 0, 0, 0, 0, 0, 0, 0x1008], Vector.replicate 8 ⟨0, 0, 0, 0⟩, [], [], started⟩

/-- A cached line of tenant 3 at 0x1000, full of NOPs. -/
def line0 : Line := ⟨3, 0x40, List.replicate 32 0xB806, [], []⟩

theorem witness_FencesAndHints :
    (let s (l : List Line) : State := { at0 { live0 with tenant := 3, pc := 0x1000 } with units := [(unitKey c0, { Cluster.reset with lines := l })] }
     isHart (s []).cur = false ∧ isHart (.memoryCore 0 0) = true ∧ ((s []).unitOf c0).fills = [] ∧
      ((s [line0]).unitOf c0).line? 3 0x40 = some line0 ∧ ((s []).unitOf c0).line? 3 0x40 = none) ∧
    ((at0 live0).unacked c0 = false ∧ (at0 live0).seqBusy c0 = false) ∧
    (journal0 [(0, entry0 .posted)]).unacked c0 = true ∧ (5 : BitVec 4) ≠ 0 ∧ (4 : BitVec 4).getLsbD 2 = true ∧
    (8 : BitVec 4).getLsbD 3 = true ∧
    ({ at0 live0 with cores := [(coreKey c0, { Core.reset with seq := [.loop c0 [] 1 0 1] })] } : State).seqBusy c0 = true ∧
    (∀ j ∈ (at0 live0).jobsOf c0, j.ctx ≠ c0) ∧
    (∃ j ∈ ({ at0 live0 with units := [(unitKey c0, { Cluster.reset with jobs := [job0 false] })] } : State).jobsOf c0, j.ctx = c0) := by
  decide

/-- Sign and numerator of a finite number. -/
def finite? (n : Machine.Num) : Option (Bool × Bool) :=
  match n with
  | .fin b k _ => some (b, k ≠ 0)
  | .inf _ => none
  | .nan _ => none

theorem witness_FloatArithmeticResults : live0.rm = false ∧ FOps (live0.setF 1 0x3F800000) 1 2 none 0x3F800000 0 ∧
    FOps (live0.setF 31 0x7F800001) 1 0 (some 31) 0 0x7F800001 := ⟨rfl, ⟨rfl, rfl⟩, ⟨rfl, rfl⟩⟩

theorem witness_FloatingSpecialValues : (num32 0x7FC00000).isNan = true ∧ (num32 0x7F800001).sig = true ∧
    finite? (num32 0x80000001) = some (true, true) ∧ finite? (num32 0x3F800000) = some (false, true) ∧ (num32 0).isNan = false := by decide

/-- The parts of a fraction that a code stands for. -/
def fraction? (f : FpFormat) (m : Nat) : Option (Bool × Nat × Nat) :=
  match f.decode m with
  | .fin b n d => some (b, n, d)
  | .inf _ => none
  | .nan _ => none

/-- 1 and 1 + 2^-23 and a value between them, the largest finite value and one beyond it; 3/2 and 7/2 as ties of an integer. -/
theorem witness_FloatingSpecialValues_rounding :
    (0x3F800000 ≤ 0x7F7FFFFF ∧ (fraction? fp32 0x3F800000).map (fun p => (p.1, p.2.1 == p.2.2)) = some (false, true)) ∧
    ((fraction? fp32 0x3F800000).bind (fun p => (fraction? fp32 0x3F800001).map (fun q =>
      decide (p.2.1 * 2 ^ 24 < (2 ^ 24 + 1) * p.2.2 ∧ (2 ^ 24 + 1) * q.2.2 < q.2.1 * 2 ^ 24))) = some true) ∧
    (2 ^ 24 - 1) * 2 ^ 104 * 1 < 2 ^ 128 ∧ 14 * 2 ^ 5 * 1 < 449 ∧ 0 < 1 ∧ ¬(2 ∣ 3) ∧ (2 ∣ 4) ∧ (0 : BitVec 2) ≠ 3 ∧
    (4 : BitVec 3).toNat ≤ 4 ∧ 0 < 25 ∧ 2 ^ 25 ≤ 2 ^ 26 - 1 ∧ 2 ^ 26 - 1 < 2 ^ (25 + 1) := by decide +kernel

theorem witness_FloatingConversions : (at0 live0).ctx.rm = false ∧ (num32 0x7FC00000).isNan = true ∧
    (match num32 0xFF800000 with
      | .inf b => b
      | .fin _ _ _ => false
      | .nan _ => false) = true ∧
    (let v (w : Word) : Int := match num32 w with
        | .fin b n d => signed b (roundNat 0 b n d).1
        | .inf _ => 0
        | .nan _ => 0
     v 0xCF000001 < -(2 ^ 31) ∧ v 0xCF000000 = -(2 ^ 31) ∧ 2 ^ 31 - 1 < v 0x4F000000 ∧ v 0x4EFFFFFF ≤ 2 ^ 31 - 1 ∧ v 0xBF800000 < 0 ∧
      v 0x4F7FFFFF ≤ 2 ^ 32 - 1 ∧ 2 ^ 32 - 1 < v 0x4F800000) := by decide

theorem witness_FloatingMovesComparesAndClass : (at0 live0).ctx.rm = false := by decide

theorem witness_RationalModeResults : ({ live0 with rm := true } : Ctx).rm = true ∧
    FOps ({ live0 with rm := true } : Ctx) 1 2 none 0 0 ∧ FOps (({ live0 with rm := true } : Ctx).setF 3 0x0800000F) 1 3 (some 2) 0x0800000F 0 :=
  ⟨rfl, ⟨rfl, rfl⟩, ⟨rfl, rfl⟩⟩

theorem witness_SlashInstructionResults : FOps live0 1 2 none 0 0 ∧ ((live0.setX 1 0x80000000).getX 1).toInt ≠ 0 ∧
    ((live0.setX 1 0xFFFFFFFF).getX 1).toInt < 0 ∧ (live0.getX 0).toInt = 0 ∧
    ((0x64000000 : Word).extractLsb' 26 5).toNat = 25 ∧ ((0x68000000 : Word).extractLsb' 26 5).toNat = 26 ∧
    26 < ((0x6C000000 : Word).extractLsb' 26 5).toNat := ⟨⟨rfl, rfl⟩, by decide⟩

/-- A context with 64 lanes and VL 64. -/
def lanes0 : Ctx := { live0 with count := 64, vl := 64, want := 64, vmin := 8 }

/-- An entry of context 0.0.0.0 that computes one element. -/
def seq0 (op : Instr) : SeqEntry := ⟨c0, op, 0, 0, 0, 0, 1, 0, false, 0, false, false, []⟩

/-- The machine of a context with a sequencer. -/
def seqd (c : Ctx) (l : List SeqItem) : State := { at0 c with cores := [(coreKey c0, { Core.reset with seq := l })] }

set_option maxRecDepth 8000 in
theorem witness_VectorInstructionsEnterTheSequencer :
    (let s := seqd lanes0 (List.replicate 15 (.one (seq0 .vsync)))
     isHart s.cur = false ∧ s.ctx.count ≠ 0 ∧ s.ctx.vloop = none ∧ s.seqUsed s.cur < 16) ∧
    16 ≤ (seqd lanes0 (List.replicate 16 (.one (seq0 .vsync)))).seqUsed c0 ∧
    (2 ≤ (2 : Word).toNat ∧ (8 : Word).toNat ≤ 8 ∧ lanes0.vl = 64 ∧ ({ lanes0 with vl := 32 } : Ctx).vl = 32) ∧
    (let s := at0 lanes0; let offs (w : Word) := (List.range 64).map (fun i => BitVec.ofNat 32 i * w)
     s.vecCheck true 0x1FF00 0 (offs 4) (4 * BitVec.ofNat 32 64) = none ∧ s.vecCheck false 0x100000 0 (offs 4) (4 * BitVec.ofNat 32 64) = none ∧
      s.vecCheck true 0x1FFFC 0 (offs 0) (0 * BitVec.ofNat 32 64) = none ∧ s.vecCheck true 0x13FFFC 0 (offs 0) 4 = none ∧
      (0x1FFFC : Word).toNat % 4 = 0 ∧ vecRange s.cur 0x1FFFC = true) ∧
    isHart ({ at0 live0 with cur := .memoryCore 0 0 } : State).cur = true ∧ (at0 live0).ctx.count = 0 := by decide

theorem witness_VectorElementResults :
    ((seqd lanes0 [.one (seq0 (.vaddI 1 2 none .plain))]).coreOf c0).seq = .one (seq0 (.vaddI 1 2 none .plain)) :: [] ∧
    ((seqd lanes0 [.one (seq0 (.vtanh 1 2 ⟨3, true, true⟩))]).coreOf c0).seq = .one (seq0 (.vtanh 1 2 ⟨3, true, true⟩)) :: [] ∧
    (at0 lanes0).eccBad = [] ∧ (at0 lanes0).eccOne = [] ∧
    (seqd lanes0 [.one (seq0 .vsync)]).mayStart (seq0 .vsync).ctx = true ∧ (seq0 .vsync).early = [] := by decide

theorem witness_VectorReductionsAndMemory :
    (let s := seqd lanes0 [.one (seq0 (.vld 1 2 0 .plain))]
     (s.coreOf c0).seq = .one (seq0 (.vld 1 2 0 .plain)) :: [] ∧ s.eccBad = [] ∧ s.eccOne = [] ∧ Memory.wf s.mem = true ∧
      s.mayStart c0 = true ∧ (seq0 (.vst 1 2 0 .plain)).early = [] ∧ (seq0 .vsync).early = [] ∧ (tcmOrScratch c0 0 4).isSome = true ∧ (tcmOrScratch c0 0x1FFFC 4).isSome = true ∧ (tcmOrScratch c0 0x1FFFD 4).isSome = false) ∧
    ((seqd lanes0 [.loop c0 [seq0 .vsync, seq0 .vsync] 1 1 1]).coreOf c0).seq = .loop c0 [seq0 .vsync, seq0 .vsync] 1 1 1 :: [] ∧
    (∀ i, (decide (i < 1) && ((0 : BitVec 2) = 0 || false)) = true → (tcmOrScratch c0 (0 + BitVec.ofNat 32 i * 4 : Word).toNat 4).isSome) :=
  ⟨by decide, by decide, fun i h => match i, h with
    | 0, _ => by decide
    | n + 1, h => by simp at h⟩

theorem witness_LanePoolAndSequencerControl :
    (let s := { at0 (live0.setX 2 0x00400040) with ctxs := [(c0, live0.setX 2 0x00400040), (.core 0 0 1 0, { lanes0 with count := 8 })] }
     isHart s.cur = false ∧ s.seqBusy s.cur = false ∧ s.unit.claims = [] ∧ claimOk (s.ctx.getX 2) = true ∧
      s.freeLanes s.cur + s.ctx.count < 64 ∧ (∀ p ∈ s.ctxs, p.2.owed = 0) ∧ (s.ctxs.filter (fun p => p.1 = s.cur)).length = 1) ∧
    (let s := at0 (live0.setX 2 0x00400040)
     s.unit.claims = [] ∧ claimOk (s.ctx.getX 2) = true ∧ 64 ≤ s.freeLanes s.cur + s.ctx.count ∧
      ((s.ctxs.filter (fun p => unitKey p.1 = unitKey s.cur)).map (fun p => p.2.count)).sum ≤ 64 ∧ s.ctx.owed = 0) ∧
    (({ at0 live0 with units := [(unitKey c0, { Cluster.reset with claims := [⟨c0, 64, 64, 5, [0xB806]⟩] })] } : State).unit.claims.any
      (fun k => k.ctx = c0) = true) ∧
    (claimOk 0x00080048 = false ∧ claimOk 0x00080040 = true ∧ claimOk 0x00080007 = false) ∧
    (let s : State := { at0 live0 with units := [(unitKey c0, { Cluster.reset with claims := [⟨c0, 64, 64, 5, [0xB806]⟩] })] }
     (s.unitOf c0).claims = [⟨c0, 64, 64, 5, [0xB806]⟩] ∧ (∀ p ∈ s.ctxs, p.2.owed = 0) ∧ 64 ≤ s.freeLanes c0) ∧
    (seqd lanes0 [.one (seq0 .vsync)]).seqBusy c0 = true ∧
    (1 ≤ (1 : Word).toNat ∧ (16 : Word).toNat ≤ 16 ∧ (at0 lanes0).ctx.count ≠ 0 ∧ (at0 lanes0).seqUsed c0 + 16 ≤ 16 ∧
      16 < (seqd lanes0 [.one (seq0 .vsync)]).seqUsed c0 + 16 ∧ (at0 live0).ctx.count = 0) ∧
    (0 : Word).toNat < 1 ∧ 16 < (17 : Word).toNat := by decide

/-- A matrix command of context 0.0.0.0 with its operand at 0x1000. -/
def cmd0 (op : Instr) : MCmd := ⟨c0, op, 0x1000, 0, 0x0888, 0xFFFFFFFF, 1, 0, false, false, false, false, 0, false, false, [], none⟩

/-- The machine of a context with a matrix queue. -/
def queued (c : Ctx) (l : List MCmd) : State := { at0 c with cores := [(coreKey c0, { Core.reset with mqueue := l })] }

theorem witness_MatrixCommandsEnterTheirQueue :
    (let s := queued (live0.setX 1 0x20) [cmd0 .mring, cmd0 .mring, cmd0 .mring]
     isHart s.cur = false ∧ (s.ctx.getX 1).toNat % 32 = 0 ∧ s.ctx.mfmt.toNat % 16 = 8 ∧ s.ctx.mfmt.toNat / 16 % 16 = 8 ∧
      s.ctx.mfmt.toNat / 256 % 16 = 8 ∧ s.core.mqueue.length < 4 ∧ (s.seqOps s.cur).any vectorMem = false) ∧
    (let s := at0 { live0 with mfmt := 0x912 }
     s.ctx.mfmt.toNat % 16 = 2 ∧ ¬(2 ≤ s.ctx.mfmt.toNat / 16 % 16) ∧ ¬(s.ctx.mfmt.toNat / 256 % 16 ≤ 8)) ∧
    (let s := at0 (live0.setX 1 0x1F); (s.ctx.getX 1).toNat % 32 ≠ 0) ∧
    (let s := queued live0 [cmd0 .mring, cmd0 .mring, cmd0 .mring, cmd0 .mring]; 4 ≤ s.core.mqueue.length ∧ s.matrixBusy s.cur = true) ∧
    (at0 live0).matrixBusy c0 = false ∧ (∀ m ∈ (at0 live0).core.mqueue, m.cancelled = true) ∧
    (∃ m ∈ (queued live0 [cmd0 .mring]).core.mqueue, m.cancelled = false) ∧
    ((seqd lanes0 [.one (seq0 (.vld 1 2 0 .plain))]).seqOps c0).any vectorMem = true ∧ isHart (.saveEngine 0) = true := by decide

/-- The flat number of an operand that is wholly readable. -/
def operand? (s : State) (a : AgentId) (ea n : Nat) : Option Nat :=
  match s.operandAt a ea n with
  | .ok flat => some flat
  | .error _ => none

set_option maxRecDepth 8000 in
theorem witness_MatrixUnitServesItsCommands :
    (let s := queued live0 [cmd0 (.mlatb 1)]; let m := cmd0 (.mlatb 1)
     s.eccBad = [] ∧ s.eccOne = [] ∧ Memory.wf s.mem = true ∧ m.ctx = .core 0 0 0 0 ∧ (s.coreOf c0).mqueue = m :: [] ∧ m.susp = false ∧
      m.atRing = false ∧ m.cancelled = false ∧ m.early = [] ∧ m.out = none ∧ m.gone = false ∧ s.mayStart m.ctx = true ∧ operand? s m.ctx m.xa.toNat (32 + 128 * (m.mfmt.toNat / 16 % 16)) =
        some (ownTcmAt c0 0x1000)) ∧
    (let s := queued live0 [cmd0 (.mma 1 2)]; let m := cmd0 (.mma 1 2)
     (s.unitOf c0).service = none ∧ s.arbitrate c0 = some (0, 1, 0) ∧ m.done = 0 ∧ m.steps = 1 ∧
      operand? s m.ctx m.xa.toNat (32 + 128 * (m.mfmt.toNat % 16)) = some (ownTcmAt c0 0x1000) ∧
      (({ s with units := [(unitKey c0, { Cluster.reset with service := some c0 })] } : State).unitOf c0).service = some c0) ∧
    (queued live0 [cmd0 (.mzero 1)]).arbitrate c0 = some (0, 1, 0) ∧ (queued live0 [cmd0 (.mcrd 3 2)]).arbitrate c0 = some (0, 1, 0) ∧
    (queued live0 [cmd0 (.mcwr 1 2)]).arbitrate c0 = some (0, 1, 0) ∧
    (let s : State := { queued live0 [cmd0 .mring] with units := [(unitKey c0, { Cluster.reset with mrset := 1 })] }
     s.members c0 ≠ [] ∧ (s.members c0).all s.ringReady = true) ∧
    (let s : State := { at0 live0 with time := 0x0400 }; let u := s.unitOf c0
     u.mgateIdle ≠ 0 ∧ u.service = none ∧ u.lastUse[(3 : BitVec 2).toNat] + u.mgateIdle.toNat ≤ s.time.toNat) ∧
    (let m := { cmd0 (.mma 1 2) with susp := true, started := true }; let s := queued { live0 with mchain := ⟨true, 1, 0, 1, 0⟩ } [m]
     s.core.mqueue = m :: [] ∧ m.susp = true ∧ m.ctx = s.cur ∧ s.ctx.mchain.susp = true) := by decide

theorem witness_ReturningAtomics : (0x00100002 : Word).toNat % 4 ≠ 0 ∧
    (let s := at0 live0
     place s.cur 0x00100000 = .scratch (scratchAt 0 0 0) ∧ s.hasBad (scratchAt 0 0 0) 4 = false ∧ s.released s.cur = true ∧
      Memory.wf s.mem = true) ∧
    place c0 0x1000 = .ownTcm 0x1000 ∧ (place c0 0x40000000 = .shared ∧ homeOf live0.windows 0x40000000 .atomic = none) ∧
    (let s := owned wide0
     homeOf s.ctx.windows 0x4000FFFC .atomic = some (0, 0, 0xFFFC) ∧ s.ctx.pend = .none ∧ s.released s.cur = true ∧
      (owned { wide0 with pend := .got [1, 2, 3, 4] }).ctx.pend = .got [1, 2, 3, 4]) ∧
    (let s := owned { wide0 with pend := .rmw (sliceAt 0 0 0x17FFFC) 0x40000000 0 1 2 }
     (s.ctxOf c0).pend = .rmw (sliceAt 0 0 0x17FFFC) 0x40000000 0 1 2 ∧ s.sliceTenant 0 0 0x17FFFC = some (s.tenantOf c0) ∧
      s.hasBad (sliceAt 0 0 0x17FFFC) 4 = false ∧ s.sliceTenant 0 63 0 ≠ some (s.tenantOf c0)) := by decide

/-- An accumulate of context 0.0.0.0 in flight to offset 0 of slice 0. -/
def acc0 (d : AccDir) : Acc := ⟨d, 0, 0, 0, false, 5, 3, none, c0, true, 0, 8, 32, 0, 0, false⟩

set_option maxRecDepth 8000 in
theorem witness_AccumulatesAndResidualTiles : (0x40000001 : Word).toNat % 4 ≠ 0 ∧
    (let s := owned { wide0 with out := 62 }
     (0x40000000 : Word).toNat % 8 = 0 ∧ place s.cur 0x40000000 = .shared ∧ homeOf s.ctx.windows 0x40000000 .atomic = some (0, 0, 0) ∧
      s.tileEntry s.cur 0 = none ∧ s.ctx.out < 63 ∧ s.ctx.out < 64 ∧ homeOf s.ctx.windows 0x40000004 .atomic = some (0, 0, 4) ∧
      s.tileEntry s.cur 1 = none) ∧
    64 ≤ (owned { wide0 with out := 64 }).ctx.out ∧
    ((∀ n < 64, (at0 live0).tileEntry c0 n = none) ∧ (at0 live0).ctx.out = 0) ∧
    (let s : State := { owned { wide0 with out := 1 } with accs := [acc0 .toHome] }
     s.accs[0]? = some (acc0 .toHome) ∧ s.sliceTenant 0 0 0 = some 3 ∧ s.hasBad (sliceAt 0 0 0) 4 = false ∧ (acc0 .toHome).must = true ∧
      (at0 live0).sliceTenant 0 0 0 ≠ some 3 ∧ Memory.wf s.mem = true) := by decide

set_option maxRecDepth 8000 in
theorem witness_AccumulatesAndResidualTiles_refusals :
    (let m := { acc0 .toHome with must := false, quota := 1 }
     let s : State := { owned { wide0 with out := 1 } with accs := [m], slices := [((0, 0), { Slice.reset with quota := [(sourceOf c0, 3)] })] }
     m.must = false ∧ m.quota ≠ 0 ∧ s.switches = [] ∧ m.qwx = 8 ∧ (s.sliceOf 0 0).quota = [(sourceOf m.owner, 3)] ∧ m.quota ≤ 1 ∧
      s.hasBad (sliceAt 0 0 0) 4 = false ∧ s.sliceTenant 0 0 0 = some m.tenant ∧ ((owned wide0).sliceOf 0 0).quota = [] ∧ 0 < m.quota) ∧
    (let s := (owned { wide0 with flushing := true }).storeWord (tileBase c0 + 16 * 63) 0x80000000
     Memory.wf s.mem = true ∧ s.tileEntry c0 63 ≠ none ∧ (s.ctxOf c0).flushing = true ∧ (s.ctxOf c0).mustOut < 4) ∧
    (let s (c : Ctx) : State := { owned c with accs := [acc0 .refusal] }
     (s { wide0 with flushing := true }).ctxOf c0 = { wide0 with flushing := true, tenant := 3 } ∧
      (s { wide0 with stopped := true }).pastStop c0 = true ∧ (s { wide0 with stopped := true }).resuming c0 = false ∧
      (acc0 .refusal).stack < 16 ∧ (acc0 .refusal).slice < 64 ∧ (acc0 .refusal).off % 4 = 0 ∧ (acc0 .refusal).off < 0x400000) ∧
    (let s := (owned wide0).storeWord (tileBase c0) 0x80000000; (s.tileEntry c0 0).isSome = true) ∧
    (let s : State := { owned { wide0 with out := 1 } with accs := [acc0 .ack, acc0 .refusal] }
     s.accs[0]? = some (acc0 .ack) ∧ s.accs[1]? = some (acc0 .refusal) ∧ (s.ctxOf c0).flushing = false ∧ s.pastStop c0 = false ∧
      s.tileEntry c0 0 = none) ∧
    (let m := { acc0 .toHome with must := false }; m.merges m 7 = true) ∧
    (let s : State := { (at0 live0).storeWord (tileBase c0 + 16 * 63) 0x80000000 with time := 0x10000 }
     (s.tileEntry c0 63).isSome = true ∧ (s.ctxOf c0).mustOut < 4 ∧ (s.ctxOf c0).out < 64 ∧
      (s.unitOf c0).acccfg.agex = 8 ∧ s.wordAt (tileBase c0 + 16 * 63 + 12) = 0) := by decide

/-- At TIME 0 the present quota window of a slice begins at 0; an entry stamped 0 has reached the age 2^16 at TIME 0x10000 (01 R21). -/
theorem witness_AccumulatesAndResidualTiles_clocks : (State.reset.sliceClock 0 0).toNat / 2 ^ 8 * 2 ^ 8 = 0 ∧
    2 ^ ((8 : BitVec 4).toNat + 8) ≤ (({ State.reset with time := 0x10000 } : State).coreClock c0).toNat % 2 ^ 32 := by
  have h := clock_bounds State.reset (200000 + 0 * 64 + 0) (by decide)
  have k := clock_bounds ({ State.reset with time := 0x10000 } : State) (coreNo 0 0 0) (by decide)
  have e : State.reset.time.toNat = 0 ∧ ({ State.reset with time := 0x10000 } : State).time.toNat = 0x10000 := by decide
  rw [e.1] at h; rw [e.2] at k
  refine ⟨?_, ?_⟩
  · show (State.reset.clock _).toNat / _ * _ = 0; omega
  · show _ ≤ (({ State.reset with time := 0x10000 } : State).clock _).toNat % _
    rw [show 2 ^ ((8 : BitVec 4).toNat + 8) = 0x10000 from rfl]; omega

/-- A well-formed job that copies the word at 0x100 to 0x200, with its completion word at 0x1008 (12 R362). -/
def copy0 : Job := ⟨5, c0, [0x04000000, 0x00000004, 0x100, 0, 0x200, 0, 0, 0x1008], Vector.replicate 8 ⟨0, 0, 0, 0⟩, [], [], true⟩

/-- The machine of a context with copy jobs. -/
def jobd (c : Ctx) (l : List Job) : State := { at0 c with units := [(unitKey c0, { Cluster.reset with jobs := l })] }

set_option maxRecDepth 8000 in
theorem witness_CopyJobs : (0x1010 : Word).toNat % 32 ≠ 0 ∧
    (let s := at0 (live0.setX 2 0x2000)
     (s.ctx.getX 2).toNat % 32 = 0 ∧ tcmOrScratch s.cur 0x2000 32 = some (ownTcmAt c0 0x2000) ∧ s.hasBad (ownTcmAt c0 0x2000) 32 = false ∧
      ((s.wordsAt (ownTcmAt c0 0x2000) 8)[7]?).getD 0 = 0 ∧ tcmOrScratch s.cur 0 4 = some (ownTcmAt c0 0) ∧ s.managedAt s.cur 0 = false ∧
      isHart s.cur = false ∧ s.unit.jobs.length < 32 ∧ s.released s.cur = true) ∧
    (let s := jobd live0 (List.replicate 7 (job0 false)); (s.unit.jobs.filter (fun j => j.ctx = s.cur)).length < 8) ∧
    (let s := jobd live0 (List.replicate 8 (job0 false)); 8 ≤ (s.unit.jobs.filter (fun j => j.ctx = s.cur)).length) ∧
    (let s := (at0 (live0.setX 2 0x1008)).storeWord (ownTcmAt c0 0x1008) 0x80000005
     (s.wordAt (ownTcmAt c0 0x1008)).getLsbD 31 = true ∧ s.hasBad (ownTcmAt c0 0x1008) 4 = false ∧ tcmOrScratch s.cur 0x1008 4 = some (ownTcmAt c0 0x1008)) ∧
    (let s := jobd live0 [job0 false]
     (s.wordAt (ownTcmAt c0 0x1008)).getLsbD 31 = false ∧ ∃ j ∈ s.jobsOf s.cur, j.ctx = s.cur ∧ (j.words[7]?).getD 0 = 0x1008) ∧
    ((at0 ({ live0 with wait := .job 0x1008 false } : Ctx)).ctx.wait = .job 0x1008 false ∧
      (at0 ({ live0 with wait := .job 0x1008 true } : Ctx)).ctx.wait = .job 0x1008 true ∧ (at0 live0).jobsOf c0 = []) ∧
    (let s := jobd live0 [job0 false]
     (s.unitOf c0).jobs = job0 false :: [] ∧ s.mayStart c0 = true ∧ (job0 false).started = false) ∧
    ((jobd live0 [job0 true]).unitOf c0).jobs = [job0 true] ∧ (job0 true).wellFormed = false ∧
    tcmOrScratch c0 ((job0 true).word 7) 4 = some (ownTcmAt c0 0x1008) ∧
    (let s := jobd live0 [copy0]
     (s.unitOf c0).jobs = [copy0] ∧ copy0.wellFormed = true ∧ copy0.done = [] ∧ copy0.parts = [] ∧ copy0.src < 2 ^ 32 ∧ copy0.dst < 2 ^ 32 ∧ s.mayStart c0 = true ∧ s.eccBad = [] ∧ copy0.rows = 1 ∧ copy0.len = 4 ∧ copy0.srcDram = false ∧
      copy0.dstDram = false ∧ place c0 copy0.src = .ownTcm 0x100 ∧ place c0 copy0.dst = .ownTcm 0x200 ∧ s.hwManaged c0 0x200 = false ∧
      ownTcmAt c0 0x200 + 4 ≤ ownTcmAt c0 0x1008) := by decide

/-- The context at 0x1000 of an empty machine, ready to fetch. -/
def pc0 : Ctx := { live0 with pc := 0x1000, tenant := 3 }

set_option maxRecDepth 8000 in
theorem witness_FetchAndTranslationEvents :
    (let s := at0 pc0
     s.atBoundary c0 = true ∧ s.due c0 = .none ∧ (s.ctxOf c0).lact = false ∧ (s.ctxOf c0).fetchBuf = [] ∧ (s.unitOf c0).fills = [] ∧
      ∀ l ∈ (s.unitOf c0).lines, ¬(l.tenant = 3 ∧ l.addr = 0x40)) ∧
    (let c := { pc0 with pc := 0x100E, fetchBuf := [(0x1000, List.replicate 8 0xE000)] }
     let l : Line := ⟨3, 0x40, List.replicate 32 0xB806, [], []⟩
     let s : State := { at0 c with units := [(unitKey c0, { Cluster.reset with lines := [l] })] }
     s.atBoundary c0 = true ∧ s.due c0 = .none ∧ groupLength ((List.replicate 8 0xE000).drop (0x100E % 16 / 2)) = none ∧ c.missed = false ∧
      (s.unitOf c0).line? 3 ((nextBlock 0x1000).toNat / 64) = some l ∧ nextBlock 0x1000 ≠ 0x1000) ∧
    (let h := homeMemoryCore (0x40 * 64)
     let s : State := { at0 pc0 with harts := [(h, { HartRegs.reset with tenant := 3, tcache := [(3, 0, 9, 7)] })]
                                     units := [(unitKey c0, { Cluster.reset with fills := [⟨3, 0x40, false⟩] })] }
     (s.unitOf c0).fills = [⟨3, 0x40, false⟩] ∧ s.eccBad = [] ∧ s.eccOne = [] ∧
      (match (s.translate h 3 (0x40 * 64) .fetch).2 with
        | .ok row => some row
        | .fail _ => none) = some 9 ∧
      homeMemoryCore 0x1000 = h ∧ (match (s.translate h 3 0x1000 .read).2 with
        | .ok row => some row
        | .fail _ => none) = some 9 ∧ homeMemoryCore 0x200000 ≠ h) ∧
    (let s : State := { at0 kern0 with cur := .memoryCore 0 0, ctxs := [(.memoryCore 0 0, { kern0 with port := [(true, 0x1000)] })] }
     s.cur = .memoryCore 0 0 ∧ s.ctx.prv = true ∧ (s.ctxOf (.memoryCore 0 0)).port = [(true, 0x1000)]) ∧
    (let s := at0 { pc0 with ie := true, jobFaults := [7] }
     s.atBoundary c0 = true ∧ s.due c0 = .jobFault 7 ∧ (s.ctxOf c0).jobFaults = 7 :: [] ∧ (s.ctxOf c0).halted = false ∧
      (s.ctxOf c0).vloop = none) := by decide

/-- The automaton image of the manual's example (13 R382). -/
def image0 : List Word := [0x06030600, 0, 0x00000001, 0x80030102, 0x00000302, 0x00000501, 0x00210082, 0x1422011B, 0x1842011B, 0x20000000,
  0x20600400, 0x60000000]

/-- An automaton of one state with one edge of a kind, to state 0, with shape (2, 2) of 1-byte elements. -/
def auto0 (kind : Word) : Auto := ⟨[0x06000101, 0, 0x00000001, kind * 0x10000000 + (if kind < 2 then 0x9 else 0)], 1, 1, 32⟩

/-- An open endpoint with that automaton, joined to endpoint 0 of context 0.0.0.1. -/
def open0 (kind : Word) : Ep := { Ep.reset with st := .opened, auto := auto0 kind, ctrs := [0], peer := 0x1000, peerLook := 1, slot := some 0 }

/-- A context of tenant 3 whose endpoint 0 is `x`, with a channel buffer region of 1 KiB. -/
def chan0 (x : Ep) : Ctx := ({ wide0 with sizek := 1, basek := 64, count := 64, vl := 64 } : Ctx).setEp 0 x

/-- A message of 4 bytes. -/
def msg0 : Msg := ⟨0, 0, 0x9, [1, 2, 3, 4], none⟩

/-- An affine descriptor of one element that is read at 0x1000 (12 R360). -/
def affine0 (write : Bool) : Affine := ⟨[if write then 0x05000001 else 0x05000000, 0x1000, 0x00010001, 0x00010001, 4, 4, 4, 4], 0, 0, 0, 0, false⟩

/-- A full automaton store. -/
def slots64 : List (Nat × Slot) := (List.range 64).map (fun n => (n, ⟨0, 0, auto0 0, false, none⟩))

/-- The manual's example: look-aheads 2 and 3, and 768 bytes reserved. -/
theorem test_automaton_example : (match checkAuto image0 with
      | .ok a => (a.outLook, a.inLook, a.resv)
      | .error _ => (0, 0, 0)) = (2, 3, 768) := by decide +kernel

set_option maxRecDepth 8000 in
theorem witness_AutomatonStoreAndStreams :
    (let flat := ownTcmAt c0 0x1000
     let s := image0.zipIdx.foldl (fun s p => s.storeWord (flat + 4 * p.2) p.1) (owned (live0.setX 2 0x1000))
     (s.ctx.getX 2).toNat % 4 = 0 ∧ tcmOrScratch s.cur 0x1000 8 = some flat ∧
      headOk (s.wordAt flat).toNat (s.wordAt (flat + 4)).toNat = true ∧
      2 + headNstate (s.wordAt flat).toNat + headNedge (s.wordAt flat).toNat = 12 ∧ tcmOrScratch s.cur 0x1000 48 = some flat ∧
      image0 = s.wordsAt flat 12 ∧ s.freeSlot s.cur = some 0 ∧ s.eccBad = [] ∧ s.eccOne = []) ∧
    (match checkAuto [0x06000101, 0, 0x00000001, 0x10000036] with
      | .ok _ => 0
      | .error k => k) = 4 ∧
    ({ at0 live0 with units := [(unitKey c0, { Cluster.reset with slots := slots64 })] } : State).freeSlot c0 = none ∧
    (2 : Word).toNat % 4 ≠ 0 ∧ (at0 live0).handle? c0 0 = none ∧
    (let s : State := { at0 live0 with units := [(unitKey c0, { Cluster.reset with slots := [(63, ⟨9, 0, auto0 0, false, none⟩)] })] }
     lookup? s.unit.slots 63 = some ⟨9, 0, auto0 0, false, none⟩ ∧ s.slotUsed s.cur 63 = false) ∧
    (let s : State := { at0 (chan0 (open0 1)) with units := [(unitKey c0, { Cluster.reset with slots := [(0, ⟨9, 0, auto0 0, false, none⟩)] })] }
     s.slotUsed s.cur 0 = true ∧ (s.ctx.ep 0).st = .opened ∧ (s.ctx.ep 1).st = .none) ∧
    (let s := at0 live0; let flat := ownTcmAt c0 0
     tcmOrScratch s.cur 0 32 = some flat ∧ affineWordOk 0 (((s.wordsAt flat 8)[0]?).getD 0) = false ∧ s.ctx.stream 3 = .unbound) ∧
    (∀ n < 8, affineWordOk n (((affine0 false).words[n]?).getD 0) = true) := by decide +kernel

set_option maxRecDepth 8000 in
theorem witness_AutomatonStoreAndStreams_reads :
    (let s := at0 { live0 with streams := Vector.ofFn (fun _ => Stream.affine (affine0 false)) }; let g := affine0 false
     s.ctx.stream 3 = .affine g ∧ g.exhausted = false ∧ (tcmOrScratch s.cur g.addr.toNat 4).isSome = true ∧ g.writes = false ∧
      g.i0 < g.count 0 ∧ g.i1 < g.count 1 ∧ g.i2 < g.count 2 ∧ g.i3 < g.count 3) ∧
    (let s := at0 { live0 with streams := Vector.ofFn (fun _ => Stream.affine (affine0 true)) }; let g := affine0 true
     s.ctx.stream 0 = .affine g ∧ (tcmOrScratch s.cur g.addr.toNat 4).isSome = true ∧ g.writes = true ∧ Memory.wf s.mem = true) ∧
    (let x := { open0 1 with inbox := [{ msg0 with payload := [1, 2, 3, 4, 5] }] }
     x.st = .opened ∧ x.readPos = 0 ∧ x.fit (fun d => d.kind = Kind.recv) = some 0 ∧ 4 < 5) ∧
    (let x := { open0 1 with inbox := [msg0], readPos := 4 }; x.readPos ≠ 0 ∧ msg0.payload.length ≤ x.readPos + 4) ∧
    ((0xC0040000 : Word).toNat / 2 ^ 18 % 256 ≠ 0 ∧ (0xC0000000 : Word).toNat / 2 ^ 30 = 3 ∧ (0xC0000000 : Word).toNat / 2 ^ 18 % 256 = 0 ∧
      (let d : Word := 0x6803E000; d.toNat / 2 ^ 18 % 256 = 0 ∧ d.toNat / 2 ^ 30 = 1 ∧ d.toNat % 2 ^ 18 % 4 = 0 ∧
        d.toNat % 2 ^ 18 + 4 * 2 ^ (d.toNat / 2 ^ 26 % 16) ≤ 0x40000)) ∧
    (let s := (at0 (chan0 { Ep.reset with st := .kr, rtab := 16 })).storeWord (ownTcmAt c0 0x1000) 0x07000000; let x := s.ctx.ep 0
     x.st = .kr ∧ isHart s.cur = false ∧ s.wordAt (ownTcmAt c0 0x1000) = 0x07000000 ∧
      tcmOrScratch s.cur (x.rtab.toNat * 256) 4 = some (ownTcmAt c0 0x1000) ∧
      tcmOrScratch s.cur (x.rtab.toNat * 256) 8 = some (ownTcmAt c0 0x1000) ∧
      (s.wordsAt (ownTcmAt c0 0x1000) 2).tail = [0] ∧ s.ctx.count ≠ 0 ∧ s.seqBusy s.cur = false ∧
      s.released s.cur = true) ∧
    (let s : State := { owned { wide0 with rau := ⟨2, 4, 0, false, false, false, 0, 0⟩ } with
        mesh := [.contribution c0 0 0 3 [(5, 1)] none false] }
     s.arrives 0 = some (.contribution c0 0 0 3 [(5, 1)] none false) ∧ s.mesh.any (Mesh.begunAt s.cur) = false ∧ agentOfName 0 = some c0 ∧ (s.ctxOf c0).phase = .live ∧ s.tenantOf c0 = 3 ∧
      (s.ctxOf c0).rau.kind = 2 ∧ (s.ctxOf (.core 0 0 0 1)).phase ≠ .live ∧ agentOfName 0x1000 = some (.core 0 0 0 1) ∧
      (chan0 { Ep.reset with st := .kr }).eps[(0 : EReg).toNat].st = .kr) := by decide +kernel

set_option maxRecDepth 8000 in
theorem witness_ChannelRegisters :
    (([Ep.reset, { Ep.reset with st := .waiting }, open0 0, { open0 0 with st := .closed }, { open0 0 with st := .delegated },
        { Ep.reset with st := .kr }] : List Ep).map (fun x => ((at0 (chan0 x)).ctx.ep 0).st) =
      [.none, .waiting, .opened, .closed, .delegated, .kr]) ∧ (2 : Word).getLsbD 1 = true ∧ (0 : Word).getLsbD 1 = false ∧
    (let x := open0 0; x.held = none ∧ x.inbox = [] ∧ x.direct = [] ∧ x.deferred = []) ∧
    (let x := { Ep.reset with held := some ⟨0x1000, 0, 0, 3, auto0 0⟩ }; x.st = .none ∧ x.held = some ⟨0x1000, 0, 0, 3, auto0 0⟩) ∧
    (let s := at0 (chan0 { Ep.reset with pend := some .success }); (s.ctx.ep 0).st ≠ .waiting ∧ (clusterField s.cur).isSome = true ∧
      (s.ctx.ep 0).pend = some .success) ∧
    ((chan0 { Ep.reset with pend := some (.reason 5) }).ep 0).pend = some (.reason 5) ∧
    ((chan0 { Ep.reset with pend := some (.dual 0x300) }).ep 0).pend = some (.dual 0x300) ∧
    ((chan0 (open0 0)).ep 0).pend = none ∧ (at0 live0).handle? c0 0 = none ∧
    (let s : State := { owned (chan0 Ep.reset) with units := [(unitKey c0, { Cluster.reset with slots := [(5, ⟨0, 3, auto0 0, false, none⟩)] })] }
     let x := s.ctx.ep 0
     x.st = .none ∧ x.pend = none ∧ (clusterField s.cur).isSome = true ∧ s.handle? s.cur 5 = some (5, auto0 0) ∧
      s.reaches s.cur x.pmod = true ∧ (s.ctx.allocate (auto0 0).resv).isSome = true ∧ x.held = none ∧ s.reaches s.cur 7 = false) ∧
    (at0 live0).ctx.allocate 32 = none := by decide

/-- A delegated end with the automaton of `auto0 1`. -/
def end0 : EpImage := ⟨auto0 1, 0, [0], 4, 0x1000, 0, 3, 1, none, [], none, false, 0, 0, 0, 0x3004, 0⟩

set_option maxRecDepth 8000 in
theorem witness_ChannelOperations :
    (let s := at0 (chan0 (open0 0)); let x := s.ctx.ep 0
     s.eccBad = [] ∧ s.eccOne = [] ∧ x.st = .opened ∧ x.fit (fun d => d.kind = Kind.send) = some 0 ∧
      shapeBytes (x.auto.edge 0).shape = 4 ∧ (match s.payloadAt 0x1000 4 true with
        | .ok flat => some flat
        | .error _ => none) = some (ownTcmAt c0 0x1000) ∧ s.released s.cur = true ∧ x.sent < x.peerLook ∧ x.deferred = [] ∧
      isHart s.cur = false ∧ s.ctx.count ≠ 0 ∧ s.seqBusy s.cur = false ∧ s.ctx.vl ≤ s.ctx.count ∧ 4 ≤ 4 * s.ctx.vl ∧
      x.fit (fun d => d.kind = Kind.send && shapeBytes d.shape ≤ 4) = some 0 ∧
      x.fit (fun d => d.kind = Kind.select && d.label = 5) = none) ∧
    (let x := { open0 0 with sent := 1 }; x.peerLook ≤ x.sent) ∧
    (open0 2).fit (fun d => d.kind = Kind.select && d.label = 0) = some 0 ∧
    (let s := at0 ((chan0 (open0 4)).setEp 1 (open0 1))
     (0 : EReg) ≠ 1 ∧ (s.ctx.ep 1).st = .opened ∧ (s.ctx.ep 0).fit (fun d => d.kind = Kind.dsend) = some 0 ∧
      s.unit.stubs.length < stubCount s.cur ∧ (s.ctx.ep 1).deferred = [] ∧ (s.ctx.ep 0).deferred = [] ∧
      (s.ctx.ep 0).sent < (s.ctx.ep 0).peerLook ∧ s.released s.cur = true) ∧
    (let s := at0 (chan0 { open0 1 with inbox := [msg0] }); let x := s.ctx.ep 0
     x.inbox = msg0 :: [] ∧ x.readPos = 0 ∧ x.fit (fun d => d.kind = Kind.recv) = some 0 ∧ msg0.payload.length = 4 ∧
      x.fit (fun d => d.kind = Kind.recv && shapeBytes d.shape ≤ 4) = some 0 ∧ Memory.wf s.mem = true ∧
      (match s.payloadAt 0x100000 4 false with
        | .ok flat => some flat
        | .error _ => none) = some (scratchAt 0 0 0)) ∧
    (let x := { open0 3 with inbox := [⟨2, 0, 0, [], none⟩] }
     (x.fit (fun d => d.kind = Kind.offer)).isSome = true ∧ x.fit (fun d => d.kind = Kind.offer && d.label = 0) = some 0) ∧
    (let s := at0 (chan0 { open0 5 with inbox := [⟨4, 0, 0, [], some end0⟩] }); let x := s.ctx.ep 0
     x.fit (fun d => d.kind = Kind.drecv) = some 0 ∧ (s.ctx.ep 1).st = .none ∧ (s.ctx.ep 1).held = none ∧ s.freeSlot s.cur = some 0 ∧
      (s.ctx.allocate end0.auto.resv).isSome = true ∧ (s.ctx.ep 0).st ≠ .none) ∧
    (let s := at0 ({ live0 with sizek := 0 } : Ctx); s.ctx.allocate end0.auto.resv = none ∧ s.freeSlot s.cur ≠ none) ∧
    ({ at0 live0 with units := [(unitKey c0, { Cluster.reset with slots := slots64 })] } : State).freeSlot c0 = none ∧
    (let x := { open0 1 with st := .closed, cm := true }; x.st = .closed ∧ x.inbox = [] ∧ x.cm = true) ∧
    (let x := { open0 1 with st := .closed }; x.st = .closed ∧ x.cm = false) ∧ (0x1002 : Word).toNat % 4 ≠ 0 := by decide

/-- A request of context 0.0.0.1 to endpoint 0 of context 0.0.0.0. -/
def req0 : Request := ⟨0x1000, 0, 0, 3, auto0 0⟩

/-- A switch of tenant 3 that has saved context 0.0.0.1, whose endpoint 0 is joined to endpoint 0 of context 0.0.0.0. -/
def saved0 : Switch := { Switch.new 3 100 200 with
  phase := .saved, ctxs := [⟨.core 0 0 0 1, { chan0 { open0 0 with peer := 0 } with phase := .live, tenant := 3 }⟩] }

set_option maxRecDepth 8000 in
theorem witness_ChannelTraffic :
    (let s : State := { owned (chan0 Ep.reset) with mesh := [.request req0] }; let x := (s.ctxOf c0).ep 0
     s.arrives 0 = some (.request req0) ∧ agentOfName req0.dst = some c0 ∧ s.mayReach req0.tenant c0 = true ∧
      req0.dst.extractLsb' 8 4 = 0 ∧ x.gen = req0.dst.extractLsb' 0 8 ∧ (s.ctxOf c0).phase = .live ∧ x.held = none ∧ x.st = .none ∧
      s.mayReach 5 c0 = false) ∧
    (let x := { Ep.reset with st := .waiting, asking := some (false, 0x1000, 0), auto := auto0 1 }
     let s : State := { owned (chan0 x) with mesh := [.request req0] }
     x.st = .waiting ∧ x.asking = some (false, req0.src, 0) ∧ dualFault x.auto req0.auto = none ∧
      ((s.ctxOf c0).allocate x.auto.resv).isSome = true) ∧
    (let x := { Ep.reset with st := .waiting, asking := some (true, 0x1000, 0), auto := auto0 1 }
     let s : State := { owned (chan0 x) with mesh := [.outcome 0 0x1000 0 3 1 .success] }
     s.arrives 0 = some (.outcome 0 0x1000 0 3 1 .success) ∧ x.st = .waiting ∧ x.asking = some (true, 0x1000, 0)) ∧
    (let s : State := { owned (chan0 (open0 1)) with mesh := [.msg 0x1000 0 0 3 0 false msg0] }
     s.arrives 0 = some (.msg 0x1000 0 0 3 0 false msg0) ∧ s.stubOf 0 = none ∧ s.switchedOut 0x1000 0 = false ∧
      s.holder? 0x1000 0 = some (c0, 0) ∧ (open0 1).moving = false ∧ s.holder? 0x2000 0 = none ∧ msg0.ep = none) ∧
    (let x := { open0 1 with freed := 1 }; x.st = .opened ∧ x.freed ≠ 0) ∧
    (let s : State := { owned (chan0 (open0 1)) with mesh := [.credit 0x1000 0 1] }; s.arrives 0 = some (.credit 0x1000 0 1)) ∧
    (let s : State := { owned (chan0 (open0 1)) with mesh := [.close 0x1000 0 1 (some 0) 0 false] }
     s.arrives 0 = some (.close 0x1000 0 1 (some 0) 0 false)) := by decide

set_option maxRecDepth 8000 in
theorem witness_ChannelTraffic_moves :
    (let s : State := { owned (chan0 (open0 1)) with mesh := [.moved 0x1000 0 0x2000 0 false] }
     s.arrives 0 = some (.moved 0x1000 0 0x2000 0 false) ∧ (s.ctxOf c0).ep 0 = open0 1 ∧ (open0 1).moving = false ∧ (open0 1).deferred = [] ∧
      ({ open0 1 with moving := true } : Ep).moving = true) ∧
    (let s : State := { owned ((chan0 (open0 1)).setEp 1 { open0 1 with peer := 0x100 }) with
       mesh := [.msg 0 0x1000 0 3 0 false msg0], switches := [(3, saved0)] }
     s.arrives 0 = some (.msg 0 0x1000 0 3 0 false msg0) ∧ s.stubOf 0x1000 = none ∧ s.switchedOut 0 0x1000 = true ∧
      agentOfName 0 = some c0 ∧ (s.ctxOf c0).ep 0 = open0 1 ∧ (open0 1).gen = (0 : Word).extractLsb' 0 8) ∧
    (let t : Stub := ⟨0, 3, 0x1000, 0, none, 0, 0, none, [], [], false⟩
     let s : State := { owned (chan0 { open0 1 with st := .delegated }) with
       mesh := [.movedStub 0 0x2000 0], units := [(unitKey c0, { Cluster.reset with stubs := [t] })] }
     s.arrives 0 = some (.movedStub 0 0x2000 0) ∧ s.stubOf 0 = some (c0, t) ∧ t.items = [] ∧ t.name = 0) ∧
    (let x := { open0 1 with moving := true, direct := [.msg 1 msg0] }
     let s : State := { owned (chan0 x) with mesh := [.release 0x1000 0 true] }
     s.arrives 0 = some (.release 0x1000 0 true) ∧ s.stubOf 0 = none ∧ x.moving = true ∧ x.direct = [.msg 1 msg0] ∧
      (s.ctxOf c0).phase = .live ∧
      s.switches.any (fun p => p.2.ctxs.any (fun k => k.ag = c0)) = false ∧ ({ x with direct := [] } : Ep).direct = []) := by decide

/-- Domain 0 of tenant 3, with signal 0 of kind ADD and the others PURE. -/
def dom0 : Domain := ⟨3, 0, none, 1, (Vector.replicate 64 0).set 0 3, Vector.replicate 64 .unknown, Vector.replicate 64 0, 0, 0, .none, 1024, true, false⟩

/-- A context of tenant 3 in domain 0. -/
def in0 : Ctx := { wide0 with dom := (Vector.replicate 4 ⟨false, 0⟩).set 0 ⟨true, 0⟩ }

/-- A machine with that domain. -/
def instant0 (c : Ctx) (k : Domain) : State := { owned c with domains := [(0, k)] }

set_option maxRecDepth 8000 in
theorem witness_NoemitWithdrawsAnEmission : (1 : BitVec 4) ≠ 0 ∧ (at0 live0).ctx.innermost = none ∧
    (let s := instant0 in0 dom0
     s.ctx.innermost.isSome = true ∧ (s.core.journal.any (fun p => p.2.ctx = s.cur && p.2.unacked) || s.core.seq.any (fun q => q.ctx = s.cur)) = false ∧
      s.ctx.live.getLsbD 63 = false) ∧
    (let s : State := { instant0 { in0 with live := 1 } dom0 with cores := [(coreKey c0, { Core.reset with journal := [(0, entry0 .posted)] })] }
     s.core.journal.any (fun p => p.2.ctx = s.cur && p.2.unacked) = true ∧ s.ctx.live.getLsbD 0 = true) := by decide

set_option maxRecDepth 8000 in
theorem witness_SignalsAndDelayRegisters : ((at0 live0).ctx.innermost = none ∧ (at0 live0).ctx.lact = false) ∧
    (let s := instant0 { in0 with live := 1 } dom0
     s.ctx.innermost = some 0 ∧ s.domain? 0 = some dom0 ∧ s.ctx.live.getLsbD 0 = true ∧ s.released s.cur = true ∧
      s.ctx.live.getLsbD 63 = false ∧ s.ctx.lact = false ∧ dom0.status[(0 : BitVec 6).toNat] = .unknown ∧
      (s.memberCtxs 0).any (fun c => c.live.getLsbD 0) = true ∧ (s.memberCtxs 0).any (fun c => c.live.getLsbD 63) = false ∧
      (s.seqBusy s.cur || s.ctx.vloop.isSome || s.matrixBusy s.cur || s.unacked s.cur) = false ∧ (∀ n < 64, s.tileEntry s.cur n = none)) ∧
    (let k := { dom0 with status := (Vector.replicate 64 SigStatus.absent).set 0 SigStatus.present }
     k.status[(0 : BitVec 6).toNat] = .present ∧ k.status[(63 : BitVec 6).toNat] = .absent) ∧
    (let s : State := { instant0 in0 dom0 with cores := [(coreKey c0, { Core.reset with journal := [(0, entry0 .posted)] })] }
     s.unacked s.cur = true) ∧
    (let s := (owned (live0.setX 2 0x1000)).storeWord (ownTcmAt c0 0x1000) 0x08000000; let ws := s.wordsAt (ownTcmAt c0 0x1000) 12
     (s.ctx.getX 2).toNat % 4 = 0 ∧ tcmOrScratch s.cur 0x1000 48 = some (ownTcmAt c0 0x1000) ∧ descOk ws = true ∧
      s.parentOk (s.tenantOf s.cur) ((ws[0]?).getD 0).toNat = true ∧ s.freeDomain (s.tenantOf s.cur) = some 0 ∧
      s.parentOk 3 0x08800001 = false ∧ descOk (s.wordsAt (ownTcmAt c0 0) 12) = false ∧ (at0 live0).freeDomain 0 = none) ∧
    (let s := instant0 wide0 dom0
     s.domain? 0 = some dom0 ∧ dom0.tenant = s.tenantOf s.cur ∧ s.memberCtxs 0 = [] ∧ s.children 0 = [] ∧ s.launches = [] ∧
      s.domain? 1 = none ∧ (instant0 in0 dom0).memberCtxs 0 ≠ []) ∧
    (let l : Launch := ⟨48, List.replicate 13 0 ++ [0x80000000], 1, none, [], false, false, none, false, 0, [], [], [], 0, 0, 0, 0, none, false, 0, 0, [], none⟩
     ∃ y ∈ [l], ((y.recWords[13]?).getD 0).getLsbD 31 = true ∧ ((y.recWords[13]?).getD 0).toNat % 1024 = 0) := by decide

set_option maxRecDepth 8000 in
theorem witness_InstantsAndTheirEvents :
    (let s := instant0 in0 dom0
     s.domain? (0 : BitVec 10).toNat = some dom0 ∧ dom0.status[(63 : BitVec 6).toNat] = .unknown ∧
      (∀ c ∈ s.memberCtxs 0, c.live.getLsbD 63 = false) ∧ (∃ c ∈ s.memberCtxs 0, s.running 0 c = true) ∧ s.instantDone 0 = false) ∧
    (let s := instant0 { in0 with wait := .signal 5 false, live := 0x20 } dom0
     (∀ c ∈ s.memberCtxs 0, s.running 0 c = false) ∧ (s.ctxOf c0).memberOf 0 = true ∧ s.waitsOnSignal 0 (s.ctxOf c0) = some 5) ∧
    (let s := instant0 { in0 with pause := .paused } dom0
     s.instantDone 0 = true ∧ dom0.level = 0 ∧ dom0.parent = none ∧ (s.ctxOf c0).memberOf 0 = true) ∧
    (let s := instant0 in0 dom0
     dom0.wdog ≠ 0 ∧ dom0.wdog.toNat * 1024 ≤ dom0.wdCount ∧ (s.ctxOf c0).memberOf 0 = true ∧ (s.ctxOf c0).pause = .no ∧
      (s.ctxOf c0).intrap = false ∧ (s.ctxOf c0).phase = .live) ∧
    (let s := instant0 wide0 dom0; let v : Word := 0x80000000
     (∀ n : Fin 4, (s.ctx.dom[n]).v = false) ∧ v.getLsbD 31 = true ∧ s.ctx.prv = false ∧ (instant0 { wide0 with prv := true } dom0).ctx.prv = true ∧
      dom0.level = 0 ∧ ({ dom0 with pausedInParent := true } : Domain).pausedInParent = true ∧ dom0.pausedInParent = false ∧
      ({ instant0 { wide0 with prv := true } dom0 with ctxs := [(c0, { wide0 with prv := true, tenant := 3 }),
        (.core 0 0 0 1, { in0 with pause := .paused })] } : State).instantDone 0 = true ∧ v.extractLsb' 0 10 = 0 ∧ dom0.tenant = s.tenantOf s.cur ∧
      s.instantDone 0 = false ∧ s.domain? ((0x800003FF : Word).extractLsb' 0 10).toNat = none) := by decide

/-- The machine of a context with an event unit. -/
def events0 (c : Ctx) (u : Cluster) : State := { owned c with units := [(unitKey c0, u)] }

set_option maxRecDepth 8000 in
theorem witness_EventUnitOperations :
    (let s := events0 wide0 .reset
     s.eccBad = [] ∧ s.eccOne = [] ∧ s.cur = .core 0 0 0 0 ∧ (0x100001 : Word).toNat % 4 ≠ 0 ∧ place s.cur 0x1000 = .ownTcm 0x1000 ∧
      place s.cur 0x100000 = .scratch (scratchAt 0 0 0) ∧ s.wordAt (scratchAt 0 0 0) = 0 ∧ s.wordAt (scratchAt 0 0 0) ≠ 1) ∧
    (let s := events0 { wide0 with wait := .monitor } .reset; (s.ctxOf c0).wait = .monitor) ∧
    ((0x1F : Word).extractLsb' 5 12 = 0 ∧ agentOfName 0x1F = some (.core 0 0 0 0) ∧ (events0 wide0 .reset).released c0 = true ∧
      (journal0 [(0, entry0 .posted)]).released c0 = false ∧ (0x20 : Word).extractLsb' 5 12 ≠ 0) ∧
    (let s : State := { events0 wide0 .reset with mesh := [.ring c0 c0 31 3] }
     s.mesh[0]? = some (.ring c0 c0 31 3) ∧ ringFirst (s.mesh.take 0) c0 c0 31 = true ∧ s.bellTenant c0 = some 3) ∧
    (let s := events0 wide0 { Cluster.reset with bells := [(31, ⟨1, []⟩)] }
     (bellOf s.unit 31).count ≠ 0 ∧ (bellOf s.unit 31).waiters = [] ∧ (bellOf s.unit 0).count = 0 ∧ (bellOf s.unit 0).waiters = []) ∧
    (let s := events0 wide0 { Cluster.reset with barriers := [(15, ⟨0, 1⟩), (14, ⟨0, 2⟩)] }
     (barOf s.unit 15).count ≠ 0 ∧ s.ctx.arrival = none ∧ s.released s.cur = true ∧ Memory.wf s.mem = true ∧
      (barOf s.unit 15).count ≤ (s.wordAt (scratchAt 0 0 0)).toNat % 65536 + 1 ∧
      (s.wordAt (scratchAt 0 0 0)).toNat % 65536 + 1 < (barOf s.unit 14).count) ∧
    (let s := (events0 { wide0 with arrival := some (15, 0, 0), wait := .event } { Cluster.reset with barriers := [(15, ⟨0, 2⟩)] }).storeWord
       (scratchAt 0 0 0) 0x00010000
     unitKey c0 = unitKey s.cur ∧ (s.ctxOf c0).arrival = some (15, 0, 0) ∧ 0 ≠ (s.wordAt (scratchAt 0 0 0)).toNat / 65536 ∧
      (s.ctxOf c0).wait = .event) ∧
    (let s := events0 wide0 { Cluster.reset with mutexes := [(1, ⟨some c0, [], false⟩), (2, ⟨some (.core 0 0 0 1), [], false⟩), (15, ⟨some c0, [.core 0 0 0 1], false⟩)] }
     (mutexOf s.unit 0).owner = none ∧ (mutexOf s.unit 1).owner = some s.cur ∧ s.ctx.wait ≠ .event ∧
      (mutexOf s.unit 2).owner = some (.core 0 0 0 1) ∧ AgentId.core 0 0 0 1 ≠ s.cur ∧ s.cur ∉ (mutexOf s.unit 2).queue ∧
      (mutexOf s.unit 0).owner ≠ some s.cur ∧ s.released s.cur = true ∧ (mutexOf s.unit 1).queue = [] ∧
      (mutexOf s.unit 15).queue = .core 0 0 0 1 :: []) := by decide

set_option maxRecDepth 8000 in
theorem witness_EventUnitOperations_handed :
    (let s := events0 { wide0 with arrival := some (15, 0, 0), barrierFree := true, wait := .event } { Cluster.reset with
       barriers := [(15, ⟨0, 2⟩)], mutexes := [(3, ⟨some c0, [], true⟩)] }
     (s.ctxOf c0).arrival = some (15, 0, 0) ∧ (s.ctxOf c0).barrierFree = true ∧ (barOf s.unit 15).count ≠ 0 ∧
      (events0 { wide0 with arrival := some (15, 0, 0) } .reset).ctx.barrierFree = false ∧ s.wordAt (scratchAt 0 0 0) = 0 ∧
      (mutexOf s.unit 3).owner = some s.cur ∧ (mutexOf s.unit 3).handed = true) := by decide

set_option maxRecDepth 8000 in
theorem witness_DebugInstructionsAndPort :
    (let s := owned { wide0 with kinds := 8, trigon := 1 }
     s.cur = .core 0 0 0 0 ∧ s.ctx.kinds.getLsbD 3 = true ∧ s.core.frozen = false ∧ s.ctx.trigon.getLsbD 0 = true ∧ s.core.trigd = false) ∧
    ((at0 live0).ctx.kinds.getLsbD 3 = false ∧ (at0 live0).ctx.trigon.getLsbD 0 = false ∧ (at0 live0).ctx.prv = false ∧
      (at0 kern0).ctx.prv = true) ∧ (2 : Word).toNat % 4 ≠ 0 ∧
    (let s := at0 kern0; let flat := ownTcmAt c0 0
     s.eccBad = [] ∧ s.eccOne = [] ∧ (s.ctx.getX 0).toNat % 4 = 0 ∧ tcmOrScratch s.cur 0 16 = some flat ∧ (s.wordAt (flat + 12)).toNat < 16 ∧
      (s.wordAt (flat + 12)).getLsbD 3 = false ∧ (∀ n < 64, s.tileEntry s.cur n = none) ∧ s.ctx.out = 0 ∧
      place s.cur (0x1003F / 64 * 64) = .ownTcm 0x10000 ∧ place s.cur (0x100040 / 64 * 64) = .scratch (scratchAt 0 0 0x40) ∧
      place s.cur 0x40000000 = .shared ∧ place s.cur 0x20000 = .unmapped ∧ Memory.wf s.mem = true) ∧
    (let s := ((at0 kern0).storeWord (ownTcmAt c0 12) 16); 16 ≤ (s.wordAt (ownTcmAt c0 12)).toNat) ∧
    (at0 { kern0 with out := 1 }).ctx.out ≠ 0 ∧
    (at0 live0).debugTarget 655359 = none ∧ (owned wide0).debugTarget 0 = some c0 ∧ ((owned wide0).ctxOf c0).debugHalted = false ∧
    ((owned { wide0 with halted := true }).ctxOf c0).debugHalted = true ∧ 32 ≤ (32 : BitVec 12).toNat ∧ (31 : BitVec 12).toNat < 32 ∧
    ((owned wide0).ctxOf c0).phase = .live ∧ (0x04 : BitVec 8) ∉ ([0x01, 0x02, 0x03, 0x10] : List (BitVec 8)) := by decide

/-- A host queue in use. -/
def queue0 : HostQueue := ⟨0, .inUse, [], [], 0, 0, 0, 0, 0, [], Vector.replicate 8 0, [], none, 0, false, 0, 0, 0x100000, 0, 0, 0, 0⟩

/-- The machine of tenant 3 with queue 48. -/
def host0 (h : HostQueue) : State := { owned wide0 with queues := [(48, h)] }

/-- A queue whose next submission entry has the given words. -/
def submit0 (ws : List Word) : HostQueue :=
  { queue0 with entries := ws.zipIdx.map (fun p => (p.2, p.1)), sqTail := 1, doorbells := [.sq 1 0] }

/-- A queue with an active message to context 0.0.0.`x`. -/
def message0 (w0 w1 : Word) : HostQueue := { queue0 with doorbells := [.am 7 [w0, w1, 1, 2] 9] }

/-- The machine with queue 48 and agent memory core 0.0 of tenant 3, whose first pages are in row 0 for every access, by a table entry
at 0x8000 and a leaf at 0x9000 (12 R355). -/
def loaded0 (h : HostQueue) (c : Ctx) : State :=
  { host0 h with
    partitions := [(3, { part0 with agents := [.memoryCore 0 0], root := 0x8000 })]
    ctxs := [(c0, live0), (.memoryCore 0 0, c)]
    mem := ((host0 h).storeWord (paAt 0x8000) 0x9001 |>.storeWord (paAt 0x9000) 0x1F).mem }

/-- A program image of one text section of 8 bytes at offset 32 (02 R33): four header words, and one table entry. -/
def text0 : List Word := [0x4E530001, 0x00000101, 0, 0, 0x00000000, 8, 0, 32, 0xB806B806, 0xB806B806]

/-- A machine with that image at a virtual address, its pages in row 0. -/
def placed0 (va : Nat) (s : State) : State := text0.zipIdx.foldl (fun s p => s.storeWord (vaAt (va + 4 * p.2) 0) p.1) s

/-- The machine with the image at 0x1FFFF0, its header in one page and its table in the next. -/
def imaged0 (h : HostQueue) : State := placed0 0x1FFFF0 (loaded0 h Ctx.reset)

/-- The machine with the image at 0x1000, whose translation is held in the memory core where no partition entry is. -/
def cached0 (h : HostQueue) : State := placed0 0x1000 { loaded0 h Ctx.reset with
  partitions := [], harts := [(.memoryCore 0 0, { HartRegs.reset with tcache := [(3, 0, 0, 7)] })] }

/-- A launch record of one team of one member (02 R37), for the image at 0x1FFFF0, with its completion record at 0x40. -/
def record0 : List Word := [0x01000000, 1, 7, 0x1FFFF0, 0, 0, 0, 0x40, 0, 0, 0, 0, 0, 0, 0, 1]

set_option maxRecDepth 8000 in
theorem witness_QueuesAndTheirCommands :
    (let s := owned wide0
     lookup? s.queues 48 = none ∧ lookup? s.partitions (48 / 16) = some part0 ∧ 48 ∈ part0.queues ∧
      s.queues.countP (fun x => x.2.svc = 63 && x.2.life ≠ .torn) < 16) ∧
    (let s := host0 queue0
     lookup? s.queues 48 = some queue0 ∧ queue0.life = .inUse ∧ s.bootStage = 6 ∧ ((64 : BitVec 16) - queue0.sqHead).toNat ≤ 64 ∧
      64 < ((65 : BitVec 16) - queue0.sqHead).toNat ∧ queue0.amStatus[(7 : BitVec 3).toNat] ≠ 1 ∧
      ({ queue0 with amStatus := Vector.replicate 8 1 } : HostQueue).amStatus[(0 : BitVec 3).toNat] = 1) ∧
    (let h := message0 0x1000 0; let s : State := { host0 h with ctxs := [] }
     h.svc = 0 ∧ s.firstBell 0 = some 9 ∧ h.pending = .am 7 [0x1000, 0, 1, 2] 9 :: [] ∧ (0 : Word).getLsbD 0 = false ∧
      (0x1000 : Word).toNat % 4096 = 0 ∧ 0 * 4 + quadrant 0 = 0 ∧ s.clusterTenant 0 0 = some (48 / 16) ∧ s.heldAlone 0 0 = false ∧
      s.holdsSaved (.core 0 0 0 1) = false ∧ (s.ctxOf (.core 0 0 0 1)).phase = .idle) ∧
    ({ host0 queue0 with switches := [(3, { Switch.new 3 100 200 with phase := .saved, ctxs := [⟨.core 0 0 0 1, live0⟩] })] } : State).holdsSaved
      (.core 0 0 0 1) = true ∧
    ((host0 (message0 0 0)).ctxOf c0).phase = .live ∧ (1 : Word).getLsbD 0 = true ∧ 1280 ≤ (0x0A000000 : Word).toNat / 2 ^ 17 % 2048 ∧
    (let e : List Word := [0x04000000, 0, 0, 0, 0, 0, 0, 0]; let s := host0 (submit0 e)
     s.nextEntry 48 = some e ∧ badEntry e = true ∧ badEntry [0x02000000, 0, 0, 0, 0, 0, 1, 0] = true ∧
      badEntry [0x03000000, 0, 0, 0x00200001, 0, 0, 0, 0] = true ∧ badEntry [0x03000000, 0, 0, 1, 0, 0, 0, 0] = true) ∧
    (let e : List Word := [0x01000000, 0, 0, 0, 0, 0, 0, 0]
     let s := record0.zipIdx.foldl (fun s p => s.storeWord (vaAt 0 0 + 4 * p.2) p.1) (loaded0 (submit0 e) Ctx.reset)
     s.nextEntry 48 = some e ∧ badEntry e = false ∧ (s.readWordsVa 3 0 16).2 = some record0 ∧ ((record0[7]?).getD 0).toNat % 32 = 0 ∧
      (s.readWordsVa 3 0 16).1.launch? 48 7 = none ∧ recordMalformed (fun n => ((record0[n]?).getD 0).toNat) = false ∧
      recordMalformed (fun _ => 0) = true) ∧
    (let e : List Word := [0x02000000, 0, 0, 0, 0x00000800, 0, 0, 0]; let s := host0 (submit0 e)
     badEntry e = false ∧ s.badDevice 48 e = false) := by decide +kernel

set_option maxRecDepth 8000 in
theorem witness_QueuesAndTheirCommands_loaders :
    (let e : List Word := [0x03000000, 0x1000, 0, 0, 0, 5, 0, 0]; let a := AgentId.memoryCore 0 0
     badEntry e = false ∧ (host0 (submit0 e)).badAgent 48 a = true ∧
      (let h := { queue0 with starting := some (a, e) }; let s := cached0 h
       h.life = .inUse ∧ s.bootStage = 6 ∧ h.starting = some (a, e) ∧ s.loaderOf a = none ∧
        (((s.parkEnds a 6).updQueue 48 (fun k => { k with starting := none })).loadLoader 48 a e).2 = true ∧
        ((((loaded0 h Ctx.reset).parkEnds a 6).updQueue 48 (fun k => { k with starting := none })).loadLoader 48 a e).2 = false) ∧
      (let s := loaded0 (submit0 e) { live0 with origin := .loader 48 }
       s.nextEntry 48 = some e ∧ s.badAgent 48 a = false ∧ (s.loaderOf a).isSome = true ∧ (s.ctxOf a).vloop = none ∧
        (s.ctxOf a).pend = .none ∧ (s.ctxOf a).retiring = none) ∧
      (let s := imaged0 (submit0 e)
       s.nextEntry 48 = some e ∧ s.badAgent 48 a = false ∧ s.loaderOf a = none)) ∧
    (let e : List Word := [0x03000000, 0, 0, 0x00200000, 0, 0, 0, 0]; let s := loaded0 (submit0 e) { live0 with origin := .loader 48 }
     badEntry e = false ∧ s.nextEntry 48 = some e ∧ s.loaderOf (.memoryCore 0 0) = some 48 ∧
      (loaded0 (submit0 e) live0).loaderOf (.memoryCore 0 0) ≠ some 48) := by decide +kernel

/-- A launch held by the global dispatcher. -/
def launch0 (ws : List Word) : Launch := ⟨48, ws, 1, none, [], false, false, none, false, 0, [], [], [], 0, 0, 0, 0, none, false, 0, 0, [], none⟩

/-- The machine with a launch. -/
def launched (l : Launch) : State := { imaged0 queue0 with launches := [l] }

/-- A site of one seat in cluster 0.0, and a team there. -/
def site0 : Site := ⟨0, 0, [⟨c0, 0, 1, 0, 0⟩], 0, 0⟩
def team0 (p : TeamPhase) : Team := ⟨0, site0, none, p, [], false, false⟩

/-- A template launch of stack 0 slice 0, capacity 2. -/
def device0 : DeviceQueue := ⟨0, 0, 0, 2, 5, none, false, 0, none, none⟩

set_option maxRecDepth 8000 in
theorem witness_DispatchPlacementAndCompletion :
    (let l := launch0 record0; let s := launched l
     s.launch? 48 7 = some l ∧ l.status = none ∧ l.eligible = false ∧ l.needs = [] ∧ l.depFailed = false ∧ s.tooLarge l = false ∧
      ({ l with needs := [0] } : Launch).needs ≠ []) ∧
    (let l := launch0 [0x01000000, 1, 7, 0x1000, 0, 0, 0, 0x40, 0, 0, 0, 0, 0, 0, 0, 125]; (launched l).tooLarge l = true) ∧
    (let l := { launch0 record0 with depFailed := true }; (launched l).launch? 48 7 = some l ∧ l.depFailed = true) ∧
    ((launched (launch0 record0)).clustersOf 3 0 ≠ [] ∧ lookup? (launched (launch0 record0)).ads (0, 3) = none) ∧
    (let l := { launch0 record0 with eligible := true }; let s : State := { launched l with ads := [((0, 3), ⟨8, 4, 0, (8, 4), false⟩)] }
     s.lastBatch = none ∧ (∀ k ∈ s.launches, k.waiting = true → k.reserved = []) ∧ s.pickLaunch = some l ∧ l.dv = false ∧ s.bestStack l = some 0 ∧
      min 64 (min (l.total - l.nextTeam) ((s.advert 0 l.tenant).1 / l.size)) = 1 ∧ (s.stackQueue 0).length + 1 ≤ 256) ∧
    (let l := { launch0 record0 with eligible := true, nextTeam := 1 }; let w : Queued := ⟨48, 7, 0, 0, 0, none⟩
     let s : State := { launched l with ctxs := [], stackQueues := [(0, [w])] }
     (({ s with stackQueues := assign s.stackQueues 0 (sortQueued (s.stackQueue 0)) }.placeable 0 (sortQueued (s.stackQueue 0))).map
       (fun (p : Queued × Launch × Site) => (p.1, p.2.1, p.2.2.seats.length))) = some (w, l, 1)) ∧
    (let l := { launch0 record0 with teams := [team0 .loading] }; let s := launched l
     l.team? 0 = some (team0 .loading) ∧ (s.readTeam l).2.isSome = true ∧
      (({ s with mem := [] } : State).readTeam l).2 = none ∧ s.finalStatus l = none) ∧
    (let l := { launch0 record0 with status := some ⟨2, 2⟩ }; let s := launched l
     s.finalStatus l = some ⟨2, 2⟩ ∧ l.dq = none ∧ (s.vaFlat l.tenant l.record .write).2.isSome = true) ∧
    ({ launched (launch0 record0) with lastBatch := some 0 } : State).time.toNat < 0 + 32 := by decide +kernel

set_option maxRecDepth 8000 in
theorem witness_DispatchPlacementAndCompletion_more :
    (let f := { Func.reset with msixEnable := true, vecPend := 0x80000000 }
     (f.msixEnable && !f.msixMask && f.vecPend.getLsbD 31) = true) ∧
    (let l := { launch0 record0 with dq := some device0, eligible := true }; let s := launched l
     l.status = none ∧ device0.final = none ∧ device0.lost = false ∧ device0.producer = none ∧
      ({ device0 with producer := some 1 } : DeviceQueue).producer ≠ none ∧ ({ device0 with lost := true } : DeviceQueue).lost = true ∧ s.wordAt (sliceAt 0 0 4) = 0 ∧ s.eccBad = [] ∧
      s.wordAt (sliceAt 0 0 64) = 0 ∧ device0.started < l.count ∧
      (let u := s.storeWord (sliceAt 0 0 64) 0x02000001
       u.wordAt (sliceAt 0 0 64) ≠ 0 ∧ raggedMalformed (wordsOf 8 (u.bytesAt (sliceAt 0 0 64) 32)) = false) ∧
      (let u := s.storeWord (sliceAt 0 0 64) 1
       u.wordAt (sliceAt 0 0 64) ≠ 0 ∧ raggedMalformed (wordsOf 8 (u.bytesAt (sliceAt 0 0 64) 32)) = true)) ∧
    (let l := { launch0 [0x01000000, 2, 7, 0x1000, 0, 0, 0, 0x40, 0, 0, 0, 0, 0, 0, 1, 1] with teams := [team0 .running], firstPlaced := some 0 }
     let s : State := { launched l with time := 1100 }
     l.firstPlaced = some 0 ∧ l.dv = false ∧ l.swapAsked = false ∧ l.status = none ∧ 0 + l.quantum ≤ 1100 ∧
      l.teams.length < l.total ∧ s.bestStack l = none ∧ ∃ w ∈ l.teams, w.phase ≠ .retired) ∧
    (let l := { launch0 [0x01000000, 2, 7, 0x1000, 0, 0, 0, 0x40, 0, 0, 0, 0, 0, 0, 1, 1] with
       teams := [team0 .running], firstPlaced := some 0, swapAsked := true, sites := [site0] }
     let s : State := { launched l with time := 1100, ctxs := [(c0, { live0 with tenant := 3, origin := .member 48 7 0 0 })] }
     l.sites = [site0] ∧ s.frozen l.tenant = false ∧ l.swapStart + (l.swapN + 1) * l.quantum ≤ 1100 ∧
      l.residentAt site0 = some (team0 .running) ∧ 1 < (l.siteTeams 0).length ∧
      (lookup? s.partitions l.tenant).isSome = true ∧ s.poolUsed l.tenant + s.teamArea l (team0 .running) ≤ 0x200000 ∧
      (∀ a ∈ s.teamCtxs 48 7 0, (s.ctxOf a).innermost = none) ∧ s.switches = []) := by decide +kernel

/-- At TIME 1100 a quantum of 1,100 cycles has passed by the global dispatcher's copy; at TIME 0 one of 5 has not (01 R21). -/
theorem witness_DispatchPlacementAndCompletion_clock : 1100 ≤ ({ launched (launch0 record0) with time := 1100 } : State).globalClock.toNat ∧
    State.reset.globalClock.toNat < 5 := by
  have h := clock_bounds State.reset 300016 (by decide)
  have k := clock_bounds ({ launched (launch0 record0) with time := 1100 } : State) 300016 (by decide)
  have e : State.reset.time.toNat = 0 := by decide
  have e' : ({ launched (launch0 record0) with time := 1100 } : State).time.toNat = 1100 := rfl
  rw [e] at h; rw [e'] at k
  exact ⟨k.1, by show (State.reset.clock 300016).toNat < 5; omega⟩

/-- A partition switch of tenant 3 in a phase. -/
def switch0 (p : SwitchPhase) : Switch := { Switch.new 3 100 200 with phase := p }

set_option maxRecDepth 8000 in
theorem witness_SwitchesTeardownsAndPartitions :
    (let s := owned wide0
     lookup? s.partitions 3 = some part0 ∧ lookup? s.switches 3 = none ∧ (5 : BitVec 64) ≠ BitVec.allOnes 64 ∧ (s.ctxOf c0).phase = .live ∧
      s.clusterTenant 0 0 = some 3) ∧
    (let w := { switch0 .scheduled with stop := 0 }; let s : State := { owned wide0 with switches := [(3, w)] }
     lookup? s.switches 3 = some w ∧ w.phase = .scheduled ∧ w.stop ≤ s.time.toNat ∧ (s.stopSet w).setSettled w = true ∧ s.setCtxs w = [c0] ∧
      (let u : State := { s with accs := [acc0 .ack] }; (u.stopSet w).setSettled w = false)) ∧
    (let w := switch0 .settled; let s : State := { owned { wide0 with stopped := true } with switches := [(3, w)] }
     w.phase = .settled ∧ w.team = none ∧ (∀ a ∈ s.setCtxs w, s.memberSettled w a = true) ∧ s.setCtxs w = [c0]) ∧
    (let w := switch0 .saved; let s : State := { owned Ctx.reset with switches := [(3, w)] }
     w.phase = .saved ∧ w.due = true ∧ w.team = none ∧ s.vacantFor w = true ∧ s.hasRoom w = true ∧ s.areasIntact w = true ∧
      w.ctxs.Pairwise (fun x y => x.ag ≠ y.ag) ∧ s.vacantFor { w with team := some (48, 7, 0) } = false) ∧
    (let w := { switch0 .saved with areas := [(0, [1])] }; ({ owned Ctx.reset with switches := [(3, w)] } : State).areasIntact w = false) ∧
    (let w := { switch0 .restored with resume := 0 }; let s : State := { owned { wide0 with stopped := true } with switches := [(3, w)] }
     lookup? s.switches 3 = some w ∧ w.phase = .restored ∧ s.setCtxs w = [c0] ∧ s.notYet w c0 = false) ∧
    (let s := owned { wide0 with retiring := some (.fatal 0x42) }
     (s.ctxOf c0).retiring = some (.fatal 0x42) ∧ ((({ s with cur := c0 } : State).cancelMatrix c0).startFlush c0).quiet c0 = true ∧
      (let u : State := { s with cores := [(coreKey c0, { Core.reset with journal := [(0, ⟨c0, 0, 0, 15, 0, false, .posted, false, 1, 0⟩)] })] }
       ((({ u with cur := c0 } : State).cancelMatrix c0).startFlush c0).quiet c0 = false)) ∧
    (let s := host0 queue0; lookup? s.queues 48 = some queue0 ∧ s.tearBusy = false ∧ queue0.life = .inUse) ∧
    (let h := { queue0 with life := .tearing 0 }; let s := host0 h
     s.tearBusy = true ∧ h.life = .tearing 0 ∧ ({ s with time := 4095 } : State).time.toNat < 0 + 4096 ∧
      0 + 4096 ≤ ({ s with time := 4096 } : State).time.toNat ∧ s.queueCtxs 48 = [] ∧ s.launches = [] ∧ s.switches = []) ∧
    (let s : State := { owned Ctx.reset with bootStage := 6 }; let p : Partition := { part0 with domBase := 4, rows := [(0, 1)] }
     s.partitions.any (fun x => x.1 ≠ 5 && partMeets x.2 { part0 with queues := [] }) = true ∧ s.bootStage = 6 ∧ partValid p 3 = true ∧ s.loaderBound 3 p = true ∧
      s.partitions.any (fun x => x.1 ≠ 3 && partMeets x.2 p) = false ∧ (∀ r ∈ p.rows, s.rowBusy r = false) ∧
      (∀ r ∈ (s.partOf 3).rows, s.rowBusy r = false) ∧ s.areasOf 3 = []) := by decide +kernel

/-- Before the stop time, and before the resume time, of a switch by the core's own copy of TIME, at most 4 ahead (01 R21). -/
theorem witness_SwitchesTeardownsAndPartitions_clock :
    (let s : State := { owned { wide0 with stopped := true } with switches := [(3, switch0 .scheduled)] }
     s.time.toNat < (switch0 .scheduled).stop ∧ (∀ a ∈ s.setCtxs (switch0 .scheduled), (s.coreClock a).toNat < (switch0 .scheduled).stop)) ∧
    (let s : State := { owned { wide0 with stopped := true } with switches := [(3, switch0 .restored)] }
     c0 ∈ s.setCtxs (switch0 .restored) ∧ s.notYet (switch0 .restored) c0 = true) := by
  have k (u : State) (hu : u.time = 0) (a : AgentId) : (u.coreClock a).toNat ≤ 4 := by
    have e : u.time.toNat = 0 := by rw [hu]; rfl
    have h (n : Nat) := (clock_bounds u n (by omega)).2
    rw [e] at h
    cases a <;> exact h _
  refine ⟨⟨by decide, fun a _ => Nat.lt_of_le_of_lt (k _ rfl a) (by decide)⟩, by decide +kernel, ?_⟩
  have := k { owned { wide0 with stopped := true } with switches := [(3, switch0 .restored)] } rfl c0
  simp only [State.notYet, Bool.and_eq_true, decide_eq_true_eq]
  exact ⟨by decide +kernel, Nat.lt_of_le_of_lt this (by decide)⟩

/-- The machine of tenant 3 with port 0 as given. -/
def port0 (p : Port) : State := { owned wide0 with ports := [(0, p)] }

set_option maxRecDepth 8000 in
theorem witness_BoardHostAndLinks :
    (Func.reset.req = false ∧ ({ Func.reset with req := true } : Func).req = true) ∧
    (bar2Home 0 = some (0, 0, 0) ∧ (State.reset.bootStage ≠ 6) ∧ (let s := owned wide0; s.bootStage = 6 ∧ s.sliceTenant 0 0 0 = some 3 ∧
      s.sliceTenant 0 0 0 ≠ some 5 ∧ s.eccBad = [])) ∧
    (let s := loaded0 queue0 Ctx.reset
     s.bootStage = 6 ∧ (s.vaFlat 3 0x1FFFFC .read).2.isSome = true ∧ (s.vaFlat 3 0x1FFFFC .read).1.hasBad (vaAt 0x1FFFFC 0) 4 = false ∧
      (s.vaFlat 3 0x1FFFFC .read).1.rowTenant (vaAt 0x1FFFFC 0) ≠ some 3 ∧
      ({ s with harts := [(.memoryCore 0 0, { HartRegs.reset with owners := [(0, 3)] })] } : State).rowTenant (vaAt 0x1FFFFC 0) = some 3) ∧
    (let s : State := { owned wide0 with hostWrites := [⟨3, 2, 0, 4, 9⟩] }
     s.hostWrites[0]? = some ⟨3, 2, 0, 4, 9⟩ ∧ (∀ y ∈ s.hostWrites, y.func ≠ 4)) := by decide +kernel

set_option maxRecDepth 8000 in
theorem witness_BoardHostAndLinks_ports :
    (let p := { Port.reset with state := .up }
     p.state = .up ∧ flitOk (List.replicate 256 1) = false ∧ flitOk (bareFlit 0 p.expect 5) = true ∧ flitType (bareFlit 0 p.expect 5) = 0 ∧
      flitSeq (bareFlit 0 p.expect 5) = p.expect ∧
      flitSeq (bareFlit 0 (p.expect - 1) 5) ≠ p.expect ∧ (p.expect - flitSeq (bareFlit 0 (p.expect - 1) 5)).toNat < 2048 ∧
      flitOk (bareFlit 0 (p.expect - 1) 5) = true ∧ (port0 p).time.toNat < p.ackAt + 11000 ∧
      p.ackAt + 11000 ≤ ({ port0 p with time := 11000 } : State).time.toNat) ∧
    (let p := { Port.reset with state := .up, replay := [(0, [], 2)] }; p.replay = [(0, [], 2)] ∧ 2 < 3) ∧
    (let p := { Port.reset with state := .retraining }
     p.state = .retraining ∧ (port0 p).time.toNat < p.retrainAt + 1100000 ∧
      p.retrainAt + 1100000 ≤ ({ port0 p with time := 1100000 } : State).time.toNat) ∧
    (let s : State := { port0 { Port.reset with state := .retraining } with
       ctxs := [(c0, chan0 { open0 0 with peerMod := 7, port := some 0, inbox := [⟨4, 0, 0, [], some { end0 with port := some 0 }⟩] })] }
     let z := (s.ctxOf c0).ep 0
     z.st = .opened ∧ z.port = some 0 ∧ z.inbox = [⟨4, 0, 0, [], some { end0 with port := some 0 }⟩] ∧ end0.closed = none ∧
      ((s.ctxOf c0).ep 1).port ≠ some 0) ∧
    ((owned wide0).ctxOf c0).phase = .live ∧ ((owned wide0).ctxOf c0).vloop = none ∧ ((owned wide0).ctxOf c0).pend = .none ∧
    ((∀ p ∈ State.reset.ctxs, p.2.phase ≠ .live) ∧ State.reset.switches = []) ∧
    (5 ≤ (owned wide0).bootStage ∧ Port.reset.state = .down) ∧
    (State.reset.bootErr = 0 ∧ State.reset.bootStage < 6 ∧ ({ State.reset with bootStage := 2 } : State).bootStage = 2 ∧
      ({ State.reset with bootStage := 4 } : State).bootStage = 4) ∧
    (isByte (tcmAt 15 1279 7 0x1FFFF) = true ∧ State.reset.eccBad.contains (eccWord 0) = false ∧
      ({ State.reset with eccOne := [eccWord 0] } : State).eccOne.contains (eccWord 0) = true ∧
      ({ State.reset with eccBad := [eccWord 0] } : State).eccBad.contains (eccWord 0) = true) := by decide +kernel


/-! ### Further clauses -/

/-- The service core 0 of stack 15 as the agent in issue. -/
def service0 (c : Ctx) : State := { at0 c with cur := .serviceCore 15 0, ctxs := [(.serviceCore 15 0, c)] }

set_option maxRecDepth 8000 in
theorem witness_SystemRegisterWrites_kernel :
    (let s := instant0 { in0 with prv := true } dom0; s.ctx.prv = true ∧ s.ctx.innermost = some 0) ∧
    (at0 kern0).ctx.innermost = none ∧ (0x40000000 : Word).getLsbD 30 = true ∧ (0 : Word).getLsbD 30 = false ∧
    (∃ e ∈ ((kern0.setEp 0 { Ep.reset with res := some (0, 32) }).eps).toList, e.res.isSome = true) ∧ (∀ e ∈ kern0.eps.toList, e.res = none) ∧
    ((0x10F : Word).getLsbD 8 = true ∧ (0x00F : Word).getLsbD 8 = false ∧ (refused0 0).cur = c0 ∧
      (lookup? (refused0 0).core.journal ((0x10F : Word).extractLsb' 0 4).toNat).map JEntry.ctx = some (refused0 0).cur ∧
      lookup? (refused0 0).core.journal ((0x100 : Word).extractLsb' 0 4).toNat = none) ∧
    isHart (at0 kern0).cur = false ∧ (∀ b ∈ (at0 kern0).members c0, (at0 kern0).atRing b = false) ∧
    (let s := service0 kern0; isHart s.cur = true ∧ s.cur = .serviceCore 15 0 ∧ s.ctx.prv = true ∧ s.ctx.origin = .none ∧
      (service0 { kern0 with origin := .loader 48 }).ctx.origin = .loader 48) ∧
    ({ live0 with flight := [⟨16, true, 1, 14, [], [5], false, true⟩] } : Ctx).flight.length = 1 := by decide

theorem witness_FencesAndHints_scopes :
    (let s := journal0 [(0, entry0 .posted)]
     (4 : BitVec 4) ≠ 0 ∧ (4 : BitVec 4).getLsbD 2 = true ∧ s.unacked s.cur = true ∧ s.seqBusy s.cur = false ∧ (4 : BitVec 4).toNat < 5 ∧
      (∀ p ∈ s.core.journal, p.2.ctx = s.cur → p.2.verdict = .posted ∧ s.judge p.2 = none) ∧ ¬((5 : BitVec 4).toNat < 5)) := by decide

/-- The levels of a tree whose leaves are the numbers of the first two elements. -/
def tree0 (op : Word → Word → Word) : Nat → Nat → Option Word
  | 0, i => if i < 2 then some (BitVec.ofNat 32 i) else none
  | l + 1, j => match tree0 op l (2 * j), tree0 op l (2 * j + 1) with
    | some y, some z => some (op y z)
    | some y, none => some y
    | none, z => z

theorem witness_VectorReductionsAndMemory_trees :
    (let s := seqd { lanes0 with vl := 2, v := lanes0.v.set 2 (Vector.ofFn (fun i => BitVec.ofNat 32 i)) } [.one { seq0 (.vredaddI 1 2 .plain) with vl := 2 }]
     (s.coreOf c0).seq = .one { seq0 (.vredaddI 1 2 .plain) with vl := 2 } :: [] ∧ s.mayStart c0 = true ∧
      (∀ i < 64, tree0 (· + ·) 0 i = if i < 2 && ((0 : BitVec 2) = 0 || false) then some (s.lane c0 2 i) else none)) ∧
    (∀ l j, tree0 (· + ·) (l + 1) j = match tree0 (· + ·) l (2 * j), tree0 (· + ·) l (2 * j + 1) with
      | some y, some z => some (y + z)
      | some y, none => some y
      | none, z => z) ∧
    ((seq0 (.vsts 1 2 3 0 .plain)).ea.toNat % 4 = 0 ∧ (seq0 (.vsts 1 2 3 0 .plain)).xc.toNat % 4 = 0) :=
  ⟨by decide, fun _ _ => rfl, by decide⟩

/-- Blocks of the quantiser: one finite nonzero value, a NaN, zeros, and infinities alone; a weighting of one finite element. -/
theorem witness_VectorElementResults_blocks :
    (let xs : List Word := List.replicate 32 0x3F800000
     xs.length = 32 ∧ (∀ y ∈ xs, (num32 y).isNan = false) ∧ (∃ y ∈ xs, y.toNat % 2 ^ 31 ≠ 0) ∧
      (∀ y ∈ xs, y.toNat % 2 ^ 31 < 0x7F800000 ∧ y.toNat % 2 ^ 31 ≤ 0x3F800000)) ∧
    (fraction? fp32 ((0x3F800000 : Word).toNat % 2 ^ 31)).map (·.1) = some false ∧
    (∃ y ∈ List.replicate 32 (0x7FC00000 : Word), (num32 y).isNan = true) ∧
    (∀ y ∈ List.replicate 32 (0x80000000 : Word), y.toNat % 2 ^ 31 = 0) ∧
    (∀ y ∈ List.replicate 32 (0xFF800000 : Word), (num32 y).isNan = false ∧ y.toNat % 2 ^ 31 = 0x7F800000) :=
  ⟨⟨rfl, fun _ h => List.eq_of_mem_replicate h ▸ (by decide), ⟨0x3F800000, .head _, by decide⟩, fun _ h => List.eq_of_mem_replicate h ▸ (by decide)⟩,
   by decide, ⟨0x7FC00000, .head _, by decide⟩, fun _ h => List.eq_of_mem_replicate h ▸ (by decide),
   fun _ h => List.eq_of_mem_replicate h ▸ (by decide)⟩

theorem witness_VectorElementResults_weights :
    (let s := seqd lanes0 [.one { seq0 (.vtnorm 1 2 3) with xc := 1, vl := 64 }]
     (s.coreOf c0).seq = .one { seq0 (.vtnorm 1 2 3) with xc := 1, vl := 64 } :: [] ∧ (s.lane c0 2 0).toNat % 2 ^ 31 < 0x7F800000 ∧
      s.lane c0 2 0 ≠ 0x7F800000) ∧ 2 ≤ (8 : Word).toNat ∧ (8 : Word).toNat ≤ 8 := by decide

set_option maxRecDepth 8000 in
theorem witness_MatrixUnitServesItsCommands_more :
    (let m := cmd0 (.mquant 1 2); let s := queued live0 [m]
     (s.coreOf c0).mqueue = m :: [] ∧ s.arbitrate c0 = some (0, 1, 0) ∧ m.mfmt.toNat / 256 % 16 = 8 ∧
      operand? s m.ctx m.xa.toNat (32 + 128 * 8) = some (ownTcmAt c0 0x1000)) ∧
    (let m := { cmd0 (.msatrd 1 2) with gone := true }; (cmd0 (.msatrd 1 2)).gone = false ∧ m.gone = true ∧ m.early = []) ∧
    (let m := { cmd0 (.mmar 1 2 3) with steps := 3 }
     let s (set : BitVec 8) : State := { queued live0 [m] with units := [(unitKey c0, { Cluster.reset with service := some c0, mrset := set })] }
     ((s 3).unitOf c0).service = some c0 ∧ (s 3).member c0 = true ∧ (∃ o ∈ (s 3).members c0, o ≠ c0) ∧ (s 0).member c0 = false ∧
      (s 1).members c0 = [c0] ∧ operand? (s 3) m.ctx (m.xa + BitVec.ofNat 32 (m.done * (32 + 128 * 8))).toNat (32 + 128 * 8) =
        some (ownTcmAt c0 0x1000)) := by decide

/-- A team of tenant 3 that is being swapped from TIME 0 on, of which context 0.0.0.0 is a member. -/
def gang0 : Switch := { Switch.new 3 0 200 with team := some (48, 7, 0) }

set_option maxRecDepth 8000 in
theorem witness_AccumulatesAndResidualTiles_gang :
    (let s : State := { owned { wide0 with origin := .member 48 7 0 0 } with switches := [(64, gang0)] }
     ∃ w ∈ s.switches, w.2.stop ≤ (s.sliceClock 0 0).toNat ∧ w.2.team = some (48, 7, 0) ∧ (s.ctxOf c0).origin = .member 48 7 0 0) ∧
    (let s : State := { owned wide0 with switches := [(3, { gang0 with team := none })] }
     ∃ w ∈ s.switches, w.2.stop ≤ (s.sliceClock 0 0).toNat ∧ w.2.team = none ∧ w.2.tenant = 3) ∧
    (let s : State := { owned { wide0 with flushing := true, out := 1, mustOut := 1, pause := .paused } with accs := [acc0 .ack] }
     s.accs[0]? = some (acc0 .ack) ∧ (s.ctxOf c0).flushing = true ∧ (s.ctxOf c0).pause ≠ .no ∧ s.ctx.out ≠ 0 ∧ Memory.wf s.mem = true) := by
  refine ⟨⟨(64, gang0), by decide, Nat.zero_le _, by decide⟩, ⟨(3, { gang0 with team := none }), by decide, Nat.zero_le _, by decide⟩, by decide⟩

set_option maxRecDepth 8000 in
theorem witness_ChannelRegisters_waiting :
    (let x := { Ep.reset with st := .waiting, asking := some (true, 0x1000, 5) }; let s := at0 (chan0 x)
     (s.ctx.ep 0).asking = some (true, 0x1000, 5) ∧ (s.ctx.ep 0).asking ≠ some (true, 0x1000, 6) ∧ x.pend = none ∧ x.held = none ∧ x.slot = none) ∧
    (∀ st ∈ [EpSt.delegated, .kr, .closed], let x := { Ep.reset with st := st }
      x.st = st ∧ x.held = none ∧ x.inbox = [] ∧ x.direct = [] ∧ x.deferred = [] ∧ x.slot = none) := by decide

set_option maxRecDepth 8000 in
theorem witness_ChannelOperations_words :
    (at0 (chan0 (open0 0))).openPayload = none ∧ shapeBytes 0x9 ≤ 4 ∧
    (let s := at0 { chan0 { open0 1 with inbox := [msg0] } with pend := .payload (scratchAt 0 0 0) 4 (some msg0.payload) [(0, [1, 2, 3, 4])] }
     s.ctx.pend = .payload (scratchAt 0 0 0) 4 (some msg0.payload) [(0, [1, 2, 3, 4])] ∧ Memory.wf s.mem = true) := by decide

set_option maxRecDepth 8000 in
theorem witness_ChannelTraffic_stays :
    (let s : State := { owned ((chan0 (open0 1)).setEp 1 { open0 1 with peer := 0x100 }) with
       mesh := [.msg 0 0x1000 0 3 0 true msg0], switches := [(3, saved0)] }
     s.arrives 0 = some (.msg 0 0x1000 0 3 0 true msg0) ∧ s.stubOf 0x1000 = none ∧ s.messageStays 0 0x1000 true = true ∧
      s.messageStays 0 0x1000 false = false) ∧
    (let x := { open0 1 with moving := true }
     let s : State := { owned (chan0 x) with mesh := [.msg 0x1000 0 0 3 0 false msg0] }
     s.messageStays 0x1000 0 false = false ∧ s.switchedOut 0x1000 0 = false ∧ s.holder? 0x1000 0 = some (c0, 0) ∧ x.moving = true) ∧
    (let s := owned (chan0 { open0 1 with deferred := [(0x1000, 0, msg0)] })
     (s.ctxOf (.core 0 0 0 1)).phase ≠ .live ∧ (s.ctxOf c0).phase = .live ∧ agentOfName 0x1000 = some (.core 0 0 0 1) ∧
      s.switchedOut 0 0x1000 = false) := by decide

/-- Domain 1 of tenant 3, a child of domain 0. -/
def dom1 : Domain := { dom0 with parent := some 0, level := 1 }

/-- A context in domain 1, the child, and domain 0. -/
def in1 : Ctx := { wide0 with dom := ((Vector.replicate 4 ⟨false, 0⟩).set 0 ⟨true, 0⟩).set 1 ⟨true, 1⟩ }

/-- Context 0.0.0.0, and 0.0.0.1 in domain 1. -/
def nested0 (c d : Ctx) (k : Domain) : State := { owned c with
  ctxs := [(c0, { c with tenant := 3 }), (.core 0 0 0 1, d)], domains := [(0, dom0), (1, k)] }

set_option maxRecDepth 8000 in
theorem witness_InstantsAndTheirEvents_nested :
    (let s : State := { instant0 { in1 with pause := .pausedUp } dom0 with domains := [(0, dom0), (1, dom1)] }
     s.domain? 1 = some dom1 ∧ s.instantDone 1 = true ∧ dom1.level ≠ 0 ∧ (∀ c ∈ s.memberCtxs 1, c.pause = .pausedUp) ∧
      (s.ctxOf c0).memberOf 1 = true) ∧
    (let s : State := { instant0 { in1 with pause := .paused } dom0 with domains := [(0, dom0), (1, dom1)] }
     s.instantDone 1 = true ∧ ∃ c ∈ s.memberCtxs 1, c.pause ≠ .pausedUp) ∧
    (let k := { dom1 with pausedInParent := true }; let s := nested0 { in0 with pause := .paused } { in1 with pause := .pausedUp } k
     s.instantDone 0 = true ∧ s.children 0 = [1] ∧ s.domain? 1 = some k ∧ k.pausedInParent = true ∧
      (s.ctxOf (.core 0 0 0 1)).memberOf 1 = true) := by decide

set_option maxRecDepth 8000 in
theorem witness_InstantsAndTheirEvents_writes :
    (let s := nested0 { in0 with prv := true } { in1 with pause := .no } dom1; let dom := setDom s.ctx.dom 1 ⟨true, 1⟩
     s.ctx.prv = true ∧ s.ctx.innermost = some 0 ∧ s.domain? 0 = some dom0 ∧ ({ s.ctx with dom := dom } : Ctx).innermost = some 1 ∧
      (∀ r : Fin 4, (dom[r]).v = true → ((s.domain? (dom[r]).id.toNat).map (fun y => (y.tenant, y.level))) = some (3, r.val)) ∧
      dom1.parent = some (dom[(0 : Fin 4)]).id.toNat ∧ s.tenantOf s.cur = 3 ∧ s.instantDone 1 = false ∧
      (s.domain? 1).any Domain.pausedInParent = false) ∧
    (nested0 { in0 with prv := true } { in1 with pause := .pausedUp } dom1).instantDone 1 = true ∧
    (let s := nested0 { in0 with prv := true } in1 { dom1 with pausedInParent := true }
     (s.domain? 1).any Domain.pausedInParent = true ∧ s.memberCtxs 1 ≠ []) ∧
    (let s := nested0 { in0 with prv := true } in1 dom1
     (setDom s.ctx.dom 0 ⟨false, 0⟩)[(0 : Fin 4)].v = false ∧ ({ s.ctx with dom := setDom s.ctx.dom 0 ⟨true, 0⟩ } : Ctx).innermost = s.ctx.innermost ∧
      s.domain? 0x3FF = none) := by decide

set_option maxRecDepth 8000 in
theorem witness_EventUnitOperations_more :
    (let s : State := { events0 wide0 .reset with cores := [(coreKey c0, { Core.reset with seq := [.one (seq0 .vsync)] })] }
     s.passRelease 1 s.cur = none) ∧
    (let s := events0 wide0 .reset; (barOf s.unit 15).count = 0 ∧ s.ctx.arrival = none ∧ (s.passRelease 1 s.cur).isSome = true) ∧
    (let s := events0 { wide0 with arrival := some (15, 0, 0), wait := .event } .reset
     s.ctx.arrival = some (15, 0, 0) ∧ (barOf s.unit 15).count = 0 ∧ s.ctx.wait = .event) ∧
    (let s := events0 { wide0 with arrival := some (14, 0, 0) } { Cluster.reset with barriers := [(15, ⟨0, 1⟩)] }
     (barOf s.unit 15).count ≠ 0 ∧ s.ctx.arrival.map (·.1) ≠ some 15) ∧
    (let s := events0 (wide0.setX 2 0x8000007C) { Cluster.reset with bells := [(31, ⟨1, []⟩)] }
     s.ctx.getX 2 + (0 : Word) * 4 = BitVec.ofNat 32 (0x80000000 + 4 * 31)) := by decide

set_option maxRecDepth 8000 in
theorem witness_DebugInstructionsAndPort_more :
    (let s := service0 kern0; isHart s.cur = true ∧ s.ctx.prv = true) ∧
    (let s : State := { at0 kern0 with units := [(unitKey c0, { Cluster.reset with lines := [line0], fills := [⟨3, 0x41, false⟩] })] }
     s.unit.lines = [line0] ∧ s.unit.fills ≠ []) ∧
    place c0 (0x03000040 / 64 * 64) = .matrix (matrixAt 0 0 0x40) ∧ place c0 0x01000000 = .peer 0 0 0 0 ∧
    (owned kern0).present c0 0 0 0 = true ∧ (at0 kern0).present c0 0 0 1 = false ∧
    (let s : State := { owned wide0 with switches := [(3, saved0)] }
     (s.savedAt (.core 0 0 0 1)).isSome = true ∧ s.debugTarget 1 = some (.core 0 0 0 1) ∧ s.savedAt c0 = none) ∧
    (let q := { live0 with haltReq := true }; q.debugHalted = true ∧ q.halted = false) := by decide

set_option maxRecDepth 8000 in
theorem witness_DispatchPlacementAndCompletion_adverts :
    (let ad : Advert := ⟨8, 4, 0, (8, 4), false⟩
     let s : State := { launched (launch0 record0) with ads := [((0, 3), ad)] }
     lookup? s.ads (0, 3) = some ad ∧ s.time.toNat < ad.sentAt + 64 ∧ s.freeOn 3 0 ≠ ad.seen ∧
      ad.sentAt + 64 ≤ ({ s with time := 64 } : State).time.toNat ∧ ad.changed = false ∧ ({ ad with seen := s.freeOn 3 0 } : Advert).seen = s.freeOn 3 0) ∧
    (let s := launched (launch0 record0); s.clustersOf 3 15 = [] ∧ lookup? s.ads (15, 3) = none) := by decide +kernel

set_option maxRecDepth 8000 in
theorem witness_SwitchesTeardownsAndPartitions_records :
    (let w := { switch0 .saved with ctxs := [⟨c0, live0⟩], areas := [(0, [1])] }; let s : State := { owned Ctx.reset with switches := [(3, w)] }
     lookup? s.switches 3 = some w ∧ s.vacantFor w = true ∧ s.hasRoom w = true ∧ s.areasIntact w = false ∧ w.ctxs.Pairwise (fun x y => x.ag ≠ y.ag) ∧
      s.areasIntact { w with areas := [] } = true) ∧
    (let s := owned Ctx.reset; let p : Partition := { part0 with rows := [(0, 0), (0, 1)] }
     s.loaderBound 3 p = true ∧ partValid p 3 = true ∧ (p.poolBase = (s.partOf 3).poolBase ∧ p.poolSize = (s.partOf 3).poolSize)) ∧
    (let s := loaded0 queue0 { live0 with origin := .loader 48 }; s.loaderBound 3 { part0 with agents := [] } = false) := by decide +kernel

/-! ### Clauses of registers, stores, jobs, bells, records and flits -/

set_option maxRecDepth 8000 in
theorem witness_SystemRegisterReads_units :
    (let s := service0 kern0; isHart s.cur = true ∧ s.cur = .serviceCore 15 0 ∧ s.ctx.prv = true ∧
      s.sliceOf 15 (s.hartOf s.cur).slcsel.toNat = Slice.reset) ∧
    (let s : State := { at0 live0 with cur := .memoryCore 0 0, ctxs := [(.memoryCore 0 0, kern0)] }
     isHart s.cur = true ∧ s.ctx.prv = true ∧ (s.unitOf s.cur).slots.length = 0) ∧
    (let s : State := { at0 live0 with cores := [(coreKey c0, { Core.reset with seq := [.loop (.core 0 0 0 1) [] 1 0 1, .loop c0 [] 7 0 5] })] }
     s.core.seq = [.loop (.core 0 0 0 1) [] 1 0 1] ++ .loop s.cur [] 7 0 5 :: [] ∧
      ∀ e ∈ [SeqItem.loop (.core 0 0 0 1) [] 1 0 1], e.ctx ≠ s.cur) ∧
    ((at0 live0).core.seq = [] ∧ (at0 live0).ctx.vloop = none) := by decide

/-- A store of context 0.0.0.0 to the byte enables `be` of the word at offset 0 of slice 0. -/
def part1 (be : BitVec 4) (data : Word) (seqNo : Nat) : JEntry := { entry0 .posted with be := be, data := data, seqNo := seqNo }

set_option maxRecDepth 8000 in
/-- Bytes 0 to 2 of the word are supplied by own stores, byte 1 by the later one; byte 3 is supplied by none. -/
theorem witness_SharedSramLoadsAskAndReturn_own :
    (let s := owned (wide0.setX 2 0x40000000)
     place s.cur 0x40000003 = .shared ∧ homeOf s.ctx.windows 0x40000003 .load = some (0, 0, 3) ∧ (0x40000002 : Word).toNat % 2 = 0 ∧
      (0x40000FF8 : Word).toNat % 8 = 0 ∧ homeOf s.ctx.windows 0x40000FF8 .load = some (0, 0, 0xFF8) ∧ s.ctx.pend = .none) ∧
    (let s := journal0 [(3, part1 3 0x1111 1), (1, part1 6 0x222200 2)]; let m := sliceAt 0 0 0
     Supplies s c0 (m + 1) (part1 6 0x222200 2) ∧ Supplies s c0 (m + 1) (part1 3 0x1111 1) ∧ (1 : Nat) < 2 ∧
      ∀ e, ¬Supplies s c0 (m + 3) e) := by
  refine ⟨by decide, ⟨⟨1, .tail _ (.head _)⟩, by decide⟩, ⟨⟨3, .head _⟩, by decide⟩, by decide, ?_⟩
  rintro e ⟨⟨n, h⟩, -, -, -, -, h'⟩
  have : (journal0 [(3, part1 3 0x1111 1), (1, part1 6 0x222200 2)]).coreOf c0 = { Core.reset with
      journal := [(3, part1 3 0x1111 1), (1, part1 6 0x222200 2)] } := by decide
  rw [this] at h
  rcases List.mem_cons.1 h with h | h
  · cases h; exact absurd h' (by decide)
  · rcases List.mem_singleton.1 h with h; cases h; exact absurd h' (by decide)

set_option maxRecDepth 8000 in
theorem witness_StoresToSharedSramArePosted_kinds :
    (let s := owned (wide0.setX 2 0x40000000)
     (0x40000003 : Word).toNat % 1 = 0 ∧ place s.cur 0x40000003 = .shared ∧ homeOf s.ctx.windows 0x40000003 .store = some (0, 0, 3) ∧
      s.released s.cur = true ∧ (journal0 [(0, entry0 .posted)]).released c0 = false) ∧
    (let s := journal0 ((List.range 14).map (fun n => (n, entry0 .posted)))
     (0x40000008 : Word).toNat % 8 = 0 ∧ lookup? s.core.journal 14 = none ∧ lookup? s.core.journal 15 = none ∧
      ∀ k < 15, k ≠ 14 → lookup? s.core.journal k ≠ none) ∧
    (let s := journal0 ((List.range 15).map (fun n => (n, entry0 .posted)))
     ∀ n < 16, ∀ m < 16, lookup? s.core.journal n = none → lookup? s.core.journal m = none → n = m) ∧
    (let s : State := { journal0 [(15, part1 8 0x33000000 1)] with eccBad := [eccWord (sliceAt 0 0 0)] }
     (part1 8 0x33000000 1).be ≠ 15 ∧ s.hasBad (part1 8 0x33000000 1).home 4 = true ∧
      (journal0 [(15, part1 8 0x33000000 1)]).hasBad (sliceAt 0 0 0) 4 = false ∧
      oldest (s.coreOf c0).journal (part1 8 0x33000000 1) = true) := by decide

/-- A started job with the given words, whose completion word is at 0x1008. -/
def copied (w0 len src hi dst ss ds : Word) : Job := { copy0 with words := [w0, len, src, hi, dst, ss, ds, 0x1008] }

/-- Two rows of 8 bytes from the own TCM, 16 apart, to the scratchpad, from the higher address down. -/
def rows0 : Job := copied 0x04000001 8 0x100 0 0x100020 16 0xFFFFFFF0

set_option maxRecDepth 8000 in
theorem witness_CopyJobs_rows :
    (let s := jobd live0 [rows0]
     (s.unitOf c0).jobs = [rows0] ∧ rows0.started = true ∧ s.mayStart c0 = true ∧ rows0.wellFormed = true ∧ rows0.rows = 2 ∧ rows0.len = 8 ∧
      rows0.done = [] ∧ rows0.parts = [] ∧ rows0.srcDram = false ∧ rows0.dstDram = false ∧
      (∀ r : Fin 2, ∀ i : Fin 8, place c0 ((0x100 + 16 * r.val + i.val) / 4 * 4) = .ownTcm ((0x100 + 16 * r.val + i.val) / 4 * 4) ∧
        place c0 ((0x100020 - 16 * r.val + i.val) / 4 * 4) = .scratch (scratchAt 0 0 ((0x20 - 16 * r.val + i.val) / 4 * 4)))) := by decide

/-- The bytes of its rows are apart. -/
theorem witness_CopyJobs_apart : ∀ r : Fin 2, ∀ i : Fin 8, ∀ r' : Fin 2, ∀ i' : Fin 8,
    scratchAt 0 0 (0x20 - 16 * r.val + i.val) ≠ ownTcmAt c0 (0x100 + 16 * r'.val + i'.val) ∧
      (scratchAt 0 0 (0x20 - 16 * r.val + i.val) = scratchAt 0 0 (0x20 - 16 * r'.val + i'.val) → r = r' ∧ i = i') := by decide +kernel

set_option maxRecDepth 8000 in
theorem witness_CopyJobs_faults :
    (let j := copied 0x04000000 4 0x20000 0 0x200 0 0; j.wellFormed = true ∧ place c0 j.src = .unmapped) ∧
    (let j := copied 0x04000000 4 0x100 0 0x1F000 0 0; j.wellFormed = true ∧ place c0 j.dst = .ownTcm 0x1F000 ∧
      (jobd live0 [j]).hwManaged c0 0x1F000 = true) ∧
    (let j := copied 0x04000000 4 0x01020000 0 0x200 0 0; j.wellFormed = true ∧ place c0 j.src = .peer 0 0 1 0 ∧
      (jobd live0 [j]).present c0 0 0 1 = false) ∧
    (let j := copied 0x04000000 4 0x100 0 0x01020000 0 0; j.wellFormed = true ∧ place c0 j.dst = .peer 0 0 1 0 ∧
      (jobd live0 [j]).hwManaged (.core 0 0 1 0) 0 = false) ∧
    (let s : State := { jobd live0 [copy0] with eccBad := [eccWord (ownTcmAt c0 0x100)] }; s.hasBad (ownTcmAt c0 0x100) 4 = true) ∧
    (let j := copied 0x04040000 4 0x100 0 0x200 0 0; let s := jobd live0 [j]
     j.wellFormed = true ∧ j.srcDram = true ∧ (s.hartOf (homeMemoryCore j.src)).cached (s.tenantOf c0) j.src = none ∧
      lookup? s.partitions (s.tenantOf c0) = none) ∧
    (let j := copied 0x04010000 4 0x100 0 0x200 0 0; j.wellFormed = true ∧ j.dstDram = true) := by decide

set_option maxRecDepth 8000 in
/-- Row 0 of the page at address 0, which every access may use; the page-table entries lie elsewhere. -/
theorem witness_CopyJobs_dram :
    (let s := loaded0 queue0 Ctx.reset
     (match s.walk 0x8000 0x100 with
        | .ok x => some x
        | .error _ => none) = some (0, 7) ∧ (s.hartOf (homeMemoryCore 0x100)).cached 3 0x100 = none ∧
      s.walkReads 0x8000 0x100 = [paAt 0x8000, paAt 0x9000] ∧ vaAt 0x100 0 + 4 ≤ paAt 0x8000) ∧
    (let s := loaded0 queue0 Ctx.reset
     (match s.walk 0x8000 (2 ^ 39) with
        | .ok _ => none
        | .error e => some e) = some 1) := by decide

set_option maxRecDepth 8000 in
theorem witness_EventUnitOperations_saved :
    (let w : Switch := { saved0 with units := [(unitKey c0, Cluster.reset)] }
     let s : State := { events0 wide0 .reset with switches := [(3, w)], mesh := [.ring (.memoryCore 0 0) c0 31 3] }
     s.eccBad = [] ∧ s.eccOne = [] ∧ s.mesh[0]? = some (.ring (.memoryCore 0 0) c0 31 3) ∧
      ringFirst (s.mesh.take 0) (.memoryCore 0 0) c0 31 = true ∧ s.bellTenant c0 = some 3 ∧ s.switches = [(3, w)] ∧
      (w.team = none ∧ w.phase = .saved ∧ lookup? w.units (unitKey c0) = some Cluster.reset)) ∧
    (let s := events0 { wide0 with arrival := some (15, 0, 0), inIssue := [0xB806] } .reset
     s.ctx.arrival = some (15, 0, 0) ∧ (barOf s.unit 15).count = 0 ∧ s.ctx.wait ≠ .event ∧ s.ctx.inIssue ≠ []) := by decide

set_option maxRecDepth 8000 in
theorem witness_DispatchPlacementAndCompletion_parts :
    (let ws : List Word := [0x02000001, 1, 2, 3, 4, 5, 6, 7]
     let d := { device0 with got := some (true, ws) }
     let s := launched { launch0 record0 with dq := some d, eligible := true }
     d.final = none ∧ s.eccBad = [] ∧ Memory.wf s.mem = true ∧ d.got ≠ none ∧ s.lagging .secureCore = []) ∧
    (let l := { launch0 record0 with status := some ⟨1, 0⟩, writing := some (List.replicate 8 0, [3]) }; let s := launched l
     s.finalStatus l = some ⟨1, 0⟩ ∧ l.writing = some (List.replicate 8 0, [3]) ∧ (s.vaFlat l.tenant l.record .write).2.isSome = true) := by
  decide +kernel

/-- A port that is up, with mesh flits of two virtual channels that wait. -/
def sender0 : Port := { Port.reset with
  state := .up, queue := (List.range 8).map (fun n => (n % 2, 0x80, List.replicate 32 (BitVec.ofNat 8 n))) }

set_option maxRecDepth 8000 in
theorem witness_BoardHostAndLinks_flits :
    (let s : State := { State.reset with ports := [(63, sender0)] }
     (s.portOf 63).state = .up ∧ (s.portOf 63).replay.length < 2048 ∧ ((s.enterFlits 63 7).portOf 63).queue = sender0.queue ∧
      sender0.queue ≠ [] ∧ ∀ z ∈ sender0.queue, z.1 < 16 ∧ z.2.2.length = 32) := by decide
/-! ### Single steps whose results the manual gives -/

/-- 06 R156's example: GCD of 84 and 30 is 6, and T is 0; the group is two words long. -/
theorem test_gcd : out (.gcd 4 6 (some 7)) { at0 ((live0.setX 6 84).setX 7 30) with group := ⟨[0xE870, 0x0A37], 0, 0x0A37⟩ }
    (fun t => (t.ctx.getX 4, t.ctx.t, t.ctx.pcLow)) = some (6, false, 4) := by decide

/-- The signed overflow of DIV (06 R157): quotient 0x7FFF_FFFF and T 1. -/
theorem test_div_overflow : out (.div 1 2 none) (at0 ((live0.setX 1 0x80000000).setX 2 0xFFFFFFFF)) (fun t => (t.ctx.getX 1, t.ctx.t)) =
    some (0x7FFFFFFF, true) := by decide

/-- x0 discards a write (06 R145), and the group completes. -/
theorem test_x0 : out (.addi 0 5) (at0 live0) (fun t => (t.ctx.getX 0, t.ctx.pcLow)) = some (0, 2) := by decide

/-- BT with T set goes back 24 bytes (04 R98). -/
theorem test_bt : out (.bt 0xFFFFFFF4) (at0 { live0 with t := true, pc := 0x100 }) (fun t => t.ctx.pcLow) = some 0xE8 := by decide

/-- STH writes two bytes, the low one first (00 R2), and no other; LDH extends the sign. -/
theorem test_sth : out (.sth 1 2 1) (at0 ((live0.setX 1 0xFFFF8123).setX 2 0x1000)) (fun t =>
    (t.byteAt (ownTcmAt c0 0x1002), t.byteAt (ownTcmAt c0 0x1003), t.byteAt (ownTcmAt c0 0x1004))) = some (0x23, 0x81, 0) := by decide

theorem test_ldh : out (.ldh 1 2 0) ((at0 (live0.setX 2 0x1000)).storeWord (ownTcmAt c0 0x1000) 0x00008123) (fun t => t.ctx.getX 1) =
    some 0xFFFF8123 := by decide

/-- A misaligned LDW with a handler (06 R162, R182): ALIGN with the address in TVAL, and the handler's address in PC. -/
theorem test_align_trap : out (.ldw 1 2 0) (at0 { live0.setX 2 0x1002 with tvec := 0x400, pc := 0x20 }) (fun t =>
    (t.ctx.cause, t.ctx.tval, t.ctx.epc, t.ctx.pcLow, t.ctx.prv)) = some (0x103, 0x1002, 0x20, 0x400, true) := by decide

/-- TRAP 3 and the handler's ERET (06 R182, R183). -/
theorem test_trap : out (.trap 3) (at0 { live0 with tvec := 0x400, pc := 0x20 }) (fun t =>
    (t.ctx.cause, t.ctx.tval, t.ctx.epc, t.ctx.pcLow, t.ctx.intrap)) = some (0x141, 3, 0x20, 0x400, true) := by decide

theorem test_eret : out .eret (at0 { kern0 with epc := 0x22, intrap := true, pie := true }) (fun t =>
    (t.ctx.pcLow, t.ctx.prv, t.ctx.ie, t.ctx.intrap)) = some (0x22, false, true, false) := by decide

/-- The table of 07 R199: 300.0, 500.0 and 0.001 to the narrow formats. -/
theorem test_narrow : ([(.fcvtBf16 7 2, 0x43960000), (.fcvtE4m3 7 2, 0x43960000), (.fcvtE5m2 7 2, 0x43960000), (.fcvtE4m3 7 2, 0x43FA0000),
    (.fcvtE4m3Sat 7 2, 0x43FA0000), (.fcvtE4m3 7 2, 0x3A83126F), (.fcvtE5m2Sat 7 2, 0x7F800000)] : List (Instr × Word)).map (fun p =>
      out p.1 (at0 (live0.setF 2 p.2)) (fun t => (t.ctx.getX 7, t.ctx.fpcsr.flags, t.ctx.fpcsr.sat))) =
    [some (0x4396, 0, false), some (0x79, 1, false), some (0x5D, 1, false), some (0x7F, 5, false), some (0x7E, 5, true),
      some (0x01, 3, false), some (0x7B, 4, true)] := by decide

/-- 07 R217's second example: FDIV by zero records DZ; the FMUL of 0 and ∞ takes FP_TRAP. -/
theorem test_fdiv_dz : out (.fdiv 5 2 (some 3)) (at0 { live0.setF 2 0x43960000 with fpcsr := ⟨0, 16, false, 1⟩ }) (fun t =>
    (t.ctx.getF 5, t.ctx.fpcsr.flags)) = some (0x7F800000, 9) := by decide

theorem test_fmul_trap : out (.fmul 6 3 (some 4)) (at0 { live0.setF 4 0x7F800000 with fpcsr := ⟨0, 16, false, 9⟩, tvec := 0x400 }) (fun t =>
    (t.ctx.getF 6, t.ctx.fpcsr.flags, t.ctx.tval, t.ctx.cause)) = some (0, 9, 0x10, 0x130) := by decide

/-- 08 R228's examples: 1/2 + 1/3 is 5/6 in three runs; SMK of 80,000,001/2 rounds up in ceiling mode; SCVTF of 2^-26. -/
theorem test_rational_add : out (.fadd 1 2 none) (at0 { (live0.setF 1 0x04000002).setF 2 0x04000003 with rm := true }) (fun t =>
    (t.ctx.getF 1, t.ctx.rcsr.runs, t.ctx.rcsr.flags)) = some (0x08000016, 3, 0) := by decide +kernel

theorem test_smk : ([0, 1, 2, 3, 4] : List (BitVec 3)).map (fun m =>
      out (.smk 1 5 6) (at0 { (live0.setX 5 134217729).setX 6 2 with rcsr := ⟨0, m, 0, 0⟩ }) (fun t => (t.ctx.getF 1, t.ctx.rcsr.flags))) =
    [some (0x03FFFFFF, 5), some (0x68000000, 5), some (0x03FFFFFF, 5), some (0x03FFFFFF, 5), some (0x68000000, 5)] := by decide +kernel

theorem test_scvtf : ([0, 1] : List (BitVec 3)).map (fun m =>
      out (.scvtf 1 9) (at0 { live0.setX 9 0x32800000 with rcsr := ⟨0, m, 0, 0⟩ }) (fun t => (t.ctx.getF 1, t.ctx.rcsr.flags))) =
    [some (0x67FFFFFF, 3), some (0, 3)] := by decide +kernel

/-- The mediant of 1/3 and 1/2 is 2/5 (08 R240): q(2, 5) is 0x0800_0009. -/
theorem test_smed : out (.smed 1 2 none) (at0 ((live0.setF 1 0x04000003).setF 2 0x04000002)) (fun t => t.ctx.getF 1) = some 0x08000009 := by
  decide +kernel

/-- The tree of 10 R284's example: VREDADD.F of (16,777,216, 1, 1, 1) is 0x4B80_0001 with NX. -/
theorem test_vredadd : out (.sequencerStart c0) (seqd { lanes0.setV 2 (((((Vector.replicate 64 (0 : Word)).set 0 0x4B800000).set 1 0x3F800000).set
      2 0x3F800000).set 3 0x3F800000) with vl := 4 } [.one { seq0 (.vredaddF 1 2 .plain) with vl := 4 }]) (fun t =>
    (t.ctx.getF 1, t.ctx.fpcsr.flags)) = some (0x4B800001, 1) := by decide +kernel

/-- 10 R288's example: VTOPK over (0.5, ∞, NaN, 2, ∞, -1, 2, 0) with k = 4 gives the indices 1, 4, 3, 6 and raises NV. -/
theorem test_vtopk : out (.sequencerStart c0) (seqd { lanes0.setV 3 ((((((((Vector.replicate 64 (0 : Word)).set 0 0x3F000000).set 1 0x7F800000).set
      2 0x7FC00000).set 3 0x40000000).set 4 0x7F800000).set 5 0xBF800000).set 6 0x40000000) with vl := 8 }
      [.one { seq0 (.vtopk 4 3 9 .plain) with vl := 8, xc := 4 }]) (fun t =>
    ((t.ctx.getV 4)[0], (t.ctx.getV 4)[1], (t.ctx.getV 4)[2], (t.ctx.getV 4)[3], t.ctx.fpcsr.flags)) = some (1, 4, 3, 6, 16) := by
  decide +kernel

/-- 15 R436's example: the third arrival at a barrier of 3 moves the word from 0x0005_0002 to 0x0006_0000 and returns at once. -/
theorem test_barrier : out (.bararrLoad 1 2) ((events0 wide0 { Cluster.reset with barriers := [(2, ⟨0x40, 3⟩)] }).storeWord
      (scratchAt 0 0 0x100) 0x00050002) (fun t => (t.wordAt (scratchAt 0 0 0x100), t.ctx.getX 1, t.ctx.wait)) =
    some (0x00060000, 0x00050002, .none) := by decide

/-- 15 R429's example: DLYW writes NXT; DLYR still reads CUR. -/
theorem test_dlyr : out (.dlyw 2 5) (instant0 (in0.setX 5 9) dom0) (fun t => (t.ctx.dnxt[2], t.ctx.dcur[2])) = some (9, 0) := by decide

/-- 16 R445's example: B's accumulate of 7 merges with A's 5 in a router queue, and B is acknowledged. -/
theorem test_merge : out (.accMerge 0 1) { owned wide0 with accs := [{ acc0 .toHome with must := false },
      { acc0 .toHome with must := false, value := 7, owner := .core 0 0 2 0 }] } (fun t => t.accs.map (fun m => (m.dir, m.value, m.owner))) =
    some [(.toHome, 12, c0), (.ack, 7, .core 0 0 2 0)] := by decide

/-- 12 R360's example: element 10 of the column-wise 8 × 8 tile is read at 0x1044. -/
theorem test_affine : ({ affine0 false with words := [0x05000000, 0x1000, 0x00080008, 0x00010001, 32, 4, 0, 0], i0 := 2, i1 := 1 } : Affine).addr =
    0x1044 := by decide

/-- 01's example: the name of endpoint 3 of context 1 of core 2 of cluster 127 of stack 5. -/
theorem test_name : epNameOf (.core 5 127 2 1) 3 0 = some 0x50FE9300 ∧ agentOfName 0x50FE9300 = some (.core 5 127 2 1) := by decide

/-- 13 R406's example: with LOG2N = 2 key 5 goes to destination 0. -/
theorem test_key_hash : ((5 : Word) * 0x9E3779B9) = 0x1715609D := by decide

/-- The table instruction the decoder reads, and the step that runs it as the first after reset. -/
theorem test_table_word : decodeTableWord 16 0xB806 = some .nop ∧ decodeTableWord 32 0x0A37E870 = some (.gcd 4 6 (some 7)) ∧
    (match step nop0 with
      | .next t => (t.ctxOf c0).pcLow
      | .fault _ => 0
      | .refused _ => 0) = 0x1002 := by decide

/-- While the module is held in reset a step faults; POWER_ON_RESET ends that (22 R537). -/
theorem test_held_in_reset : (match step { State.reset with thermalStop := true } with
      | .next _ => false
      | .fault r => r = .heldInReset
      | .refused _ => false) = true ∧
    out .powerOnReset { State.reset with thermalStop := true } (fun t => t.thermalStop) = some false := by decide

/-- A copy job's row from an unaligned DRAM address, by the 4-byte words that hold it (17 R464). -/
theorem test_row_pieces : rowPieces true 0x1003 12 = [(0x1003, 1), (0x1004, 4), (0x1008, 4), (0x100C, 3)] := by decide

end Sys2Proof.Tests
end

section
/-!
PROOFS. Bytes and words of memory: reading back what was stored.
-/
namespace Sys2Proof.Machine

/-- The value of little-endian bytes is the number they were taken from, as far as they go. -/
theorem natOfBytes_bytesOf (n k : Nat) : natOfBytes (bytesOf n k) = n % 256 ^ k := by
  induction k generalizing n with
  | zero => simp [bytesOf, natOfBytes, Nat.mod_one]
  | succ k ih => rw [bytesOf, natOfBytes, ih, Nat.pow_succ', Nat.mod_mul, BitVec.toNat_ofNat]

theorem wordOfBytes_wordBytes4 (w : Word) : wordOfBytes (wordBytes4 w) = w := by
  rw [wordOfBytes, wordBytes4, natOfBytes_bytesOf, show 256 ^ 4 = 2 ^ 32 from rfl, Nat.mod_eq_of_lt w.isLt, BitVec.ofNat_toNat,
    BitVec.setWidth_eq]

theorem memReadList_memWriteList_same {m : List Host.Cell} (a : Nat) (bs : List Byte) (h : Memory.wf m = true) :
    memReadList (memWriteList m a bs) a bs.length = bs := by
  induction bs generalizing m a with
  | nil => rfl
  | cons b rest ih =>
    have head : memRead (memWriteList m a (b :: rest)) a = b := memRead_memWriteList_at a 0 (b :: rest) h (Nat.succ_pos _)
    have tail : memReadList (memWriteList (memWrite m a b) (a + 1) rest) (a + 1) rest.length = rest :=
      ih (a + 1) (Memory.wf_memWrite a b h)
    exact congr (congrArg List.cons head) tail

theorem bytesAt_storeBytes_same {s : State} (a : Nat) (bs : List Byte) (h : Memory.wf s.mem = true) :
    (s.storeBytes a bs).bytesAt a bs.length = bs :=
  memReadList_memWriteList_same a bs h

theorem wordAt_storeWord_same {s : State} (a : Nat) (w : Word) (h : Memory.wf s.mem = true) : (s.storeWord a w).wordAt a = w := by
  have bytes : (s.storeWord a w).bytesAt a 4 = wordBytes4 w := bytesAt_storeBytes_same a (wordBytes4 w) h
  rw [State.wordAt, bytes, wordOfBytes_wordBytes4]

theorem byteAt_storeWord_same {s : State} (a : Nat) (w : Word) (h : Memory.wf s.mem = true) :
    (s.storeWord a w).byteAt a = w.extractLsb' 0 8 := by
  have lowest : (s.storeWord a w).byteAt a = BitVec.ofNat 8 w.toNat :=
    byteAt_storeBytes_at (i := 0) (bs := wordBytes4 w) h (Nat.succ_pos _)
  rw [lowest, BitVec.extractLsb', Nat.shiftRight_zero]

end Sys2Proof.Machine

open Sys2Proof Sys2Proof.Machine
namespace Sys2Proof.Proofs

/-- Settles O8: the bytes by the rules of reading after writing, the word by putting its bytes together again. -/
theorem memoryReadsBackWhatWasStored : Obligations.MemoryReadsBackWhatWasStored :=
  fun _ n _ w h => ⟨fun _ hi => byteAt_storeBytes_at h hi, fun _ hm => byteAt_storeBytes_other h hm,
    wordAt_storeWord_same n w h, byteAt_storeWord_same n w h⟩

end Sys2Proof.Proofs
end

section
/-!
PROOFS. Writes of system registers: the frame of a completed group, and from what `State.regSet` does to what SRW and REGISTER_WRITE do.
-/
namespace Sys2Proof.Machine

/-! ### Progress of the context in issue -/

/-- Completing a group moves PC and the loop registers on, and nothing else of the context. -/
theorem Ctx.advance_frame (c : Ctx) (bytes : Word) :
    { c.advance bytes with pc := c.pc, lcnt := c.lcnt, lact := c.lact, lrem := c.lrem, lend := c.lend } = c := by
  unfold Ctx.advance
  dsimp only
  repeat' split
  all_goals rfl

theorem OnlyCtx.eq {s t : State} (h : OnlyCtx s t) : t = { s with ctxs := t.ctxs, cores := t.cores } :=
  congrArg (fun u : State => { u with ctxs := t.ctxs, cores := t.cores }) h.2.2.2

/-- A core with another loop buffer. -/
def Core.withLoopBuf (k : Core) (b : Option LoopBuf) : Core := { k with loopBuf := b }

theorem OnlyCtx.trans {s t u : State} (h : OnlyCtx s t) (h' : OnlyCtx t u) : OnlyCtx s u := by
  have hcur := h.cur
  obtain ⟨ctxs, cores, core, rest⟩ := h
  obtain ⟨ctxs', cores', core', rest'⟩ := h'
  rw [hcur] at ctxs' cores' core'
  refine ⟨fun a ha => (ctxs' a ha).trans (ctxs a ha), fun a ha => (cores' a ha).trans (cores a ha), ?_, ?_⟩
  · exact (congrArg (·.withLoopBuf (s.coreOf s.cur).loopBuf) core').trans core
  · exact (congrArg (fun v : State => { v with ctxs := s.ctxs, cores := s.cores }) rest').trans rest

/-- Frames leave the matrix queues of all cores alone. -/
theorem OnlyCtx.head? {s t : State} (h : OnlyCtx s t) (b : AgentId) : t.head? b = s.head? b := by
  obtain ⟨-, cores, core, -⟩ := h
  unfold State.head?
  by_cases hb : coreKey b = coreKey s.cur
  · have own (u : State) : u.coreOf b = u.coreOf s.cur := (congrArg (lookupD Core.reset u.cores) hb :)
    rw [own, own, ← core]
  · rw [cores b hb]

/-- `k` is `s`, but that the context in issue may have completed its group. -/
structure Moved (s k : State) : Prop where
  frame : OnlyCtx s k
  ctx : { k.ctx with
    pc := s.ctx.pc, lcnt := s.ctx.lcnt, lact := s.ctx.lact, lrem := s.ctx.lrem, lend := s.ctx.lend, wait := s.ctx.wait
    pend := s.ctx.pend, missed := s.ctx.missed, stepping := s.ctx.stepping, inIssue := s.ctx.inIssue } = s.ctx

theorem Moved.refl (s : State) : Moved s s := ⟨OnlyCtx.refl s, rfl⟩

theorem ctx_complete (s : State) (f : Ctx → Ctx) : (s.complete f).ctx = f (s.ctx.advance s.groupBytes).ready := by
  obtain ⟨_, ⟨⟩, -, hctx⟩ := complete_gives s f
  exact hctx

theorem onlyCtx_complete (s : State) (f : Ctx → Ctx) : OnlyCtx s (s.complete f) := by
  obtain ⟨_, ⟨⟩, hframe, -⟩ := complete_gives s f
  exact hframe

theorem Moved.complete (s : State) : Moved s (s.complete id) := by
  refine ⟨onlyCtx_complete s id, ?_⟩
  rw [ctx_complete]
  exact congrArg (fun c : Ctx => { c with
    wait := s.ctx.wait, pend := s.ctx.pend, missed := s.ctx.missed, stepping := s.ctx.stepping, inIssue := s.ctx.inIssue })
    (Ctx.advance_frame s.ctx s.groupBytes)

section
variable {s k : State} (h : Moved s k)
include h

theorem Moved.cur : k.cur = s.cur := h.frame.cur
theorem Moved.prv : k.ctx.prv = s.ctx.prv := (congrArg Ctx.prv h.ctx :)
theorem Moved.tvec : k.ctx.tvec = s.ctx.tvec := (congrArg Ctx.tvec h.ctx :)
theorem Moved.x : k.ctx.x = s.ctx.x := (congrArg Ctx.x h.ctx :)
theorem Moved.cause : k.ctx.cause = s.ctx.cause := (congrArg Ctx.cause h.ctx :)
theorem Moved.flight : k.ctx.flight = s.ctx.flight := (congrArg Ctx.flight h.ctx :)
theorem Moved.eps : k.ctx.eps = s.ctx.eps := (congrArg Ctx.eps h.ctx :)
theorem Moved.origin : k.ctx.origin = s.ctx.origin := (congrArg Ctx.origin h.ctx :)
theorem Moved.innermost : k.ctx.innermost = s.ctx.innermost := (congrArg Ctx.innermost h.ctx :)
theorem Moved.draws : k.draws = s.draws := (congrArg State.draws h.frame.eq :)
theorem Moved.unitOf (a : AgentId) : k.unitOf a = s.unitOf a := (congrArg (State.unitOf · a) h.frame.eq :)
theorem Moved.hartOf (a : AgentId) : k.hartOf a = s.hartOf a := (congrArg (State.hartOf · a) h.frame.eq :)
theorem Moved.mayTrace : k.mayTrace = s.mayTrace := (congrArg State.mayTrace h.frame.eq :)
theorem Moved.selected : k.selected k.cur = s.selected s.cur := by
  unfold State.selected
  rw [h.cur, h.hartOf]
theorem Moved.journal : k.core.journal = s.core.journal := by
  obtain ⟨-, -, core, -⟩ := h.frame
  rw [State.core, h.cur]
  exact (congrArg Core.journal core :)

end

/-! ### Writes by number -/

/-- The privilege of the context in issue lets it write a register (06 R147, R152). -/
def State.mayWrite (s : State) (r : SysReg) : Prop :=
  s.ctx.prv = true ∨ (r.kernelWrite s.cur = false ∧ (r = .tvec → s.ctx.tvec = 0))

theorem Moved.mayWrite {s k : State} {r : SysReg} (h : Moved s k) (hm : s.mayWrite r) : k.mayWrite r := by
  unfold State.mayWrite
  rwa [h.prv, h.cur, h.tvec]

theorem writeReg_of_mayWrite {s : State} {n : Nat} {r : SysReg} (hn : sysReg? s.cur n = some r) (hm : s.mayWrite r) (w : Word) :
    s.writeReg s.cur s.ctx.prv n w = s.regSet s.cur s.ctx.prv r w := by
  unfold State.writeReg
  rw [hn]
  refine if_neg ?_
  rcases hm with hp | ⟨hk, ht⟩
  · simp [hp]
  · have htvec : r = .tvec → (s.ctxOf s.cur).tvec = 0 := ht
    simp only [hk, Bool.false_and, Bool.false_or, Bool.and_eq_true, decide_eq_true_eq]
    exact fun hr => hr.2 (htvec hr.1.1)

/-- A register that may be written is written by REGISTER_WRITE as `State.regSet` says. -/
theorem exec_registerWrite_of {s t : State} {n : BitVec 12} {r : SysReg} {w : Word} (hn : sysReg? s.cur n.toNat = some r)
    (hm : s.mayWrite r) (hset : s.regSet s.cur s.ctx.prv r w = .done t) : exec (.registerWrite n w) s = .next t := by
  show s.writes n.toNat w = .next t
  rw [State.writes, writeReg_of_mayWrite hn hm, hset]

/-- And by SRW so in the state in which its group has completed. -/
theorem exec_srw_of {s t₀ t : State} {a : XReg} {n : BitVec 12} {r : SysReg} (hn : sysReg? s.cur n.toNat = some r) (hm : s.mayWrite r)
    (hset₀ : s.regSet s.cur s.ctx.prv r (s.ctx.getX a) = .done t₀)
    (hset : (s.complete id).regSet (s.complete id).cur (s.complete id).ctx.prv r (s.ctx.getX a) = .done t) :
    exec (.srw a n) s = .next t := by
  have hk := Moved.complete s
  have hreg := writeReg_of_mayWrite (n := n.toNat) (by rw [hk.cur]; exact hn) (hk.mayWrite hm) (s.ctx.getX a)
  rw [hset, hk.cur, hk.prv] at hreg
  show execSrw a n s = .next t
  unfold execSrw
  dsimp only
  rw [writeReg_of_mayWrite hn hm, hset₀]
  dsimp only
  rw [hreg]

/-- What a write that is made does to the state at hand, it does in SRW and in REGISTER_WRITE. -/
theorem exec_writes_of {s : State} {a : XReg} {n : BitVec 12} {P : State → Prop} (r : SysReg) (hn : sysReg? s.cur n.toNat = some r)
    (hm : s.mayWrite r) (hset : ∀ k, Moved s k → ∃ t, k.regSet k.cur k.ctx.prv r (s.ctx.getX a) = .done t ∧ P t) :
    ∀ o ∈ [exec (.srw a n) s, exec (.registerWrite n (s.ctx.getX a)) s], ∃ t, o = .next t ∧ P t := by
  obtain ⟨t₀, ht₀, hP₀⟩ := hset s (.refl s)
  obtain ⟨t, ht, hP⟩ := hset _ (.complete s)
  simp only [List.forall_mem_cons, List.not_mem_nil, false_imp_iff, implies_true, and_true]
  exact ⟨⟨t, exec_srw_of hn hm ht₀ ht, hP⟩, t₀, exec_registerWrite_of hn hm ht₀, hP₀⟩

/-! ### Writes of the context in issue -/

/-- Writing `w` to `r` does `f` to the context in issue, and nothing else. -/
def SetsCtx (s : State) (r : SysReg) (w : Word) (f : Ctx → Ctx) : Prop :=
  ∃ t, s.regSet s.cur s.ctx.prv r w = .done t ∧ OnlyCtx s t ∧ t.ctx = f s.ctx

theorem setsCtx_of_updOf {s : State} {r : SysReg} {w : Word} {f : Ctx → Ctx}
    (h : s.regSet s.cur s.ctx.prv r w = .done (s.updOf s.cur f)) : SetsCtx s r w f :=
  ⟨_, h, onlyCtx_setCtxOf s _, ctxOf_setCtxOf_same ..⟩

theorem setsCtx_id {s : State} {r : SysReg} {w : Word} (h : s.regSet s.cur s.ctx.prv r w = .done s) : SetsCtx s r w id :=
  ⟨s, h, OnlyCtx.refl s, rfl⟩

theorem SetsCtx.congr {s : State} {r : SysReg} {w : Word} {f g : Ctx → Ctx} (h : SetsCtx s r w f) (hfg : f s.ctx = g s.ctx) :
    SetsCtx s r w g := by
  obtain ⟨t, ht, hframe, hctx⟩ := h
  exact ⟨t, ht, hframe, hctx.trans hfg⟩

/-- SRW of x[a] and REGISTER_WRITE of the same word do `f` to the context in issue, and nothing else. -/
def WritesCtx (s : State) (a : XReg) (n : BitVec 12) (f : Ctx → Ctx) : Prop :=
  Gives s (exec (.srw a n) s) f ∧ GivesCtx s (exec (.registerWrite n (s.ctx.getX a)) s) (f s.ctx)

theorem writesCtx_of {s : State} {a : XReg} {n : BitVec 12} {r : SysReg} {f : Ctx → Ctx} (hn : sysReg? s.cur n.toNat = some r)
    (hm : s.mayWrite r) (hset : ∀ k, Moved s k → SetsCtx k r (s.ctx.getX a) f) : WritesCtx s a n f := by
  obtain ⟨t₀, ht₀, hframe₀, hctx₀⟩ := hset s (.refl s)
  obtain ⟨t, ht, hframe, hctx⟩ := hset _ (.complete s)
  refine ⟨⟨t, exec_srw_of hn hm ht₀ ht, (onlyCtx_complete s id).trans hframe, ?_⟩,
    t₀, exec_registerWrite_of hn hm ht₀, hframe₀, hctx₀⟩
  rw [hctx, ctx_complete]
  rfl

/-- A register whose write sets fields of the context. -/
theorem writesCtx_of_updOf {s : State} {a : XReg} {n : BitVec 12} {f : Ctx → Ctx} (r : SysReg) (hn : sysReg? s.cur n.toNat = some r)
    (hm : s.mayWrite r) (hset : ∀ k : State, k.regSet k.cur k.ctx.prv r (s.ctx.getX a) = .done (k.updOf k.cur f)) : WritesCtx s a n f :=
  writesCtx_of hn hm fun k _ => setsCtx_of_updOf (hset k)

/-- A register that a write leaves as it is. -/
theorem writesCtx_id_of {s : State} {a : XReg} {n : BitVec 12} (r : SysReg) (hn : sysReg? s.cur n.toNat = some r)
    (hm : s.mayWrite r) (hset : ∀ k, Moved s k → k.regSet k.cur k.ctx.prv r (s.ctx.getX a) = .done k) : WritesCtx s a n id :=
  writesCtx_of hn hm fun k hk => setsCtx_id (hset k hk)

/-! ### Writes of other state -/

/-- `g` changes neither contexts nor cores, and does not depend on them. -/
structure Outside (g : State → State) : Prop where
  comm : ∀ k cs ks, g { k with ctxs := cs, cores := ks } = { g k with ctxs := cs, cores := ks }
  cur : ∀ k, (g k).cur = k.cur
  group : ∀ k, (g k).group = k.group

theorem outside_updUnit (a : AgentId) (f : Cluster → Cluster) : Outside (·.updUnit a f) :=
  ⟨fun _ _ _ => rfl, fun _ => rfl, fun _ => rfl⟩
theorem outside_updHart (a : AgentId) (f : HartRegs → HartRegs) : Outside (·.updHart a f) :=
  ⟨fun _ _ _ => rfl, fun _ => rfl, fun _ => rfl⟩
theorem outside_updSlice (st sl : Nat) (f : Slice → Slice) : Outside (·.updSlice st sl f) :=
  ⟨fun _ _ _ => rfl, fun _ => rfl, fun _ => rfl⟩
theorem outside_updDomain (d : Nat) (f : Domain → Domain) : Outside (·.updDomain d f) := by
  refine ⟨fun k cs ks => ?_, fun k => ?_, fun k => ?_⟩
  · show State.updDomain { k with ctxs := cs, cores := ks } d f = _
    unfold State.updDomain State.domain?
    dsimp only
    cases lookup? k.domains d <;> rfl
  · show (k.updDomain d f).cur = k.cur
    unfold State.updDomain
    cases k.domain? d <;> rfl
  · show (k.updDomain d f).group = k.group
    unfold State.updDomain
    cases k.domain? d <;> rfl

/-- `g` leaves the context in issue of `s` as it is, and keeps the frame of `s`. -/
structure KeepsFrame (s : State) (g : State → State) : Prop where
  frame : ∀ k, OnlyCtx s k → OnlyCtx (g s) (g k)
  ctx : ∀ k, (g k).ctx = k.ctx
  bytes : (g s).groupBytes = s.groupBytes

theorem Outside.keepsFrame {g : State → State} (hg : Outside g) (s : State) : KeepsFrame s g := by
  have hctxs (k : State) : (g k).ctxs = k.ctxs := (congrArg State.ctxs (hg.comm k k.ctxs k.cores) :)
  have hcores (k : State) : (g k).cores = k.cores := (congrArg State.cores (hg.comm k k.ctxs k.cores) :)
  have hctxOf (k : State) (b : AgentId) : (g k).ctxOf b = k.ctxOf b := (congrArg (lookupD Ctx.reset · b) (hctxs k) :)
  have hcoreOf (k : State) (b : AgentId) : (g k).coreOf b = k.coreOf b := (congrArg (lookupD Core.reset · (coreKey b)) (hcores k) :)
  refine ⟨fun k ⟨ctxs, cores, core, rest⟩ => ?_, fun k => ?_, ?_⟩
  · refine ⟨fun a ha => ?_, fun a ha => ?_, ?_, ?_⟩
    · rw [hctxOf, hctxOf, ctxs a (by rwa [hg.cur] at ha)]
    · rw [hcoreOf, hcoreOf, cores a (by rwa [hg.cur] at ha)]
    · rw [hg.cur, hcoreOf, hcoreOf, core]
    · rw [hctxs s, hcores s, ← hg.comm, rest]
  · rw [State.ctx, hctxOf, hg.cur, State.ctx]
  · rw [State.groupBytes, hg.group, State.groupBytes]

/-- So does an update of the core in issue that is not about its loop buffer. -/
theorem keepsFrame_updCore (s : State) {f : Core → Core} (hf : ∀ k b, f (k.withLoopBuf b) = (f k).withLoopBuf b) :
    KeepsFrame s (·.updCore s.cur f) := by
  refine ⟨fun k ⟨ctxs, cores, core, rest⟩ => ⟨ctxs, fun a ha => ?_, ?_, ?_⟩, fun _ => rfl, rfl⟩
  · exact (coreOf_setCoreOf_other k s.cur a _ ha).trans ((cores a ha).trans (coreOf_setCoreOf_other s s.cur a _ ha).symm)
  · have hown : f (s.coreOf s.cur) = (f (k.coreOf s.cur)).withLoopBuf (s.coreOf s.cur).loopBuf :=
      (congrArg f core).symm.trans (hf _ _)
    show ((k.updCore s.cur f).coreOf s.cur).withLoopBuf ((s.updCore s.cur f).coreOf s.cur).loopBuf = (s.updCore s.cur f).coreOf s.cur
    rw [State.updCore, State.updCore, coreOf_setCoreOf_same, coreOf_setCoreOf_same, hown]
    rfl
  · exact congrArg (fun u : State => { u with cores := (s.updCore s.cur f).cores }) rest

/-- SRW and REGISTER_WRITE make the state `s'` of `s`, but that SRW completes its group. -/
def WritesState (s : State) (a : XReg) (n : BitVec 12) (s' : State) : Prop :=
  Gives s' (exec (.srw a n) s) id ∧ exec (.registerWrite n (s.ctx.getX a)) s = .next s'

theorem writesState_of {s : State} {a : XReg} {n : BitVec 12} {r : SysReg} {g : State → State} (hn : sysReg? s.cur n.toNat = some r)
    (hm : s.mayWrite r) (hg : KeepsFrame s g)
    (hset : ∀ k, Moved s k → k.regSet k.cur k.ctx.prv r (s.ctx.getX a) = .done (g k)) : WritesState s a n (g s) := by
  have hset₀ := hset s (.refl s)
  refine ⟨⟨_, exec_srw_of hn hm hset₀ (hset _ (.complete s)), hg.frame _ (onlyCtx_complete s id), ?_⟩,
    exec_registerWrite_of hn hm hset₀⟩
  rw [hg.ctx, ctx_complete, hg.ctx, hg.bytes]

section
variable {s : State} {a : XReg} {n : BitVec 12} (r : SysReg) (hn : sysReg? s.cur n.toNat = some r) (hm : s.mayWrite r)
include hn hm

theorem writesState_updUnit {f : Cluster → Cluster}
    (hset : ∀ k, Moved s k → k.regSet k.cur k.ctx.prv r (s.ctx.getX a) = .done (k.updUnit k.cur f)) :
    WritesState s a n (s.updUnit s.cur f) :=
  writesState_of (g := (·.updUnit s.cur f)) hn hm ((outside_updUnit s.cur f).keepsFrame s)
    fun k hk => (hset k hk).trans (by rw [hk.cur])

theorem writesState_updHart {f : HartRegs → HartRegs}
    (hset : ∀ k, Moved s k → k.regSet k.cur k.ctx.prv r (s.ctx.getX a) = .done (k.updHart k.cur f)) :
    WritesState s a n (s.updHart s.cur f) :=
  writesState_of (g := (·.updHart s.cur f)) hn hm ((outside_updHart s.cur f).keepsFrame s)
    fun k hk => (hset k hk).trans (by rw [hk.cur])

theorem writesState_updCore {f : Core → Core} (hf : ∀ k b, f (k.withLoopBuf b) = (f k).withLoopBuf b)
    (hset : ∀ k, Moved s k → k.regSet k.cur k.ctx.prv r (s.ctx.getX a) = .done (k.updCore k.cur f)) :
    WritesState s a n (s.updCore s.cur f) :=
  writesState_of (g := (·.updCore s.cur f)) hn hm (keepsFrame_updCore s hf) fun k hk => (hset k hk).trans (by rw [hk.cur])

theorem writesState_updSlice {st sl : Nat} {f : Slice → Slice}
    (hset : ∀ k, Moved s k → k.regSet k.cur k.ctx.prv r (s.ctx.getX a) = .done (k.updSlice st sl f)) :
    WritesState s a n (s.updSlice st sl f) :=
  writesState_of (g := (·.updSlice st sl f)) hn hm ((outside_updSlice st sl f).keepsFrame s) hset

theorem writesState_updDomain {d : Nat} {f : Domain → Domain}
    (hset : ∀ k, Moved s k → k.regSet k.cur k.ctx.prv r (s.ctx.getX a) = .done (k.updDomain d f)) :
    WritesState s a n (s.updDomain d f) :=
  writesState_of (g := (·.updDomain d f)) hn hm ((outside_updDomain d f).keepsFrame s) hset

end

end Sys2Proof.Machine
end

section
/-!
PROOFS. What the write of each system register does where it does more than set a field (06 R151, 07 R203, 08 R224, 11 R307, 12 R352,
22 R543, R544).
-/
namespace Sys2Proof.Machine

/-! ### Numbers of registers -/

theorem sysReg?_core {n : Nat} {r : SysReg} (a : AgentId) (h : lookup? coreNumbers n = some r) : sysReg? a n = some r := by
  rw [sysReg?, h]

theorem lookup?_tracedat (k : BitVec 2) : lookup? coreNumbers (0x382 + k.setWidth 12 : BitVec 12).toNat = some (.tracedat k) := by
  revert k; decide

theorem sysReg?_slcdat (st q : Nat) (k : BitVec 2) :
    sysReg? (.serviceCore st q) (0x415 + k.setWidth 12 : BitVec 12).toNat = some (.slcdat k) := by
  have none₁ : lookup? coreNumbers (0x415 + k.setWidth 12 : BitVec 12).toNat = none := by revert k; decide
  have none₂ : lookup? hartNumbers (0x415 + k.setWidth 12 : BitVec 12).toNat = none := by revert k; decide
  have some₃ : lookup? serviceNumbers (0x415 + k.setWidth 12 : BitVec 12).toNat = some (.slcdat k) := by revert k; decide
  rw [sysReg?, none₁]
  dsimp only
  rw [none₂]
  dsimp only
  rw [isService, if_pos rfl, some₃]

theorem sysReg?_hart {a : AgentId} {n : Nat} {r : SysReg} (ha : isHart a = true) (hcore : lookup? coreNumbers n = none)
    (hhart : lookup? hartNumbers n = some r) : sysReg? a n = some r := by
  rw [sysReg?, hcore]
  dsimp only
  rw [hhart]
  exact if_pos ha

/-! ### CTXSTAT, TVEC and CAUSE -/

theorem ctx_loopBuffer (s : State) (before after : Ctx) : (s.loopBuffer s.cur before after).ctx = s.ctx := by
  rw [State.ctx, (onlyCtx_loopBuffer (OnlyCtx.refl s) before after).cur, ctxOf_loopBuffer]
  rfl

/-- The write of CTXSTAT may free the loop buffer, which is within the frame. -/
theorem setsCtx_ctxstat {s : State} {p : Bool} (hp : s.ctx.prv = p) (w : Word) : SetsCtx s .ctxstat w (·.writeStat p w) := by
  subst hp
  exact ⟨_, rfl, onlyCtx_loopBuffer (onlyCtx_setCtxOf s _) _ _,
    (ctx_loopBuffer (s.setCtxOf s.cur _) _ _).trans (ctxOf_setCtxOf_same ..)⟩

/-- A number in TVAL of PRIV is above the base word. -/
theorem privTrap_traps_reg (s : State) (n : BitVec 12) :
    Traps s (s.privTrap n.toNat) Cause.priv ((n.setWidth 32 <<< 16) + s.group.base.setWidth 32) := by
  have htval : BitVec.ofNat 32 (n.toNat * 2 ^ 16 + s.group.base.toNat) = (n.setWidth 32 <<< 16) + s.group.base.setWidth 32 := by
    apply BitVec.eq_of_toNat_eq
    simp [Nat.shiftLeft_eq]
  unfold State.privTrap
  rw [htval]
  exact trap_traps ..

/-- A program does not write TVEC once it is set (06 R152). -/
theorem exec_srw_tvec_traps {s : State} (a : XReg) (hp : s.ctx.prv = false) (ht : s.ctx.tvec ≠ 0) :
    Traps s (exec (.srw a 0x004) s) Cause.priv (0x00040000 + s.group.base.setWidth 32) := by
  have denied : s.writeReg s.cur s.ctx.prv 0x004 (s.ctx.getX a) = .denied := by
    have ht' : (s.ctxOf s.cur).tvec ≠ 0 := ht
    rw [State.writeReg, sysReg?_core _ (r := .tvec) rfl, hp]
    exact if_pos (by simpa using Or.inr ht')
  show Traps s (execSrw a 0x004 s) _ _
  unfold execSrw
  dsimp only
  rw [show (0x004 : BitVec 12).toNat = 0x004 from rfl, denied]
  exact privTrap_traps_reg s 0x004

/-- CODE keeps its field but for 0 and the codes of 06 R185. -/
theorem codeWrite_eq (old new : BitVec 8) : codeWrite old new =
    if new ∈ ([0x00, 0x01, 0x02, 0x03, 0x04, 0x05, 0x06, 0x07, 0x08, 0x10, 0x11, 0x12, 0x13, 0x14,
      0x18, 0x19, 0x1A, 0x1B, 0x20, 0x21, 0x22, 0x28, 0x30, 0x31, 0x40, 0x41, 0x50] : List (BitVec 8)) then new else old := by
  refine ite_congr (propext ?_) (fun _ => rfl) fun _ => rfl
  rw [List.contains_iff_mem, List.mem_cons]
  rfl

theorem causeWrite_eq (old w : Word) : causeWrite old w = (0 : BitVec 18) ++ w.extractLsb' 12 2 ++ (0 : BitVec 1) ++
    (if (w.extractLsb' 8 3).toNat < 6 then w.extractLsb' 8 3 else old.extractLsb' 8 3) ++
    codeWrite (old.extractLsb' 0 8) (w.extractLsb' 0 8) := by
  have glen : (if 6 ≤ (w.extractLsb' 8 3).toNat then old.extractLsb' 8 3 else w.extractLsb' 8 3) =
      if (w.extractLsb' 8 3).toNat < 6 then w.extractLsb' 8 3 else old.extractLsb' 8 3 := by
    simp only [← Nat.not_lt, ite_not]
  unfold causeWrite
  dsimp only
  rw [glen]
  rfl

/-! ### FPCSR and RCSR -/

theorem foldl_orFp (late : List Flying) (c : Ctx) : late.foldl (fun c x => c.orFp x.fp x.sat) c = { c with fpcsr := { c.fpcsr with
    flags := late.foldl (fun f x => f ||| x.fp) c.fpcsr.flags, sat := c.fpcsr.sat || late.any (fun x => x.sat) } } := by
  induction late generalizing c with
  | nil => simp
  | cons x rest ih => rw [List.foldl_cons, ih]; simp [Ctx.orFp, Bool.or_assoc]

theorem writeFp_eq (c : Ctx) (late : List Flying) (w : Word) : c.writeFp late w = { c with flight := late, fpcsr :=
    ⟨w.extractLsb' 16 2, w.extractLsb' 8 5, w.getLsbD 5 || late.any (fun x => x.sat),
      late.foldl (fun f x => f ||| x.fp) (w.extractLsb' 0 5)⟩ } := by
  unfold Ctx.writeFp
  rw [foldl_orFp]
  rfl

theorem Moved.inFlight {s k : State} (h : Moved s k) : k.inFlight k.cur = afterCycles (Config.choice s.draws) s.ctx.flight := by
  rw [← h.draws, ← h.flight]
  rfl

/-! ### DFLAGS -/

theorem regSet_dflags {s : State} {d : BitVec 10} (hd : s.ctx.innermost = some d) (p : Bool) (w : Word) :
    s.regSet s.cur p .dflags w = .done (s.updDomain d.toNat (fun x => { x with flags := x.flags &&& ~~~(w.extractLsb' 0 13) })) := by
  have hd' : (s.ctxOf s.cur).innermost = some d := hd
  simp only [State.regSet, hd']
  rfl

theorem regSet_dflags_outside {s : State} (hd : s.ctx.innermost = none) (p : Bool) (w : Word) :
    s.regSet s.cur p .dflags w = .done s := by
  have hd' : (s.ctxOf s.cur).innermost = none := hd
  simp only [State.regSet, hd']

/-! ### MCHAIN and CHBUF -/

/-- The suspended command of the context in issue, if it has one, ends. -/
def State.cancelSuspended (s : State) : State := if s.ctx.mchain.susp then s.cancelMatrix s.cur else s

theorem regSet_mchain {s : State} {w : Word} (hw : w.getLsbD 30 = false) (p : Bool) : s.regSet s.cur p .mchain w = .done s := by
  simp only [State.regSet, hw, Bool.false_and]
  rfl

theorem regSet_mchain_cancel {s : State} {w : Word} (hw : w.getLsbD 30 = true) (p : Bool) :
    s.regSet s.cur p .mchain w = .done s.cancelSuspended := by
  simp only [State.regSet, hw, Bool.true_and]
  rfl

theorem exec_mchainCancel {s : State} (hp : s.ctx.prv = true) : exec .mchainCancel s = .next s.cancelSuspended :=
  exec_registerWrite_of (n := 0x03B) (w := 0x40000000) (sysReg?_core s.cur (r := .mchain) rfl) (.inl hp) (regSet_mchain_cancel rfl _)

/-- MCHAIN with CANCEL is MCHAIN_CANCEL (11 R305). -/
theorem exec_srw_mchain_cancel {s : State} {a : XReg} (hp : s.ctx.prv = true) (hw : (s.ctx.getX a).getLsbD 30 = true) :
    exec (.srw a 0x03B) s = exec .mchainCancel (s.complete id) ∧
      exec (.registerWrite 0x03B (s.ctx.getX a)) s = exec .mchainCancel s := by
  have hn : sysReg? s.cur (0x03B : BitVec 12).toNat = some .mchain := rfl
  rw [exec_mchainCancel hp, exec_mchainCancel ((Moved.complete s).prv.trans hp)]
  exact ⟨exec_srw_of hn (.inl hp) (regSet_mchain_cancel hw _) (regSet_mchain_cancel hw _),
    exec_registerWrite_of hn (.inl hp) (regSet_mchain_cancel hw _)⟩

/-- CHBUF as written. -/
def Ctx.writeChbuf (c : Ctx) (w : Word) : Ctx :=
  if c.eps.toList.any (fun e => e.res.isSome) then c else { c with sizek := w.extractLsb' 16 8, basek := w.extractLsb' 0 7 }

theorem setsCtx_chbuf (s : State) (w : Word) : SetsCtx s .chbuf w (·.writeChbuf w) := setsCtx_of_updOf rfl

theorem Ctx.writeChbuf_reserved {c : Ctx} (h : ∃ e ∈ c.eps.toList, e.res.isSome = true) (w : Word) : c.writeChbuf w = c :=
  if_pos (List.any_eq_true.mpr h)

theorem Ctx.writeChbuf_free {c : Ctx} (h : ∀ e ∈ c.eps.toList, e.res = none) (w : Word) :
    c.writeChbuf w = { c with sizek := w.extractLsb' 16 8, basek := w.extractLsb' 0 7 } := by
  refine if_neg fun hany => ?_
  obtain ⟨e, he, hres⟩ := List.any_eq_true.mp hany
  rw [h e he] at hres
  exact Bool.false_ne_true hres

/-! ### Event counters and the arbiter's weight -/

/-- SLIPS and ICMISS as written: a hart has neither (22 R540). -/
theorem setsCtx_slips (s : State) (w : Word) : SetsCtx s .slips w (fun c => if isHart s.cur then c else { c with slips := w }) :=
  setsCtx_of_updOf rfl
theorem setsCtx_icmiss (s : State) (w : Word) : SetsCtx s .icmiss w (fun c => if isHart s.cur then c else { c with icmiss := w }) :=
  setsCtx_of_updOf rfl

theorem regSet_mweight (s : State) (p : Bool) (w : Word) : s.regSet s.cur p .mweight w =
    .done (s.updCore s.cur (fun k => { k with mweight := if w.toNat % 16 = 0 then k.mweight else w.toNat % 16 })) := by
  refine congrArg (fun f => RegWrite.done (s.updCore s.cur f)) (funext fun k => ?_)
  split <;> rfl

/-! ### JOURNAL -/

theorem lookup?_erase_same {K V : Type} [DecidableEq K] (l : List (K × V)) (key : K) : lookup? (erase l key) key = none := by
  induction l with
  | nil => rfl
  | cons p rest ih =>
    rw [erase, List.filter_cons]
    split
    · next h => rw [lookup?, if_neg (of_decide_eq_true h)]; exact ih
    · exact ih

theorem lookup?_erase_other {K V : Type} [DecidableEq K] (l : List (K × V)) {key n : K} (hn : n ≠ key) :
    lookup? (erase l key) n = lookup? l n := by
  induction l with
  | nil => rfl
  | cons p rest ih =>
    rw [erase, List.filter_cons]
    split
    · rw [lookup?, lookup?]; exact ite_congr rfl (fun _ => rfl) fun _ => ih
    · next h =>
      have hp : p.1 = key := by simpa using h
      rw [lookup?, if_neg (by rw [hp]; exact Ne.symm hn)]
      exact ih

/-- Entry `e` of the journal holds a refusal record of the context in issue. -/
def State.ownRecord (s : State) (e : Nat) : Prop :=
  ∃ j r, lookup? s.core.journal e = some j ∧ j.verdict = .record r ∧ j.ctx = s.cur

/-- Clearing an entry frees it where it holds a refusal record of the context in issue. -/
structure Cleared (s t : State) (e : Nat) : Prop where
  mem : t.mem = s.mem
  cur : t.cur = s.cur
  ctx : { t.ctx with clearedRefusals := s.ctx.clearedRefusals } = s.ctx
  other : ∀ n, n ≠ e → lookup? t.core.journal n = lookup? s.core.journal n
  freed : s.ownRecord e → lookup? t.core.journal e = none
  kept : ¬ s.ownRecord e → lookup? t.core.journal e = lookup? s.core.journal e

theorem cleared_of_not_ownRecord {s : State} {e : Nat} (h : ¬ s.ownRecord e) : Cleared s s e :=
  ⟨rfl, rfl, rfl, fun _ _ => rfl, fun h' => absurd h' h, fun _ => rfl⟩

theorem clearRecord_cleared (s : State) (e : Nat) : Cleared s (s.clearRecord s.cur e) e := by
  unfold State.clearRecord
  split
  · next hj => exact cleared_of_not_ownRecord (fun ⟨j, _, hj', _⟩ => nomatch hj.symm.trans hj')
  · next j hj =>
    split
    · next r hr =>
      split
      · next hc =>
        have journal : ((s.updCore s.cur (fun k => { k with journal := erase k.journal e })).coreOf s.cur).journal =
            erase s.core.journal e := by rw [State.updCore, coreOf_setCoreOf_same]; rfl
        refine ⟨rfl, rfl, ?_, fun n hn => ?_, fun _ => ?_, fun hno => absurd ⟨j, r, hj, hr, hc⟩ hno⟩
        · exact congrArg (fun c : Ctx => { c with clearedRefusals := s.ctx.clearedRefusals }) (ctxOf_updOf_same ..)
        · exact (congrArg (lookup? · n) journal).trans (lookup?_erase_other _ hn)
        · exact (congrArg (lookup? · e) journal).trans (lookup?_erase_same _ e)
      · next hc => exact cleared_of_not_ownRecord (fun ⟨j', _, hj', _, hc'⟩ => hc (by cases hj.symm.trans hj'; exact hc'))
    all_goals
      next hr => exact cleared_of_not_ownRecord (fun ⟨j', _, hj', hr', _⟩ => by cases hj.symm.trans hj'; cases hr.symm.trans hr')

end Sys2Proof.Machine
end

section
/-!
PROOFS. The writes of JOURNAL, MRSET and the trace registers of a slice.
-/
namespace Sys2Proof.Machine

/-- The context in issue selects a part and an entry of its journal. -/
def State.selectJournal (s : State) (w : Word) : State :=
  s.updOf s.cur (fun c => { c with jpart := w.extractLsb' 4 2, jentry := w.extractLsb' 0 4 })

theorem regSet_journal (s : State) (p : Bool) (w : Word) : s.regSet s.cur p .journal w =
    .done (if w.getLsbD 8 then (s.selectJournal w).clearRecord s.cur (w.toNat % 16) else s.selectJournal w) := rfl

/-- What a write of JOURNAL with CLR does (12 R352): part and entry are selected, and the entry is cleared. -/
structure JournalCleared (s t : State) (w : Word) : Prop where
  mem : t.mem = s.mem
  part : t.ctx.jpart = w.extractLsb' 4 2
  entry : t.ctx.jentry = w.extractLsb' 0 4
  x : t.ctx.x = s.ctx.x
  other : ∀ n, n ≠ (w.extractLsb' 0 4).toNat → lookup? t.core.journal n = lookup? s.core.journal n
  freed : s.ownRecord (w.extractLsb' 0 4).toNat → lookup? t.core.journal (w.extractLsb' 0 4).toNat = none
  kept : ¬ s.ownRecord (w.extractLsb' 0 4).toNat →
    lookup? t.core.journal (w.extractLsb' 0 4).toNat = lookup? s.core.journal (w.extractLsb' 0 4).toNat

theorem Moved.ownRecord {s k : State} (h : Moved s k) (e : Nat) : k.ownRecord e ↔ s.ownRecord e := by
  unfold State.ownRecord
  rw [h.journal, h.cur]

theorem regSet_journal_clears {s k : State} (h : Moved s k) {w : Word} (hw : w.getLsbD 8 = true) :
    ∃ t, k.regSet k.cur k.ctx.prv .journal w = .done t ∧ JournalCleared s t w := by
  have he : w.toNat % 16 = (w.extractLsb' 0 4).toNat := by simp
  have cleared : Cleared (k.selectJournal w) ((k.selectJournal w).clearRecord k.cur (w.extractLsb' 0 4).toNat) _ :=
    clearRecord_cleared (k.selectJournal w) _
  have selected : (k.selectJournal w).ctx = { k.ctx with jpart := w.extractLsb' 4 2, jentry := w.extractLsb' 0 4 } :=
    ctxOf_updOf_same ..
  refine ⟨(k.selectJournal w).clearRecord k.cur (w.extractLsb' 0 4).toNat, ?_, ?_⟩
  · rw [regSet_journal, if_pos hw, he]
  have field {α : Type} (f : Ctx → α) := (congrArg f cleared.ctx).trans (congrArg f selected)
  refine ⟨cleared.mem.trans (h.frame.mem : _), field Ctx.jpart, field Ctx.jentry, (field Ctx.x).trans h.x, fun n hn => ?_, fun hr => ?_,
    fun hr => ?_⟩
  · exact (cleared.other n hn).trans (congrArg (lookup? · n) h.journal)
  · exact cleared.freed ((h.ownRecord _).mpr hr)
  · exact (cleared.kept (fun hr' => hr ((h.ownRecord _).mp hr'))).trans (congrArg (lookup? · _) h.journal)

/-! ### MRSET -/

/-- Memory, the units, the context in issue and the x registers are left alone. -/
structure Quiet (s t : State) : Prop where
  mem : t.mem = s.mem
  units : t.units = s.units
  cur : t.cur = s.cur
  x : ∀ a, (t.ctxOf a).x = (s.ctxOf a).x

theorem Quiet.refl (s : State) : Quiet s s := ⟨rfl, rfl, rfl, fun _ => rfl⟩

theorem Quiet.trans {s t u : State} (h : Quiet s t) (h' : Quiet t u) : Quiet s u :=
  ⟨h'.mem.trans h.mem, h'.units.trans h.units, h'.cur.trans h.cur, fun a => (h'.x a).trans (h.x a)⟩

theorem quiet_ite {p : Prop} [Decidable p] {s t u : State} (ht : Quiet s t) (hu : Quiet s u) : Quiet s (if p then t else u) := by
  split <;> assumption

theorem quiet_updCore (s : State) (a : AgentId) (f : Core → Core) : Quiet s (s.updCore a f) := ⟨rfl, rfl, rfl, fun _ => rfl⟩

theorem quiet_updOf (s : State) (a : AgentId) {f : Ctx → Ctx} (hf : ∀ c, (f c).x = c.x) : Quiet s (s.updOf a f) := by
  refine ⟨rfl, rfl, rfl, fun b => ?_⟩
  by_cases hb : b = a
  · rw [hb, ctxOf_updOf_same, hf]
  · rw [ctxOf_updOf_other s a b f hb]

theorem quiet_foldl {α : Type} {f : State → α → State} (hf : ∀ s a, Quiet s (f s a)) (l : List α) (s : State) :
    Quiet s (l.foldl f s) := by
  induction l generalizing s with
  | nil => exact Quiet.refl s
  | cons a rest ih => exact (hf s a).trans (ih (f s a))

theorem quiet_popHead (s : State) (core : AgentId) : Quiet s (s.popHead core) := by
  unfold State.popHead
  split
  · exact (quiet_updCore ..).trans (quiet_updOf _ _ fun _ => rfl)
  · exact Quiet.refl s

theorem quiet_passRing (s : State) (core : AgentId) : Quiet s (s.passRing core) := by
  unfold State.passRing
  split
  · exact quiet_ite (quiet_popHead s core) (quiet_ite (quiet_popHead s core) (quiet_updCore ..))
  · exact Quiet.refl s

theorem quiet_moveLatches (s : State) (ms : List AgentId) : Quiet s (s.moveLatches ms) :=
  quiet_foldl (fun _ _ => quiet_updCore ..) _ s

theorem quiet_ringStep (s : State) (u : AgentId) : Quiet s (s.ringStep u) := by
  unfold State.ringStep
  exact quiet_ite ((quiet_moveLatches s _).trans (quiet_foldl quiet_passRing _ _)) (Quiet.refl s)

/-- A core that MRSET removes leaves its ring point, or its cancelled chain ends (11 R300). -/
def State.leaveRing (s : State) (a : AgentId) : State :=
  match s.head? a with
  | some m =>
    if m.cancelled then s.popHead a
    else if s.atRing a then s.passRing a else s
  | none => s

theorem quiet_leaveRing (s : State) (a : AgentId) : Quiet s (s.leaveRing a) := by
  unfold State.leaveRing
  split
  · exact quiet_ite (quiet_popHead s a) (quiet_ite (quiet_passRing s a) (Quiet.refl s))
  · exact Quiet.refl s

theorem setMrset_eq (s : State) (u : AgentId) (v : BitVec 8) : s.setMrset u v =
    (((s.ringStep u).members u).filter (fun a => !v.getLsbD (coreIdx a))).foldl State.leaveRing
      ((s.ringStep u).updUnit u (fun x => { x with mrset := v })) := rfl

/-- Whatever happens on the ring, the write sets MRSET and leaves memory and the x registers alone. -/
theorem setMrset_sets (s : State) (u : AgentId) (v : BitVec 8) : (s.setMrset u v).mem = s.mem ∧ (s.setMrset u v).cur = s.cur ∧
    (∀ a, ((s.setMrset u v).ctxOf a).x = (s.ctxOf a).x) ∧ ((s.setMrset u v).unitOf u).mrset = v := by
  have step := quiet_ringStep s u
  have leave := quiet_foldl quiet_leaveRing (((s.ringStep u).members u).filter (fun a => !v.getLsbD (coreIdx a)))
    ((s.ringStep u).updUnit u (fun x => { x with mrset := v }))
  rw [setMrset_eq]
  refine ⟨leave.mem.trans step.mem, leave.cur.trans step.cur, fun a => (leave.x a).trans (step.x a), ?_⟩
  have hunit := congrArg (fun us => (lookupD Cluster.reset us (unitKey u)).mrset) leave.units
  refine hunit.trans ?_
  exact congrArg Cluster.mrset (unitOf_setUnitOf_same ..)

/-- No ring member stands at a ring point, nor has a cancelled chain at the head of its queue. -/
def State.ringIdle (s : State) (u : AgentId) : Prop :=
  ∀ b ∈ s.members u, s.atRing b = false ∧ ∀ m, s.head? b = some m → m.cancelled = false

theorem ringReady_eq_false {s : State} {b : AgentId} (h : s.atRing b = false) : s.ringReady b = false := by
  unfold State.atRing at h
  unfold State.ringReady
  cases hm : s.head? b with
  | none => rfl
  | some m =>
    simp only [hm, decide_eq_false_iff_not, Bool.or_eq_false_iff] at h
    simp [h]

theorem ringStep_of_ringIdle {s : State} {u : AgentId} (h : s.ringIdle u) : s.ringStep u = s := by
  unfold State.ringStep
  refine if_neg fun ⟨hne, hall⟩ => ?_
  obtain ⟨b, hb⟩ := List.exists_mem_of_ne_nil _ hne
  have := List.all_eq_true.mp hall b hb
  rw [ringReady_eq_false (h b hb).1] at this
  exact Bool.false_ne_true this

theorem leaveRing_of_idle {s : State} {b : AgentId} (hring : s.atRing b = false)
    (hcancel : ∀ m, s.head? b = some m → m.cancelled = false) : s.leaveRing b = s := by
  unfold State.leaveRing
  split
  · next m hm => rw [if_neg (by simp [hcancel m hm]), if_neg (by simp [hring])]
  · rfl

theorem foldl_eq_self {α β : Type} {f : α → β → α} {s : α} {l : List β} (h : ∀ b ∈ l, f s b = s) : l.foldl f s = s := by
  induction l with
  | nil => rfl
  | cons b rest ih =>
    rw [List.foldl_cons, h b List.mem_cons_self]
    exact ih fun c hc => h c (List.mem_cons_of_mem b hc)

theorem setMrset_of_ringIdle {s : State} {u : AgentId} (h : s.ringIdle u) (v : BitVec 8) :
    s.setMrset u v = s.updUnit u (fun x => { x with mrset := v }) := by
  rw [setMrset_eq, ringStep_of_ringIdle h]
  refine foldl_eq_self fun b hb => ?_
  obtain ⟨hring, hcancel⟩ := h b (List.mem_filter.mp hb).1
  exact leaveRing_of_idle hring hcancel

theorem Moved.ringIdle {s k : State} (h : Moved s k) {u : AgentId} (hi : s.ringIdle u) : k.ringIdle u := by
  have hmembers : k.members u = s.members u := by
    unfold State.members
    rw [h.unitOf]
  intro b hb
  obtain ⟨hring, hcancel⟩ := hi b (hmembers ▸ hb)
  unfold State.atRing at hring ⊢
  rw [h.frame.head?]
  exact ⟨hring, hcancel⟩

theorem regSet_mrset_sets {s k : State} (h : Moved s k) (w : Word) : ∃ t, k.regSet k.cur k.ctx.prv .mrset w = .done t ∧
    t.mem = s.mem ∧ t.ctx.x = s.ctx.x ∧ (t.unitOf s.cur).mrset = w.extractLsb' 0 8 := by
  obtain ⟨mem, cur, x, mrset⟩ := setMrset_sets k k.cur (w.extractLsb' 0 8)
  refine ⟨k.setMrset k.cur (w.extractLsb' 0 8), rfl, mem.trans h.frame.mem, ?_, ?_⟩
  · rw [State.ctx, cur, x, ← h.x]
    rfl
  · rw [← h.cur, mrset]

theorem regSet_mrset_of_ringIdle {s : State} (h : s.ringIdle s.cur) (p : Bool) (w : Word) :
    s.regSet s.cur p .mrset w = .done (s.updUnit s.cur (fun u => { u with mrset := w.extractLsb' 0 8 })) :=
  congrArg RegWrite.done (setMrset_of_ringIdle h (w.extractLsb' 0 8))

/-! ### Harts -/

theorem regSet_tenant {s : State} (h : ∀ q, s.ctx.origin ≠ .loader q) (p : Bool) (w : Word) :
    s.regSet s.cur p .tenant w = .done (s.updHart s.cur (fun h => { h with tenant := w.extractLsb' 0 6 })) := by
  refine congrArg (fun f => RegWrite.done (s.updHart s.cur f)) (funext fun x => ?_)
  split
  · next q hq => exact absurd hq (h q)
  all_goals rfl

/-- TENANT does not change while a loader program runs (22 R540). -/
theorem regSet_tenant_loader {s : State} {q : Nat} (h : s.ctx.origin = .loader q) (p : Bool) (w : Word) :
    s.regSet s.cur p .tenant w = .done (s.updHart s.cur id) := by
  have h' : (s.ctxOf s.cur).origin = .loader q := h
  simp only [State.regSet, h']
  rfl

theorem regSet_mrtail (s : State) (p : Bool) (w : Word) : s.regSet s.cur p .mrtail w = .done (s.updHart s.cur (fun h =>
    { h with tailM := if (h.headM + 128 - w.toNat % 128) % 128 ≤ 64 then w.toNat % 128 else h.tailM })) := by
  refine congrArg (fun f => RegWrite.done (s.updHart s.cur f)) (funext fun h => ?_)
  split <;> rfl

/-- SLCCTL with EN from 0 to 1 clears the ring (22 R543). -/
theorem regSet_slcctl (s : State) (p : Bool) (w : Word) :
    s.regSet s.cur p .slcctl w = .done (s.updSlice (s.selected s.cur).1 (s.selected s.cur).2 (fun x =>
      let on := w.getLsbD 31 && s.mayTrace s.cur (s.selected s.cur).1 (s.selected s.cur).2 x.lo.toNat x.hi.toNat
      let fresh := on && !x.en
      { x with en := on, filt := w.getLsbD 30, ten := w.extractLsb' 24 6, ring := if fresh then [] else x.ring
               headR := if fresh then 0 else x.headR, wrap := if fresh then false else x.wrap })) := by
  refine congrArg RegWrite.done ?_
  unfold State.writeSlcctl State.updSlice
  dsimp only
  congr 2
  repeat' split
  all_goals rfl

theorem regSet_slclo (s : State) (p : Bool) (w : Word) :
    s.regSet s.cur p .slclo w = .done (s.updSlice (s.selected s.cur).1 (s.selected s.cur).2 (fun x => { x with
      lo := w.extractLsb' 0 21
      en := x.en && s.mayTrace s.cur (s.selected s.cur).1 (s.selected s.cur).2 (w.extractLsb' 0 21).toNat x.hi.toNat })) := rfl

theorem regSet_slchi (s : State) (p : Bool) (w : Word) :
    s.regSet s.cur p .slchi w = .done (s.updSlice (s.selected s.cur).1 (s.selected s.cur).2 (fun x => { x with
      hi := w.extractLsb' 0 21
      en := x.en && s.mayTrace s.cur (s.selected s.cur).1 (s.selected s.cur).2 x.lo.toNat (w.extractLsb' 0 21).toNat })) := rfl

theorem regSet_slcidx (s : State) (p : Bool) (w : Word) : s.regSet s.cur p .slcidx w =
    .done (s.updSlice (s.selected s.cur).1 (s.selected s.cur).2 (fun x => { x with idxR := w.toNat % 1024 })) := rfl

/-- TLBINV with GO starts an invalidation unless one is in progress (22 R544). -/
theorem regSet_tlbinv (s : State) (p : Bool) (w : Word) : s.regSet s.cur p .tlbinv w = .done (s.updHart s.cur (fun h => { h with
    tlbAll := w.getLsbD 30, tlbTen := w.extractLsb' 0 6
    tlbBusy := if w.getLsbD 31 = true ∧ h.tlbBusy = none then
        some ((w.extractLsb' 0 6).toNat, if w.getLsbD 30 then none else some h.tlbva.toNat)
      else h.tlbBusy })) := by
  refine congrArg (fun f => RegWrite.done (s.updHart s.cur f)) (funext fun h => ?_)
  unfold HartRegs.writeTlbinv
  dsimp only
  simp only [Bool.and_eq_true, Option.isNone_iff_eq_none]
  split <;> rfl

end Sys2Proof.Machine
end

section
namespace Sys2Proof.Machine

/-! ### What SRW and REGISTER_WRITE do to the registers of the context in issue -/

section
variable {s : State} {a : XReg}

/-- At kernel privilege `p` is true and CTXSTAT is written whole; at program privilege RM and T are (06 R150). -/
theorem writesCtx_ctxstat {p : Bool} (hp : s.ctx.prv = p) : WritesCtx s a 0x000 (·.writeStat p (s.ctx.getX a)) :=
  writesCtx_of (r := .ctxstat) rfl (.inr ⟨rfl, nofun⟩) fun _ hk => setsCtx_ctxstat (hk.prv.trans hp) _

theorem writesCtx_cause (hp : s.ctx.prv = true) :
    WritesCtx s a 0x002 (fun c => { c with cause := causeWrite s.ctx.cause (s.ctx.getX a) }) := by
  refine writesCtx_of (r := .cause) rfl (.inl hp) fun k hk =>
    (setsCtx_of_updOf (f := fun c => { c with cause := causeWrite c.cause (s.ctx.getX a) }) rfl).congr ?_
  rw [hk.cause]

theorem writesCtx_fpcsr : WritesCtx s a 0x020 (·.writeFp (afterCycles (Config.choice s.draws) s.ctx.flight) (s.ctx.getX a)) :=
  writesCtx_of (r := .fpcsr) rfl (.inr ⟨rfl, nofun⟩) fun _ hk => hk.inFlight ▸ setsCtx_of_updOf rfl

theorem writesCtx_rcsr : WritesCtx s a 0x021 (·.writeRat (afterCycles (Config.choice s.draws) s.ctx.flight) (s.ctx.getX a)) :=
  writesCtx_of (r := .rcsr) rfl (.inr ⟨rfl, nofun⟩) fun _ hk => hk.inFlight ▸ setsCtx_of_updOf rfl

section
variable (hp : s.ctx.prv = true)
include hp

theorem writesCtx_chbuf_reserved (h : ∃ e ∈ s.ctx.eps.toList, e.res.isSome = true) : WritesCtx s a 0x040 id :=
  writesCtx_of (r := .chbuf) rfl (.inl hp) fun k hk => (setsCtx_chbuf k _).congr (Ctx.writeChbuf_reserved (hk.eps ▸ h) _)

theorem writesCtx_chbuf_free (h : ∀ e ∈ s.ctx.eps.toList, e.res = none) : WritesCtx s a 0x040 (fun c =>
    { c with sizek := (s.ctx.getX a).extractLsb' 16 8, basek := (s.ctx.getX a).extractLsb' 0 7 }) :=
  writesCtx_of (r := .chbuf) rfl (.inl hp) fun k hk => (setsCtx_chbuf k _).congr (Ctx.writeChbuf_free (hk.eps ▸ h) _)

theorem writesCtx_journal (h : (s.ctx.getX a).getLsbD 8 = false) : WritesCtx s a 0x041 (fun c =>
    { c with jpart := (s.ctx.getX a).extractLsb' 4 2, jentry := (s.ctx.getX a).extractLsb' 0 4 }) :=
  writesCtx_of_updOf .journal rfl (.inl hp) fun k => (regSet_journal k _ _).trans
    (congrArg RegWrite.done (if_neg (by rw [h]; exact Bool.false_ne_true)))

theorem writesCtx_slips : WritesCtx s a 0x0C0 (fun c => if isHart s.cur then c else { c with slips := s.ctx.getX a }) :=
  writesCtx_of (r := .slips) rfl (.inl hp) fun k hk => hk.cur ▸ setsCtx_slips k _

theorem writesCtx_icmiss : WritesCtx s a 0x0C1 (fun c => if isHart s.cur then c else { c with icmiss := s.ctx.getX a }) :=
  writesCtx_of (r := .icmiss) rfl (.inl hp) fun k hk => hk.cur ▸ setsCtx_icmiss k _

end

end

end Sys2Proof.Machine

open Sys2Proof Sys2Proof.Machine
namespace Sys2Proof.Proofs

/-- Settles O22: by number, each register with the lemma that says what its write does. -/
theorem systemRegisterWrites : Obligations.SystemRegisterWrites := by
  intro s a w writes
  refine ⟨fun hp => ?_, fun hp => ?_, fun hp => writesCtx_ctxstat hp, fun hp ht => ?_, exec_srw_tvec_traps a, ?_, ?_,
    ⟨?_, writesCtx_rcsr⟩, fun hp => ?_⟩
  · simp only [List.forall_mem_cons, List.not_mem_nil, false_imp_iff, implies_true, and_true]
    have field {n : BitVec 12} {f : Ctx → Ctx} (r : SysReg) (hn : sysReg? s.cur n.toNat = some r) :=
      writesCtx_of_updOf (a := a) (f := f) r hn (.inl hp)
    exact ⟨writesCtx_ctxstat hp, field .epc rfl fun _ => rfl, field .tval rfl fun _ => rfl, field .tvec rfl fun _ => rfl,
      field .kscr0 rfl fun _ => rfl, field .kscr1 rfl fun _ => rfl, field .ptimeh rfl fun _ => rfl,
      field .pinsth rfl fun _ => rfl, field .pswh rfl fun _ => rfl⟩
  · have cause := writesCtx_cause (a := a) hp
    rw [causeWrite_eq, codeWrite_eq] at cause
    exact cause
  · have tvec : WritesCtx s a 0x004 (fun c => { c with tvec := w &&& 0xFFFFFFFE }) :=
      writesCtx_of_updOf .tvec rfl (.inr ⟨rfl, fun _ => ht⟩) fun _ => rfl
    exact ⟨tvec, tvec.2⟩
  · simp only [List.forall_mem_cons, List.not_mem_nil, false_imp_iff, implies_true, and_true]
    have field {n : BitVec 12} {f : Ctx → Ctx} (r : SysReg) (hn : sysReg? s.cur n.toNat = some r) (hm) :=
      writesCtx_of_updOf (a := a) (f := f) r hn (.inr hm)
    exact ⟨field .lcnt rfl ⟨rfl, nofun⟩ fun _ => rfl, field .lstart rfl ⟨rfl, nofun⟩ fun _ => rfl,
      field .lend rfl ⟨rfl, nofun⟩ fun _ => rfl, field .lrem rfl ⟨rfl, nofun⟩ fun _ => rfl,
      field .decl rfl ⟨rfl, nofun⟩ fun _ => rfl, field .declh rfl ⟨rfl, nofun⟩ fun _ => rfl,
      field .vl rfl ⟨rfl, nofun⟩ fun _ => rfl, field .mfmt rfl ⟨rfl, nofun⟩ fun _ => rfl,
      field .msatc rfl ⟨rfl, nofun⟩ fun _ => rfl, field .mrowmask rfl ⟨rfl, nofun⟩ fun _ => rfl,
      field .tracectl rfl ⟨rfl, nofun⟩ fun _ => rfl⟩
  · simp only [List.forall_mem_cons, List.not_mem_nil, false_imp_iff, implies_true, and_true]
    have fixed {n : BitVec 12} (r : SysReg) (hn : sysReg? s.cur n.toNat = some r) (hm) := writesCtx_id_of (a := a) r hn (.inr hm)
    exact ⟨fixed .time rfl ⟨rfl, nofun⟩ fun _ _ => rfl, fixed .timeh rfl ⟨rfl, nofun⟩ fun _ _ => rfl,
      fixed .ctxname rfl ⟨rfl, nofun⟩ fun _ _ => rfl, fixed .vlanes rfl ⟨rfl, nofun⟩ fun _ _ => rfl,
      fixed .mcap rfl ⟨rfl, nofun⟩ fun _ _ => rfl, fixed .switchat rfl ⟨rfl, nofun⟩ fun _ _ => rfl,
      fixed .switchath rfl ⟨rfl, nofun⟩ fun _ _ => rfl, fixed .modnum rfl ⟨rfl, nofun⟩ fun _ _ => rfl,
      fixed .astore rfl ⟨rfl, nofun⟩ fun _ _ => rfl, fixed .instant rfl ⟨rfl, nofun⟩ fun _ _ => rfl,
      fixed .instanth rfl ⟨rfl, nofun⟩ fun _ _ => rfl, fixed .live rfl ⟨rfl, nofun⟩ fun _ _ => rfl,
      fixed .liveh rfl ⟨rfl, nofun⟩ fun _ _ => rfl, fixed .vseq rfl ⟨rfl, nofun⟩ fun _ _ => rfl,
      fixed .viter rfl ⟨rfl, nofun⟩ fun _ _ => rfl, fixed .mopaddr rfl ⟨rfl, nofun⟩ fun _ _ => rfl⟩
  · have fpcsr := writesCtx_fpcsr (s := s) (a := a)
    simp only [writeFp_eq] at fpcsr
    exact fpcsr
  have fixed {n : BitVec 12} (r : SysReg) (hn : sysReg? s.cur n.toNat = some r) := writesCtx_id_of (a := a) r hn (.inl hp)
  refine ⟨fun hd => fixed .dflags rfl fun _ hk => regSet_dflags_outside (hk.innermost.trans hd) _ w,
    fun d hd => writesState_updDomain .dflags rfl (.inl hp) fun _ hk => regSet_dflags (hk.innermost.trans hd) _ w,
    writesState_updUnit .mgate rfl (.inl hp) fun _ _ => rfl,
    fun hw => fixed .mchain rfl fun _ _ => regSet_mchain hw _, exec_srw_mchain_cancel hp,
    writesCtx_chbuf_reserved hp, writesCtx_chbuf_free hp, writesCtx_journal hp,
    fun hw => exec_writes_of .journal rfl (.inl hp) fun _ hk => ?_, fun hcore => ?_, fun hhart => ?_,
    writesState_updUnit .acccfg rfl (.inl hp) fun _ _ => rfl,
    writesCtx_of_updOf .accstat rfl (.inl hp) fun _ => rfl,
    writesState_updCore .mweight rfl (.inl hp) (fun _ _ => rfl) fun k _ => regSet_mweight k _ w,
    exec_writes_of .mrset rfl (.inl hp) fun _ hk => regSet_mrset_sets hk w,
    fun hidle => writesState_updUnit .mrset rfl (.inl hp) fun _ hk => regSet_mrset_of_ringIdle (hk.cur ▸ hk.ringIdle hidle) _ w,
    writesState_updCore .tracestat rfl (.inl hp) (fun _ _ => ?_) fun _ _ => rfl,
    writesState_updCore .traceidx rfl (.inl hp) (fun _ _ => rfl) fun _ _ => rfl,
    fun k => fixed (.tracedat k) (sysReg?_core _ (lookup?_tracedat k)) fun _ _ => rfl, fun hhart => ?_⟩
  · obtain ⟨t, ht, done⟩ := regSet_journal_clears hk hw
    exact ⟨t, ht, done.mem, done.part, done.entry, done.x, done.other, done.freed, done.kept⟩
  · have slips := writesCtx_slips (a := a) hp
    have icmiss := writesCtx_icmiss (a := a) hp
    simp only [hcore] at slips icmiss
    exact ⟨slips, icmiss⟩
  · have slips := writesCtx_slips (a := a) hp
    have icmiss := writesCtx_icmiss (a := a) hp
    simp only [hhart] at slips icmiss
    exact ⟨slips, icmiss⟩
  · split <;> rfl
  · refine ⟨fun ho => writesState_updHart .tenant (sysReg?_hart hhart rfl rfl) (.inl hp) fun _ hk =>
        regSet_tenant (hk.origin ▸ ho) _ w,
      fun q ho => writesState_updHart .tenant (sysReg?_hart hhart rfl rfl) (.inl hp) fun _ hk =>
        regSet_tenant_loader (hk.origin.trans ho) _ w,
      fixed .mrhead (sysReg?_hart hhart rfl rfl) fun _ _ => rfl, fun st q hq => ?_⟩
    have hn (n : Nat) : sysReg? s.cur n = sysReg? (.serviceCore st q) n := by rw [hq]
    obtain rfl : stackOf s.cur = st := by rw [hq]; rfl
    exact ⟨writesState_updHart .mrbase (hn _) (.inl hp) fun _ _ => rfl,
      writesState_updHart .mrtail (hn _) (.inl hp) fun k _ => regSet_mrtail k _ w,
      writesState_updHart .slcsel (hn _) (.inl hp) fun _ _ => rfl,
      writesState_updSlice .slcctl (hn _) (.inl hp) fun k hk => by rw [regSet_slcctl, hk.selected, hk.mayTrace, hk.cur]; rfl,
      writesState_updSlice .slclo (hn _) (.inl hp) fun k hk => by rw [regSet_slclo, hk.selected, hk.mayTrace, hk.cur]; rfl,
      writesState_updSlice .slchi (hn _) (.inl hp) fun k hk => by rw [regSet_slchi, hk.selected, hk.mayTrace, hk.cur]; rfl,
      writesState_updSlice .slcidx (hn _) (.inl hp) fun k hk => by rw [regSet_slcidx, hk.selected]; rfl,
      fun k => fixed (.slcdat k) ((hn _).trans (sysReg?_slcdat _ q k)) fun _ _ => rfl,
      writesState_updHart .tlbva (hn _) (.inl hp) fun _ _ => rfl,
      writesState_updHart .tlbinv (hn _) (.inl hp) fun k _ => regSet_tlbinv k _ w⟩

end Sys2Proof.Proofs
end
